-- ==== Sys2Proof/Word.lean ====
section
/-! DEFINITION. The word types of the hub and their plainest arithmetic. -/

namespace Sys2Proof

/-- A hub register, a general register of a Striker core, a Chip Time value: 64 bits (R11, R86). -/
abbrev Word := BitVec 64

/-- The addressable unit of hub memory (R8). -/
abbrev Byte := BitVec 8

/-- The number of a general register of a Striker core. -/
abbrev RegNo := BitVec 5

/-- The 16-bit immediate of an instruction. -/
abbrev Imm16 := BitVec 16

end Sys2Proof
end

