-- ==== Sys2Proof/Machine/Bits.lean ====
section
/-! DEFINITION. Bit fields, byte order (R9), and the one sparse store all the model's tables use: a list of key and
value pairs with strictly rising keys, in which no entry equals what an absent key reads as. -/

namespace Sys2Proof.Machine

open Sys2Proof

/-- Bits [lo+len-1 : lo] of a number. -/
def bits (n lo len : Nat) : Nat := n / 2 ^ lo % 2 ^ len

/-- One bit of a number. -/
def bitAt (n i : Nat) : Bool := bits n i 1 == 1

/-- `n` with bits [lo+len-1 : lo] replaced by the low bits of `v`. -/
def setBits (n lo len v : Nat) : Nat :=
  n - bits n lo len * 2 ^ lo + v % 2 ^ len * 2 ^ lo

/-- 1 for true. -/
def b2n (b : Bool) : Nat := if b then 1 else 0

/-- The smaller of `n` and the largest value of `len` bits: a saturating counter's value. -/
def sat (len n : Nat) : Nat := min n (2 ^ len - 1)

/-- A value of `len` bits read as a two's-complement number. -/
def signedOf (len n : Nat) : Int :=
  let v := n % 2 ^ len
  if v < 2 ^ (len - 1) then (v : Int) else (v : Int) - (2 ^ len : Nat)

/-- A number as `len` bits of two's complement. -/
def unsignedOf (len : Nat) (i : Int) : Nat := (i % ((2 ^ len : Nat) : Int)).toNat

/-- The numbers of the bits set in a `len`-bit mask, lowest first. -/
def maskList (len n : Nat) : List Nat := (List.range len).filter (bitAt n)

/-- The lowest set bit of a `len`-bit mask. -/
def lowestBit (len n : Nat) : Option Nat := (List.range len).find? (bitAt n)

/-- How many bits of a `len`-bit mask are set. -/
def popCount (len n : Nat) : Nat := (maskList len n).length

/-- The mask with exactly the listed bits set. -/
def maskOf (l : List Nat) : Nat := l.foldl (fun m i => if bitAt m i then m else m + 2 ^ i) 0

/-- The `n` low bytes of a number, least significant first (R9). -/
def bytesLE : Nat → Nat → List Byte
  | 0, _ => []
  | n + 1, v => BitVec.ofNat 8 v :: bytesLE n (v / 256)

/-- The number that bytes hold, least significant first (R9). -/
def ofBytesLE : List Byte → Nat
  | [] => 0
  | b :: bs => b.toNat + 256 * ofBytesLE bs

/-- The smallest multiple of `a` that is at least `n`. -/
def alignUp (n a : Nat) : Nat := (n + a - 1) / a * a

/-- Every element in place `k` of a list of natural numbers, zero beyond its end. -/
def natAt (l : List Nat) (k : Nat) : Nat := l.getD k 0

/-- A list with element `k` replaced. -/
def setAt {α : Type} : List α → Nat → α → List α
  | [], _, _ => []
  | _ :: xs, 0, v => v :: xs
  | x :: xs, k + 1, v => x :: setAt xs k v

/-! ### The sparse store -/

/-- The entry of a key. -/
def aFind {α : Type} (k : Nat) : List (Nat × α) → Option α
  | [] => none
  | (k', v) :: m => if k' = k then some v else aFind k m

/-- What a key reads as: its entry, or what `d` gives an absent key. -/
def aGet {α : Type} (d : Nat → α) (m : List (Nat × α)) (k : Nat) : α :=
  match aFind k m with
  | some v => v
  | none => d k

/-- The store without a key. -/
def aDrop {α : Type} (k : Nat) : List (Nat × α) → List (Nat × α)
  | [] => []
  | (k', v) :: m => if k' = k then aDrop k m else (k', v) :: aDrop k m
/-- An entry in its place among rising keys. -/
def aInsert {α : Type} (k : Nat) (v : α) : List (Nat × α) → List (Nat × α)
  | [] => [(k, v)]
  | (k', v') :: m => if k < k' then (k, v) :: (k', v') :: m else (k', v') :: aInsert k v m
/-- Write a key, keeping the canonical form: writing what an absent key reads as removes the entry. -/
def aPut {α : Type} [DecidableEq α] (d : Nat → α) (k : Nat) (v : α) (m : List (Nat × α)) : List (Nat × α) :=
  if v = d k then aDrop k m else aInsert k v (aDrop k m)

/-- The canonical form above a lower bound on the keys. -/
def canonicalFrom {α : Type} [DecidableEq α] (d : Nat → α) : Nat → List (Nat × α) → Bool
  | _, [] => true
  | lo, (k, v) :: m => decide (lo ≤ k) && decide (v ≠ d k) && canonicalFrom d (k + 1) m

/-- Strictly rising keys, and no entry equal to what an absent key reads as. -/
def canonical {α : Type} [DecidableEq α] (d : Nat → α) (m : List (Nat × α)) : Bool := canonicalFrom d 0 m

/-- The entries whose key satisfies a test. -/
def aKeep {α : Type} (p : Nat → Bool) (m : List (Nat × α)) : List (Nat × α) := m.filter fun e => p e.1

/-- The keys of a store. -/
def aKeys {α : Type} (m : List (Nat × α)) : List Nat := m.map Prod.fst

/-- Apply a function to consecutive keys `k, k+1, …`, writing one value of the list at each. -/
def aPutList {α : Type} [DecidableEq α] (d : Nat → α) : Nat → List α → List (Nat × α) → List (Nat × α)
  | _, [], m => m
  | k, v :: vs, m => aPutList d (k + 1) vs (aPut d k v m)

/-- CRC-32C (Castagnoli, reflected) over bytes, one bit at a time. -/
def crc32cBit (c : Nat) : Nat := if c % 2 = 1 then (c / 2) ^^^ 0x82F63B78 else c / 2

/-- One byte into a running CRC-32C. -/
def crc32cByte (c : Nat) (b : Byte) : Nat :=
  (List.range 8).foldl (fun x _ => crc32cBit x) (c ^^^ b.toNat)

/-- The CRC-32C of a byte string. -/
def crc32c (bs : List Byte) : Nat := (bs.foldl crc32cByte 0xFFFFFFFF) ^^^ 0xFFFFFFFF

end Sys2Proof.Machine
end

