-- ==== Sys2Proof/Syntax.lean ====
section
/-! DEFINITION. The commands of the hub, one constructor per row of the opcode table, and the operand types they
carry. -/

namespace Sys2Proof

/-- Who issues a register access or a command (R158): a Striker core by its hub-source ID, a host agent 0–15, or a
Vynuond session 0–3. -/
inductive Master where
  | core (id : Nat)
  | host (n : Nat)
  | sess (n : Nat)
  deriving DecidableEq, Repr

/-- The configuration groups of package scope (R426). -/
inductive CfgGroup where
  | trc | tim | hgrp | blw | bnk | hwt | wfg | rcv | ldg
  deriving DecidableEq, Repr

/-- Where a spine transfer goes (R319): a Tongs by its number 0–23, the Crucible write or read port of a node, or its
local port. -/
inductive SpinePort where
  | tongs (k : Nat)
  | cruWrite (p : Nat)
  | cruRead (p : Nat)
  | here (p : Nat)
  deriving DecidableEq, Repr

/-- A transfer that enters its requester's queue at its first arbiter (R320): its requester, its destination, its length
in beats, the beats of the response if it is a read (R324), and whether it carries a level 6 or 7 record to a trigger
matrix or a trigger action (R333). -/
structure Transfer where
  req : Nat
  dest : SpinePort
  beats : Nat
  resp : Nat
  trigger : Bool
  deriving DecidableEq, Repr

/-- What the rail monitors read of each rail over a ramp (R221), by die: the voltage at the ramp's start, and the lowest
and the highest during it, in mV. -/
structure RailVolts where
  starts : List Nat
  lows : List Nat
  highs : List Nat
  deriving DecidableEq, Repr

/-- A unit that falls silent (R114), and the handshakes of the hub's next access that it still answers before. -/
structure SilentUnit where
  unit : Nat
  answered : Nat
  deriving DecidableEq, Repr

/-- Quanta that a stepping unit has completed since it last reported (R185). -/
structure Quanta where
  unit : Nat
  count : Nat
  deriving DecidableEq, Repr

/-- A scan read of a capture (R261): its region, and its bank where the region is an SRAM region (R263). -/
structure RegionScan where
  region : Nat
  bank : Nat
  deriving DecidableEq, Repr

/-- A sensor's 1 µs sample (R390): the mean rail voltage in 0.1 mV, and the charge in 1/64 µC, which is the mean current
in 1/64 A. -/
structure Sample where
  volt : Nat
  charge : Nat
  deriving DecidableEq, Repr

/-- An activity report of a unit (R397, R531): a count of an activity class, or an occupancy in 1/64 µs, with the
context if it has one. -/
inductive Activity where
  | count (unit : Nat) (ctx : Option Nat) (cls n : Nat)
  | occupancy (unit : Nat) (ctx : Option Nat) (n : Nat)
  deriving DecidableEq, Repr

/-- What a regulator output answers in a millisecond (R393, R395, R513): the energy accumulator of READ_EOUT in nJ, and
the words of VOUT_MODE, READ_VOUT and READ_IOUT, of which the ledger reads those its entry asks for; or a read that does
not count. -/
inductive PmbReading where
  | values (eout voutMode vout iout : Nat)
  | failed
  deriving DecidableEq, Repr
/-- The words of a reading are as wide as the bus has them. -/
def PmbReading.ok : PmbReading → Bool
  | .values _ mode vout iout => decide (mode < 256 ∧ vout < 65536 ∧ iout < 65536)
  | .failed => true

/-- A channel that carries SPDM (R478): an MCTP endpoint on PCIe or the one on I3C, the Vynuond port, or the JTAG mailbox
instrument. -/
inductive Chan where
  | pcie (eid : Nat)
  | i3c
  | vyn
  | jtag
  deriving DecidableEq, Repr

/-- What a NEGOTIATE_ALGORITHMS offers (R483): for each field, whether the hub's one choice is among its values. -/
structure AlgOffer where
  asym : Bool
  hash : Bool
  dhe : Bool
  aead : Bool
  schedule : Bool
  spec : Bool
  specHash : Bool
  deriving DecidableEq, Repr

/-- Credits of a Vynuond side, in frames by class (R490). -/
structure VynCredits where
  control : Nat
  access : Nat
  stream : Nat
  deriving DecidableEq, Repr

/-- The header of a received Vynuond frame (R489), whether its CRC held, and whether it came through the JTAG mailbox
instrument (R512). -/
structure VynHdr where
  jtag : Bool
  version : Nat
  opcode : Nat
  cls : Nat
  more : Bool
  length : Nat
  seq : Nat
  ack : Nat
  crcOk : Bool
  deriving DecidableEq, Repr

/-- The two MCTP transports (R505). -/
inductive McTransport where
  | i3c | pcie
  deriving DecidableEq, Repr

/-- New work at a fenced boundary (R365): a command dispatch, a memory request of another partition, a fabric packet, a
PCIe request; and a memory request of the partition's own units (R369). -/
inductive NewWork where
  | dispatch | memory | fabricPacket | pcie | unitMemory
  deriving DecidableEq, Repr


/-- The commands of the hub: one constructor per row of spec/opcode_table.json, in the table's order. -/
inductive Instr where
  /-- PLL_LOCK (R47): The time PLL locks; after a cold reset Chip Time starts at zero, and later locks set pll_locked without stepping the count. -/
  | pllLock
  /-- PLL_LOSS_OF_LOCK (R50): The time PLL loses lock: the counter free-runs, pll_locked clears, HUB_ALERT_N is asserted and an UNLOCK record is written. -/
  | pllLossOfLock
  /-- POWER_ON_LOCK_TIMEOUT (R546): The PLL has not locked 1 ms after HUB_POR_N release, so Chip Time starts free-running and PLL_UNLOCK is raised. -/
  | powerOnLockTimeout
  /-- CHECK_WORD (R54): The once-per-microsecond check word reaches a spoke and is compared with its replica. -/
  | checkWord (spoke : Nat) (drift : Int)
  /-- TRIM_WRITE (R53): A write to TIM_TRIM_n.trim starts a slew of the spoke's trim toward the new value. -/
  | trimWrite (m : Master) (spoke : Nat) (trim : BitVec 12)
  /-- TRIM_SLEW_TICK (R53): Each microsecond a slewing trim moves by one tick, and a TRIM record is written when the slew ends. -/
  | trimSlewTick (spoke : Nat)
  /-- TIME_EXCHANGE (R56): A follower completes a two-way time exchange with its parent and moves between ACQUIRING, AHEAD and LOCKED. -/
  | timeExchange (offset : Int)
  /-- PARENT_SILENT (R56): The parent link is banked, down or silent for 4 intervals, so the follower enters HOLDOVER or returns to nominal rate. -/
  | parentSilent
  /-- TIM_STEP (R58): A write to TIM_STEP steps the Chip Time of a FREE or MASTER chip forward, and is refused with ROLE on a follower. -/
  | timStep (m : Master) (ticks : Word)
  /-- WALL_OFFSET_WRITE (R60): A write to TIM_WALL_OFFSET latches TIM_WALL_STAMP, sets wall_valid and writes a wall-offset record. -/
  | wallOffsetWrite (m : Master) (off : Word)
  /-- UNIT_EVENT (R61): A unit presents an event on its socket; the collector stamps it and passes it on in stamp order. -/
  | unitEvent (unit : Nat) (cls : Byte) (ctx : Option (BitVec 11)) (payload : BitVec 28)
  /-- TRACE_WRITE (R73): A trace writer takes a record from its FIFO and writes it into its segment, or discards it while stopped. -/
  | traceWrite (spoke : Nat)
  /-- LOSS_RECORD_TIMER (R75): 10 µs after the first unreported drop of a level, a loss record for that level is emitted and its count resets. -/
  | lossRecordTimer (spoke : Nat) (level : Nat)
  /-- RING_STOP (R77): Under stop_scope RING the other node writers stop within 1 µs with their own loss and ring-stop records. -/
  | ringStop (node : Nat)
  /-- TRACE_START (R79): A write of 1 to TRC_CTRL.start clears fill, wraps and stopped flags and writes a trace-started record in each segment. -/
  | traceStart (m : Master)
  /-- TRACE_STOP (R79): A write of 1 to TRC_CTRL.stop stops every writer with cause COMMANDED. -/
  | traceStop (m : Master)
  /-- TRC_ARM (R72): A write of 1 to TRC_ARM.arm applies group TRC and has the planner place the segments. -/
  | trcArm (m : Master)
  /-- FIFO_PEAK_READ (R16): A read of TRC_COLLECT returns fifo_peak and resets it to the current occupancy. -/
  | fifoPeakRead (m : Master) (spoke : Nat)
  /-- ADD (R105): Adds two registers modulo 2^64. -/
  | add (c : Nat) (rd : RegNo) (rs1 : RegNo) (rs2 : RegNo)
  /-- SUB (R105): Subtracts two registers modulo 2^64. -/
  | sub (c : Nat) (rd : RegNo) (rs1 : RegNo) (rs2 : RegNo)
  /-- AND (R105): Bitwise AND of two registers. -/
  | and (c : Nat) (rd : RegNo) (rs1 : RegNo) (rs2 : RegNo)
  /-- OR (R105): Bitwise OR of two registers. -/
  | or (c : Nat) (rd : RegNo) (rs1 : RegNo) (rs2 : RegNo)
  /-- XOR (R105): Bitwise XOR of two registers. -/
  | xor (c : Nat) (rd : RegNo) (rs1 : RegNo) (rs2 : RegNo)
  /-- SHL (R105): Shifts rs1 left by rs2[5:0]. -/
  | shl (c : Nat) (rd : RegNo) (rs1 : RegNo) (rs2 : RegNo)
  /-- SHR (R105): Shifts rs1 right logically by rs2[5:0]. -/
  | shr (c : Nat) (rd : RegNo) (rs1 : RegNo) (rs2 : RegNo)
  /-- SAR (R105): Shifts rs1 right arithmetically by rs2[5:0]. -/
  | sar (c : Nat) (rd : RegNo) (rs1 : RegNo) (rs2 : RegNo)
  /-- MUL (R105): Writes the low 64 bits of the product. -/
  | mul (c : Nat) (rd : RegNo) (rs1 : RegNo) (rs2 : RegNo)
  /-- MULH (R105): Writes the high 64 bits of the signed 128-bit product. -/
  | mulh (c : Nat) (rd : RegNo) (rs1 : RegNo) (rs2 : RegNo)
  /-- MIN (R105): Writes the signed minimum of two registers. -/
  | min (c : Nat) (rd : RegNo) (rs1 : RegNo) (rs2 : RegNo)
  /-- MAX (R105): Writes the signed maximum of two registers. -/
  | max (c : Nat) (rd : RegNo) (rs1 : RegNo) (rs2 : RegNo)
  /-- SLT (R105): Writes 1 if rs1 is less than rs2 signed, else 0. -/
  | slt (c : Nat) (rd : RegNo) (rs1 : RegNo) (rs2 : RegNo)
  /-- SLTU (R105): Writes 1 if rs1 is less than rs2 unsigned, else 0. -/
  | sltu (c : Nat) (rd : RegNo) (rs1 : RegNo) (rs2 : RegNo)
  /-- ADDI (R105): Adds a sign-extended immediate. -/
  | addi (c : Nat) (rd : RegNo) (rs1 : RegNo) (imm : Imm16)
  /-- ANDI (R105): ANDs a zero-extended immediate. -/
  | andi (c : Nat) (rd : RegNo) (rs1 : RegNo) (imm : Imm16)
  /-- ORI (R105): ORs a zero-extended immediate. -/
  | ori (c : Nat) (rd : RegNo) (rs1 : RegNo) (imm : Imm16)
  /-- XORI (R105): XORs a zero-extended immediate. -/
  | xori (c : Nat) (rd : RegNo) (rs1 : RegNo) (imm : Imm16)
  /-- SHLI (R105): Shifts left by an immediate. -/
  | shli (c : Nat) (rd : RegNo) (rs1 : RegNo) (sh : BitVec 6)
  /-- SHRI (R105): Shifts right logically by an immediate. -/
  | shri (c : Nat) (rd : RegNo) (rs1 : RegNo) (sh : BitVec 6)
  /-- LUI (R105): Loads a shifted 19-bit immediate into the whole of rd. -/
  | lui (c : Nat) (rd : RegNo) (hw : BitVec 2) (imm : BitVec 19)
  /-- LD (R93): Loads an 8-byte local word. -/
  | ld (c : Nat) (rd : RegNo) (rs1 : RegNo) (imm : Imm16)
  /-- LW (R93): Loads a sign-extended 4-byte local word. -/
  | lw (c : Nat) (rd : RegNo) (rs1 : RegNo) (imm : Imm16)
  /-- LWU (R93): Loads a zero-extended 4-byte local word. -/
  | lwu (c : Nat) (rd : RegNo) (rs1 : RegNo) (imm : Imm16)
  /-- LH (R93): Loads a sign-extended 2-byte local value. -/
  | lh (c : Nat) (rd : RegNo) (rs1 : RegNo) (imm : Imm16)
  /-- LHU (R93): Loads a zero-extended 2-byte local value. -/
  | lhu (c : Nat) (rd : RegNo) (rs1 : RegNo) (imm : Imm16)
  /-- LB (R93): Loads a sign-extended local byte. -/
  | lb (c : Nat) (rd : RegNo) (rs1 : RegNo) (imm : Imm16)
  /-- LBU (R93): Loads a zero-extended local byte. -/
  | lbu (c : Nat) (rd : RegNo) (rs1 : RegNo) (imm : Imm16)
  /-- ST (R93): Stores an 8-byte local word. -/
  | st (c : Nat) (rs2 : RegNo) (rs1 : RegNo) (imm : Imm16)
  /-- SW (R93): Stores a 4-byte local word. -/
  | sw (c : Nat) (rs2 : RegNo) (rs1 : RegNo) (imm : Imm16)
  /-- SH (R93): Stores a 2-byte local value. -/
  | sh (c : Nat) (rs2 : RegNo) (rs1 : RegNo) (imm : Imm16)
  /-- SB (R93): Stores a local byte. -/
  | sb (c : Nat) (rs2 : RegNo) (rs1 : RegNo) (imm : Imm16)
  /-- BEQ (R105): Branches if the two registers are equal. -/
  | beq (c : Nat) (rs1 : RegNo) (rs2 : RegNo) (off : Imm16)
  /-- BNE (R105): Branches if the two registers differ. -/
  | bne (c : Nat) (rs1 : RegNo) (rs2 : RegNo) (off : Imm16)
  /-- BLT (R105): Branches if rs1 is less than rs2 signed. -/
  | blt (c : Nat) (rs1 : RegNo) (rs2 : RegNo) (off : Imm16)
  /-- BGE (R105): Branches if rs1 is at least rs2 signed. -/
  | bge (c : Nat) (rs1 : RegNo) (rs2 : RegNo) (off : Imm16)
  /-- BLTU (R105): Branches if rs1 is less than rs2 unsigned. -/
  | bltu (c : Nat) (rs1 : RegNo) (rs2 : RegNo) (off : Imm16)
  /-- BGEU (R105): Branches if rs1 is at least rs2 unsigned. -/
  | bgeu (c : Nat) (rs1 : RegNo) (rs2 : RegNo) (off : Imm16)
  /-- JAL (R105): Writes the link address and jumps by a word offset. -/
  | jal (c : Nat) (rd : RegNo) (off : BitVec 21)
  /-- JALR (R130): Writes the link address and jumps to a register target, clearing active after an exception exit. -/
  | jalr (c : Nat) (rd : RegNo) (rs1 : RegNo) (imm : Imm16)
  /-- HLD (R95): Reads the hub address space at the target's width, acting as PEEK in unit debug windows. -/
  | hld (c : Nat) (rd : RegNo) (rs1 : RegNo) (imm : Imm16)
  /-- HST (R97): Issues a posted hub write after the port checks, acting as POKE in unit debug windows. -/
  | hst (c : Nat) (rs2 : RegNo) (rs1 : RegNo) (imm : Imm16)
  /-- POSTED_WRITE_COMPLETE (R98): A posted HST completes at its target; a refusal is kept for the next FENCE. -/
  | postedWriteComplete (c : Nat)
  /-- SPRR (R105): Reads a special register. -/
  | sprr (c : Nat) (rd : RegNo) (spr : BitVec 12)
  /-- SPRW (R105): Writes a special register. -/
  | sprw (c : Nat) (spr : BitVec 12) (rs1 : RegNo)
  /-- FENCE (R99): Waits for every posted write and reports the refused count and the first refusal. -/
  | fence (c : Nat) (rd : RegNo)
  /-- BREAK (R105): Enters debug halt if a debugger is attached, otherwise raises exception BREAK. -/
  | breakInstr (c : Nat)
  /-- XCTL_EXIT (R130): A write of 1 to STK_XCTL.exit makes the next JALR leave the exception. -/
  | xctlExit (c : Nat)
  /-- WDOG_KICK (R132): A write of 1 to STK_WDOG_KICK reloads the watchdog count. -/
  | wdogKick (c : Nat)
  /-- WATCHDOG_EXPIRY (R132): The watchdog count expires, raising WATCHDOG or, with an exception active, resetting the core. -/
  | watchdogExpiry (c : Nat)
  /-- STRIKER_CORE_RESET (R135): A core reset breaks its locks, aborts its transaction, discards unaccepted writes, disarms slots and empties its inbox. -/
  | strikerCoreReset (c : Nat)
  /-- PEEK (R112): Reads a unit debug window word according to the unit's run state. -/
  | peek (c : Nat) (rd : RegNo) (rs1 : RegNo) (off : BitVec 13)
  /-- QPEEK (R112): Reads a unit window word without side effects through the quiet or scan path. -/
  | qpeek (c : Nat) (rd : RegNo) (rs1 : RegNo) (off : BitVec 13)
  /-- POKE (R112): Writes a unit window word, or with FORCE writes a held unit through scan. -/
  | poke (c : Nat) (rs2 : RegNo) (rs1 : RegNo) (off : BitVec 13) (force : Bool) (group : Bool)
  /-- POKEP (R115): Stages a write in the pending-poke queue of a held unit. -/
  | pokep (c : Nat) (rs2 : RegNo) (rs1 : RegNo) (off : BitVec 13) (group : Bool)
  /-- HANDSHAKE_SILENCE (R114): A hub access meets 2 µs of handshake silence, making the unit UNRESPONSIVE or marking a quenched unit silent. -/
  | handshakeSilence (x : SilentUnit)
  /-- HALT (R118): Requests a halt of a unit or halt group and returns per-unit outcomes. -/
  | halt (c : Nat) (rd : RegNo) (rs1 : RegNo) (group : Bool) (nowait : Bool)
  /-- RUN (R118): Resumes or cancels the halt of a unit or group, draining its pending pokes first. -/
  | run (c : Nat) (rd : RegNo) (rs1 : RegNo) (group : Bool) (nowait : Bool)
  /-- STEP (R118): Releases a halted unit or group for a count of quanta. -/
  | step (c : Nat) (rd : RegNo) (rs1 : RegNo) (rs2 : RegNo) (group : Bool)
  /-- QUENCH (R121): Requests assertion of the quench line for a die mask and returns the assertion time. -/
  | quench (c : Nat) (rd : RegNo) (rs1 : RegNo)
  /-- REHEAT (R122): Requests Reheat of quenched dies and returns the start instant. -/
  | reheat (c : Nat) (rd : RegNo) (rs1 : RegNo)
  /-- WAITEV (R154): Returns the lowest pending slot of a mask or waits for a delivery. -/
  | waitev (c : Nat) (rd : RegNo) (rs1 : RegNo) (rs2 : RegNo)
  /-- WAITEV_DEADLINE (R154): A waiting WAITEV's deadline passes with no slot pending and it returns DEADLINE. -/
  | waitevDeadline (c : Nat)
  /-- ARM (R151): Arms an event slot with a source descriptor. -/
  | arm (c : Nat) (rs1 : RegNo) (rs2 : RegNo)
  /-- DISARM (R151): Disarms an event slot and discards its FIFO. -/
  | disarm (c : Nat) (rs1 : RegNo)
  /-- FIRE (R153): Delivers a payload to a slot of a target core armed FIRE. -/
  | fire (c : Nat) (rs1 : RegNo) (rs2 : RegNo)
  /-- EVPOP (R155): Removes and returns the oldest payload of a slot. -/
  | evpop (c : Nat) (rd : RegNo) (rs1 : RegNo)
  /-- TNOW (R106): Returns the Chip Time of the core's spoke replica. -/
  | tnow (c : Nat) (rd : RegNo)
  /-- TWAIT (R106): Waits until Chip Time reaches a given value. -/
  | twait (c : Nat) (rs1 : RegNo)
  /-- TWAIT_EXPIRY (R106): The awaited Chip Time of a waiting TWAIT arrives and the instruction returns. -/
  | twaitExpiry (c : Nat)
  /-- CAPT (R249): Starts a capture of a plan in Hearth scratch and returns a handle. -/
  | capt (c : Nat) (rd : RegNo) (rs1 : RegNo)
  /-- CWAIT (R313): Waits on a capture or Swage handle and returns its manifest address or job status. -/
  | cwait (c : Nat) (rd : RegNo) (rs1 : RegNo) (rs2 : RegNo)
  /-- CWAIT_DEADLINE (R313): A waiting CWAIT's deadline passes with the job running and it returns PENDING. -/
  | cwaitDeadline (c : Nat)
  /-- SWG (R307): Starts a Swage compress, decompress or check job and returns a handle. -/
  | swg (c : Nat) (rd : RegNo) (rs1 : RegNo)
  /-- TXB (R429): Opens a transaction for the core. -/
  | txb (c : Nat) (rd : RegNo)
  /-- TXC (R431): Commits a transaction at a commit instant and waits for the prepare. -/
  | txc (c : Nat) (rd : RegNo) (rs1 : RegNo) (rs2 : RegNo)
  /-- TXA (R436): Aborts an open or still-abortable transaction. -/
  | txa (c : Nat) (rs1 : RegNo)
  /-- LCK (R124): Acquires or renews a hub lock, or waits for it up to a limit. -/
  | lck (c : Nat) (rd : RegNo) (rs1 : RegNo) (rs2 : RegNo)
  /-- LCK_WAIT_LIMIT (R124): A waiting lock request's wait limit passes without a grant and it ends LOCKED. -/
  | lckWaitLimit (lock : Nat) (m : Master)
  /-- ULK (R126): Releases a hub lock, optionally clearing its broken state, and grants it to the oldest waiter. -/
  | ulk (c : Nat) (rs1 : RegNo) (rs2 : RegNo)
  /-- LEASE_LAPSE (R125): A lock's 10 ms lease lapses; the lock becomes broken and passes to the oldest waiter with BROKEN. -/
  | leaseLapse (lock : Nat)
  /-- LGR_READ (R405): Returns the total of a ledger account in mJ. -/
  | lgrRead (c : Nat) (rd : RegNo) (rs1 : RegNo)
  /-- LGR_OVERHEAD_OPEN (R405): Opens a commanded overhead interval on the named dies. -/
  | lgrOverheadOpen (c : Nat) (rs1 : RegNo)
  /-- LGR_OVERHEAD_CLOSE (R405): Closes the core's commanded overhead intervals on the named dies. -/
  | lgrOverheadClose (c : Nat) (rs1 : RegNo)
  /-- LGR_SEAL (R405): Closes the current ledger batch at once. -/
  | lgrSeal (c : Nat) (rd : RegNo)
  /-- SEND (R108): Sends a 64-bit message to another core's inbox. -/
  | send (c : Nat) (rs1 : RegNo) (rs2 : RegNo)
  /-- RECV (R108): Returns the oldest inbox message or waits for one. -/
  | recv (c : Nat) (rd : RegNo) (rs1 : RegNo)
  /-- RECV_DEADLINE (R108): A waiting RECV's deadline passes with no message and it returns DEADLINE. -/
  | recvDeadline (c : Nat)
  /-- VTX (R476): Writes a word to the virtual terminal OUT register. -/
  | vtx (c : Nat) (rs1 : RegNo)
  /-- VRX (R476): Takes the word in the virtual terminal IN register. -/
  | vrx (c : Nat) (rd : RegNo)
  /-- LOCK_ACQUIRE (R159): An LCK_REQ acquire by a host agent or session requests a lock, reported in its LCK_RESULT. -/
  | lockAcquire (m : Master) (lock : Nat) (waitUs : Nat)
  /-- LOCK_RELEASE (R159): An LCK_REQ release by a host agent or session releases a lock. -/
  | lockRelease (m : Master) (lock : Nat)
  /-- LOCK_RELEASE_CLEAN (R159): An LCK_REQ release with CLEAN releases a lock and clears its broken state. -/
  | lockReleaseClean (m : Master) (lock : Nat)
  /-- RECIPE_LOAD (R146): A write to HRT_RCP_LOAD starts checking and loading a recipe image into a core. -/
  | recipeLoad (m : Master) (image : Nat) (target : Nat)
  /-- RECIPE_LOAD_DONE (R147): A recipe load finishes, releasing the core at its entry or leaving it held, and writes HRT_RCP_STATUS. -/
  | recipeLoadDone
  /-- SLOT_TIMER_EXPIRY (R150): A TIMER slot's interval expires and its Chip Time is delivered to the slot. -/
  | slotTimerExpiry (c : Nat) (slot : Nat)
  /-- TRIGGER_EVAL (R164): A trigger matrix evaluates an offered record and fires every matching entry in ascending order. -/
  | triggerEval (matrix : Nat)
  /-- XTRIG_IN_EDGE (R515): A rising edge of XTRIG_IN is recognised and offered to the Hearth matrix. -/
  | xtrigInEdge
  /-- XTRIG_OUT_PULSE_END (R515): An XTRIG_OUT pulse reaches its width and the pin is released. -/
  | xtrigOutPulseEnd
  /-- TRG_ARM (R166): A write of 1 to a matrix's TRG_ARM checks and applies that matrix's entries. -/
  | trgArm (m : Master) (matrix : Nat)
  /-- HGRP_ARM (R171): A write of 1 to HRT_HGRP_ARM applies halt-group membership and cross_halt after issued group commands finish. -/
  | hgrpArm (m : Master)
  /-- UNIT_HALT_ACK (R174): A unit answers a halt request, halting or reporting lock_held and deferring. -/
  | unitHaltAck (unit : Nat) (lockHeld : Bool) (sync : Nat)
  /-- LOCK_HELD_RELEASE (R182): A deferring unit's lock_held falls and it halts with cause LOCK_RELEASE. -/
  | lockHeldRelease (unit : Nat)
  /-- HALT_DEFERRAL_EXPIRY (R182): 10 µs of deferral pass with lock_held high and the spoke forces the unit to HALTED_HOLDING. -/
  | haltDeferralExpiry (unit : Nat)
  /-- UNIT_SELF_HALT (R181): A unit halts itself on a breakpoint or fault, entering HALTED or HALTED_HOLDING. -/
  | unitSelfHalt (unit : Nat) (fault : Bool) (code : Nat) (lockHeld : Bool) (sync : Nat)
  /-- UNIT_GATE (R179): The power controller gates a RUNNING unit that shows gate_ok. -/
  | unitGate (unit : Nat)
  /-- UNIT_UNGATE (R179): The power controller ungates a unit, which becomes RUNNING. -/
  | unitUngate (unit : Nat)
  /-- UNIT_PROBE (R180): A write of 1 to TNG_UNIT_CTL.probe re-reads the descriptor and sends one status handshake. -/
  | unitProbe (m : Master) (unit : Nat)
  /-- PROBE_ANSWER (R180): The unit answers a probe and takes the state it reports with cause PROBE. -/
  | probeAnswer (unit : Nat) (halted : Bool)
  /-- PROBE_TIMEOUT (R180): A probe goes 2 µs unanswered; the unit stays UNRESPONSIVE and timeouts increments. -/
  | probeTimeout (unit : Nat)
  /-- STEP_COUNT_REACHED (R185): A stepping unit completes its count of quanta and the spoke issues the halt that ends the step. -/
  | stepCountReached (x : Quanta)
  /-- STEP_LIMIT_EXPIRY (R186): A step's limit_us passes before its count, ending it with STEP_LIMIT and status DEADLINE. -/
  | stepLimitExpiry (unit : Nat) (quanta : Nat)
  /-- RC_CMD_HALT (R199): HRT_RC_CMD op HALT halts a unit or group for a host, session or core master. -/
  | rcCmdHalt (m : Master) (target : Nat) (group : Bool) (nowait : Bool)
  /-- RC_CMD_RUN (R199): HRT_RC_CMD op RUN resumes a unit or group. -/
  | rcCmdRun (m : Master) (target : Nat) (group : Bool)
  /-- RC_CMD_STEP (R199): HRT_RC_CMD op STEP steps a unit or group. -/
  | rcCmdStep (m : Master) (target : Nat) (group : Bool) (count : Nat)
  /-- UNIT_RESET_DONE (R174): A unit completes its reset and becomes RUNNING, or FENCED in a fenced partition. -/
  | unitResetDone (unit : Nat)
  /-- UNIT_RESET_TIMEOUT (R174): A unit reset is not complete after 100 µs and the unit becomes UNRESPONSIVE. -/
  | unitResetTimeout (unit : Nat)
  /-- QUENCH_PIN (R205): A falling edge of QUENCH_N held low 10 ns with pin_en set requests a quench of all dies. -/
  | quenchPin
  /-- QUENCH_PIN_RELEASE (R210): QUENCH_N returns high, so Reheat requests are no longer refused by the pin. -/
  | quenchPinRelease
  /-- QCH_CMD_QUENCH (R209): HRT_QCH_CMD op quench requests a quench of its die mask. -/
  | qchCmdQuench (m : Master) (mask : Nat)
  /-- QCH_CMD_REHEAT (R209): HRT_QCH_CMD op Reheat requests Reheat of its die mask. -/
  | qchCmdReheat (m : Master) (mask : Nat)
  /-- QUENCH_ASSERT (R204): The quench root asserts the branches of the requested dies at Q and writes a 0xE4 record. -/
  | quenchAssert
  /-- UNIT_QUENCH_ACK (R211): A unit acknowledges its quench hold; the stamp is its stop time and its resume state is set. -/
  | unitQuenchAck (unit : Nat) (lockHeld : Bool) (sync : Nat)
  /-- QUENCH_ACK_TIMEOUT (R213): A unit has not acknowledged 2 µs after Q; it is marked silent and noack_units increments. -/
  | quenchAckTimeout (unit : Nat) (lockHeld : Bool) (sync : Nat)
  /-- RAMP_NOTCH_STEP (R217): A Bellows channel moves one rail's clock divider by one notch on its paced schedule. -/
  | rampNotchStep (die : Nat)
  /-- BALLAST_CODE_STEP (R217): A Bellows channel moves one compute die's ballast by one 0.25 A code on its paced schedule. -/
  | ballastCodeStep (die : Nat)
  /-- SETTLE_END (R220): A down-ramp's settle ends; models adapt, the rate rule applies and BLW_LAST is written. -/
  | settleEnd (starts : List Nat) (lows : List Nat) (highs : List Nat)
  /-- BLW_ARM (R16): A write of 1 to BLW_CFG.arm checks and applies group BLW, clamping the current rate. -/
  | blwArm (m : Master)
  /-- LINK_BANKED (R224): A link controller confirms banking; PEER_HOLD is sent once the banked set is complete. -/
  | linkBanked (link : Nat)
  /-- BANK_TIMEOUT (R224): A link not banked 2 µs after its die's branch arrival is set FAILED. -/
  | bankTimeout (link : Nat)
  /-- PEER_WAKE_REQUEST (R222): A peer wake request on a LOW_POWER link of a quenched die is answered with a hold control flit. -/
  | peerWakeRequest (link : Nat)
  /-- KEEPALIVE_TIMER (R223): A banked link sends a keep-alive flit every keepalive_us. -/
  | keepaliveTimer (link : Nat)
  /-- BANKED_FLIT_RX (R223): A flit arriving on a banked link is buffered, or held off with hold control flits once full. -/
  | bankedFlitRx (link : Nat) (flit : Word)
  /-- LINK_HOLD_EXPIRY (R225): A banked link reaches its hold limit and is released DOWN with LINK_HOLD_EXPIRY and a host notice. -/
  | linkHoldExpiry (link : Nat)
  /-- BNK_ARM (R227): A write of 1 to BNK_CFG.arm applies group BNK, expiring links already past the new limit. -/
  | bnkArm (m : Master)
  /-- REHEAT_START (R233): An accepted Reheat begins RAMP_UP at the later of its acceptance and the end of the relevant settle. -/
  | reheatStart
  /-- REHEAT_DRAIN (R236): At the end of RAMP_UP each spoke applies, keeps or discards its queued pokes by resume state. -/
  | reheatDrain
  /-- REHEAT_RELEASE (R237): At V the root releases the dies; units take their resume states, ballast turns off and a 0xE7 record is written. -/
  | reheatRelease (volts : RailVolts)
  /-- PLAN_REGISTER (R251): A write to CRU_PLAN_n with valid set registers, checks and sizes a plan. -/
  | planRegister (m : Master) (n : Nat) (addr : Nat)
  /-- PLAN_CLEAR (R251): A write to CRU_PLAN_n with valid clear empties the entry and releases the plan's bytes. -/
  | planClear (m : Master) (n : Nat)
  /-- CAPTURE_START_REG (R252): A write to CRU_START starts a registered plan by number. -/
  | captureStartReg (m : Master) (n : Nat)
  /-- SIZING_DONE (R254): The planner finishes sizing a plan, applying the overflow policy or ending with NO_SPACE. -/
  | sizingDone (slot : Nat)
  /-- BLOCK_COMMIT (R259): A captured 4 KiB block or its slot is committed to the Crucible and its credit returns. -/
  | blockCommit (slot : Nat) (region : Nat) (block : Nat) (data : List Byte)
  /-- SCAN_READ_DONE (R261): A scan read completes and its sentinel is checked, with one retry on mismatch. -/
  | scanReadDone (slot : Nat) (scan : RegionScan) (sentinelOk : Bool)
  /-- SCAN_SILENCE (R261): A scan segment returns no edge for 2 µs and the access fails. -/
  | scanSilence (slot : Nat) (scan : RegionScan)
  /-- SRAM_PORT_SILENCE (R263): An SRAM read-out port is silent for 2 µs and the bank's unread blocks go to scan fallback or UNREADABLE. -/
  | sramPortSilence (die : Nat) (bank : Nat)
  /-- SRAM_UNCORRECTABLE (R528): A read-out port flags an uncorrectable error and the block is treated as if the port fell silent. -/
  | sramUncorrectable (slot : Nat) (region : Nat) (block : Nat)
  /-- SRAM_FALLBACK_DEADLINE (R263): The fallback deadline passes and unread blocks become UNREADABLE with reason DEADLINE. -/
  | sramFallbackDeadline (slot : Nat)
  /-- HOST_PATH_LOSS (R256): The host path stops being healthy and spill-backed reserves become unbacked. -/
  | hostPathLoss
  /-- CAPTURE_CLOSE (R270): A capture finishes its regions, settles overflow, seals indexes and manifest, and sets its final status. -/
  | captureClose (slot : Nat)
  /-- CAPTURE_CANCEL (R271): A write to CRU_CANCEL stops a capture at the next block boundary of each source. -/
  | captureCancel (m : Master) (handle : Nat)
  /-- CAPTURE_RELEASE (R272): A write to CRU_RELEASE frees a closed capture's extents once its exports end. -/
  | captureRelease (m : Master) (handle : Nat)
  /-- SWAGE_BLOCK (R310): A Swage engine codes or decodes one block and places it, suspending, failing or finishing the job as needed. -/
  | swageBlock (node : Nat) (slot : Nat)
  /-- SWG_CHAIN_APPEND (R311): A write to SWG_CHAIN appends a buffer descriptor and resumes a suspended job. -/
  | swgChainAppend (m : Master) (handle : Nat) (desc : Nat)
  /-- SWG_CANCEL (R314): A write to SWG_CANCEL stops a job at its next block boundary. -/
  | swgCancel (m : Master) (handle : Nat)
  /-- ARBITER_DECISION (R325): A spine output's arbiter grants the next burst by class, age stamp, rotation and hog cut. -/
  | arbiterDecision (node : Nat) (out : Nat) (arrivals : List Transfer) (noCredit : List Nat)
  /-- QUOTA_WINDOW_END (R330): A quota window ends and the output's urgent and allocation counts restart. -/
  | quotaWindowEnd (node : Nat) (out : Nat)
  /-- SPN_ARM (R335): A write of 1 to a node's SPN_ARM checks and applies that node's group SPN. -/
  | spnArm (m : Master) (node : Nat)
  /-- MAXWAIT_READ (R16): A read of SPN_MAXWAIT_r returns the longest wait and clears it. -/
  | maxwaitRead (m : Master) (node : Nat) (r : Nat)
  /-- CMD_DISPATCH_NOTICE (R341): A dispatch notice creates an in-flight entry with its budget, or waits for room. -/
  | cmdDispatchNotice (ctx : Nat) (seq : Nat) (cls : Nat) (queue : Nat) (engine : Nat)
  /-- CMD_COMPLETE_NOTICE (R348): A completion notice removes an entry and teaches the class estimator. -/
  | cmdCompleteNotice (ctx : Nat) (seq : Nat)
  /-- CMD_ABORT_NOTICE (R341): An abort notice removes an entry without teaching the estimator. -/
  | cmdAbortNotice (ctx : Nat) (seq : Nat)
  /-- WHEEL_TICK (R342): Each 1 µs a wheel increments the unheld counter of every context that was not held. -/
  | wheelTick (node : Nat)
  /-- COMMAND_EXPIRY (R346): An in-flight entry reaches its budget; the log is written and a 0xC4 record is issued. -/
  | commandExpiry (node : Nat) (ctx : Nat) (seq : Nat)
  /-- STEP_BEGIN (R381): A STEP_BEGIN mark sets the context IN_STEP. -/
  | stepBegin (ctx : Nat) (step : Nat)
  /-- UPDATE_BEGIN (R381): An UPDATE_BEGIN mark sets the context IN_UPDATE. -/
  | updateBegin (ctx : Nat) (step : Nat)
  /-- STEP_END (R381): A STEP_END mark sets the context IDLE. -/
  | stepEnd (ctx : Nat) (step : Nat)
  /-- HWT_ARM (R344): A write of 1 to HWT_ARM checks and applies group HWT, moving homes and budgets. -/
  | hwtArm (m : Master)
  /-- EST_SELECT (R349): A write to HWT_EST_SEL without reset selects an estimator for HWT_EST. -/
  | estSelect (m : Master) (ctx : Nat) (cls : Nat)
  /-- EST_RESET (R349): A write to HWT_EST_SEL with reset set zeroes the selected estimator. -/
  | estReset (m : Master) (ctx : Nat) (cls : Nat)
  /-- SYNC_SIGNAL_REPORT (R351): A signal report updates an object's value, producer and fence waits. -/
  | syncSignalReport (obj : Nat) (value : Nat) (chip : Bool) (src : Nat) (engine : Nat) (lost : Bool)
  /-- WAIT_BEGIN_REPORT (R351): A wait-begin report adds a waiter to an object. -/
  | waitBeginReport (obj : Nat) (value : Nat) (ctx : Nat) (unit : Nat) (engine : Nat) (lost : Bool)
  /-- WAIT_END_REPORT (R351): A wait-end report removes a waiter from an object. -/
  | waitEndReport (obj : Nat) (value : Nat) (ctx : Nat) (unit : Nat) (engine : Nat) (lost : Bool)
  /-- STALE_REREAD (R351): The engine re-reads a STALE object's value and waiters and clears the mark. -/
  | staleReread (obj : Nat) (value : Nat) (waiters : List (Nat × Nat × Nat))
  /-- WAIT_AGE_THRESHOLD (R355): A wait's age passes edge_after, orphan_after or silence_ms, changing edges or orphan state. -/
  | waitAgeThreshold (obj : Nat) (ctx : Nat) (unit : Nat)
  /-- WFG_ANALYSIS (R358): The wait-for engine analyses the graph and writes WFG_ROOT, WFG_ROOT_AUX and WFG_ROOT_TIME. -/
  | wfgAnalysis
  /-- WFG_ANALYZE (R358): WFG_CMD op ANALYZE starts an analysis. -/
  | wfgAnalyze (m : Master)
  /-- WFG_DUMP (R359): WFG_CMD op DUMP runs an analysis and writes the edge report to Hearth scratch. -/
  | wfgDump (m : Master) (addr : Nat) (capacity : Nat)
  /-- WFG_ARM (R426): A write of 1 to WFG_CFG.arm applies group WFG. -/
  | wfgArm (m : Master)
  /-- OBJ_READ (R352): WFG_OBJ_CMD op READ loads an object's state into the master's WFG_OBJ registers. -/
  | objRead (m : Master) (obj : Nat)
  /-- OBJ_DECLARE (R352): WFG_OBJ_CMD op DECLARE declares an object's kind and producer. -/
  | objDeclare (m : Master) (obj : Nat) (kind : Nat) (remote : Bool) (producer : Nat)
  /-- OBJ_FORGET (R352): WFG_OBJ_CMD op FORGET removes an object's declaration. -/
  | objForget (m : Master) (obj : Nat)
  /-- RCV_RECOVER (R363): RCV_CMD op RECOVER fences a partition and starts its full recovery. -/
  | rcvRecover (m : Master) (p : Nat) (reason : Nat)
  /-- RCV_FENCE_ONLY (R363): RCV_CMD op FENCE_ONLY fences and drains a partition and holds it. -/
  | rcvFenceOnly (m : Master) (p : Nat) (reason : Nat)
  /-- RCV_CONTINUE (R362): RCV_CMD op CONTINUE moves a HELD partition on to INCIDENT. -/
  | rcvContinue (m : Master) (p : Nat)
  /-- RCV_UNFENCE (R377): RCV_CMD op UNFENCE opens a HELD partition without reset or notice. -/
  | rcvUnfence (m : Master) (p : Nat)
  /-- RCV_UNIT_RESET (R383): RCV_CMD op UNIT_RESET resets one unit without fencing its partition. -/
  | rcvUnitReset (m : Master) (unit : Nat)
  /-- RCV_LINK_RETRAIN (R384): RCV_CMD op LINK_RETRAIN trains one DOWN or FAILED link. -/
  | rcvLinkRetrain (m : Master) (link : Nat)
  /-- RCV_RETIRE (R386): RCV_CMD op RETIRE escalates the chip with cause COMMANDED. -/
  | rcvRetire (m : Master)
  /-- DRAIN_END (R366): 50 µs of drain pass; outstanding requests are answered with errors and commands aborted. -/
  | drainEnd (p : Nat) (completed : Nat) (outstanding : List NewWork)
  /-- SELF_REFRESH_CONFIRM (R369): A stack confirms self-refresh; when both have, the lane moves on to RESET. -/
  | selfRefreshConfirm (stack : Nat)
  /-- HOLD_TIMEOUT (R370): A stack has not confirmed self-refresh 1 ms after HOLD began and dram_kept clears. -/
  | holdTimeout (p : Nat)
  /-- PARTITION_RESET_RELEASE (R371): 1 ms after assertion the partition reset is released. -/
  | partitionResetRelease (p : Nat)
  /-- PARTITION_RESET_CHECK (R372): At the end of the 100 µs unit reset window, UNRESPONSIVE units cause one repeat or escalation. -/
  | partitionResetCheck (p : Nat)
  /-- MEMORY_TRAIN_DONE (R373): A channel group's training ends, keeping its seed, retrying once or escalating. -/
  | memoryTrainDone (group : Nat) (ok : Bool) (record : List Byte)
  /-- LINK_TRAIN_DONE (R373): A link's training attempt ends, making it ACTIVE, banked, retried or FAILED. -/
  | linkTrainDone (link : Nat) (ok : Bool)
  /-- RESUME_DONE (R375): Self-refresh exit and pattern check finish and the lane proceeds to UNFENCE. -/
  | resumeDone (p : Nat) (okA : Bool) (okB : Bool)
  /-- PARTITION_LIMIT_EXPIRY (R376): RESET to RESUME exceeds partition_limit_s and the chip is escalated with RESET_TIMEOUT. -/
  | partitionLimitExpiry (p : Nat)
  /-- RCV_ARM (R426): A write of 1 to RCV_CFG.arm applies group RCV. -/
  | rcvArm (m : Master)
  /-- SAMPLE_BOUNDARY (R390): Each 1 µs the sensors add sample energy, units report activity and pending tag changes take effect. -/
  | sampleBoundary (samples : List Sample) (reports : List Activity)
  /-- INTERVAL_END (R401): Each 1 ms an anvil node splits each rail's energy among its rows and charges accumulators. -/
  | intervalEnd (node : Nat)
  /-- PMBUS_CHECK (R393): Each 1 ms the ledger reads the regulators, compares them with the sensors and updates gains and SUSPECT state. -/
  | pmbusCheck (readings : List PmbReading)
  /-- PMBUS_STRETCH_TIMEOUT (R513): A PMBus transaction stretched beyond 1 ms is abandoned. -/
  | pmbusStretchTimeout (entry : Nat)
  /-- PMB_ALERT (R513): PMB_ALERT_N falls and the host reads the SMBus Alert Response Address. -/
  | pmbAlert
  /-- EPOCH_CLOSE (R412): At each 1 s boundary the Hearth writes ACCOUNT, closed-tag and TOTAL records and closes the batch. -/
  | epochClose
  /-- BATCH_SIGNED (R417): The signing engine signs a PENDING batch and writes its BATCH entry. -/
  | batchSigned
  /-- CAL_WINDOW_END (R406): A calibration window ends and the Hearth starts the regularised fit. -/
  | calWindowEnd
  /-- CAL_SOLVE_DONE (R409): A fit completes and becomes the next coefficient version at the next epoch boundary. -/
  | calSolveDone
  /-- OVERHEAD_LIMIT (R405): A commanded overhead interval reaches 60 s and closes with OVH_LIMIT. -/
  | overheadLimit (die : Nat)
  /-- LDG_TAG_CMD (R399): A write to LDG_TAG_CMD schedules a context's tag change. -/
  | ldgTagCmd (m : Master) (ctx : Nat) (delay : Nat)
  /-- LDG_ACK_WRITE (R418): A write to LDG_ACK records the ring position the host driver has taken. -/
  | ldgAckWrite (m : Master) (apos : Word)
  /-- LDG_ARM (R426): A write of 1 to LDG_CFG.arm applies group LDG. -/
  | ldgArm (m : Master)
  /-- LDG_COEF_LOAD (R455): A write to LDG_COEF_LOAD loads a coefficient set for the next epoch. -/
  | ldgCoefLoad (m : Master) (addr : Nat) (seed : Bool)
  /-- ATTR_PEAK_READ (R16): A read of LDG_ATTR returns rows_peak and resets it. -/
  | attrPeakRead (m : Master) (node : Nat)
  /-- GROUP_TAKES_EFFECT (R428): A package-scope group's ARM takes effect everywhere at one Chip Time instant. -/
  | groupTakesEffect (g : CfgGroup)
  /-- TIM_XCHIP_ARM (R55): A write of 1 to TIM_XCHIP_CFG.arm applies the time role, parent link and interval. -/
  | timXchipArm (m : Master)
  /-- TXN_OPEN (R429): TXN_CMD op OPEN opens a transaction for a host agent or session. -/
  | txnOpen (m : Master)
  /-- TXN_COMMIT (R431): TXN_CMD op COMMIT starts the prepare of a transaction at TXN_AT. -/
  | txnCommit (m : Master) (id : Nat)
  /-- TXN_ABORT (R436): TXN_CMD op ABORT ends a transaction that may still be aborted. -/
  | txnAbort (m : Master) (id : Nat)
  /-- PREPARE_DONE (R434): Every owner has prepared the transaction, which becomes PREPARED, or a failure aborts it. -/
  | prepareDone (id : Nat)
  /-- COMMIT_INSTANT (R435): At C each owner applies the staged actions, or aborts a transaction whose prepare is late. -/
  | commitInstant (id : Nat)
  /-- TXN_ID_TIMEOUT (R429): 10 ms after a transaction reached DONE or ABORTED its ID is released. -/
  | txnIdTimeout (id : Nat)
  /-- HEARTBEAT_LOSS (R441): No supervisor heartbeat for heartbeat_us starts a takeover when enabled and a standby is ready. -/
  | heartbeatLoss
  /-- FAILOVER (R445): HRT_FO_CMD op FAILOVER starts a commanded takeover. -/
  | failover (m : Master)
  /-- RESTANDBY (R445): HRT_FO_CMD op RESTANDBY restarts the standby Hearth from the selected slot. -/
  | restandby (m : Master)
  /-- MIRROR_DRAIN_DONE (R442): The standby finishes draining the mirror queue and fixes the handover instant H. -/
  | mirrorDrainDone
  /-- HANDOVER_INSTANT (R442): At H the token, quench root, register map and cores switch to the new active Hearth. -/
  | handoverInstant
  /-- STANDBY_SYNC_DONE (R444): The restarted Hearth passes self-test and takes the mirror, so standby_ready returns to 1. -/
  | standbySyncDone
  /-- PEER_READY_TIMEOUT (R444): The old Hearth is not ready 1 s after H; it stays in reset and peer_failed is set. -/
  | peerReadyTimeout
  /-- UPD_ERASE (R446): HRT_UPD_CMD op ERASE erases sectors of a flash slot. -/
  | updErase (m : Master) (slot : Nat) (offset : Nat) (length : Nat)
  /-- UPD_WRITE (R446): HRT_UPD_CMD op WRITE programs pages of a flash slot. -/
  | updWrite (m : Master) (slot : Nat) (offset : Nat) (length : Nat)
  /-- UPD_VERIFY (R446): HRT_UPD_CMD op VERIFY checks a slot's image under the boot rules. -/
  | updVerify (m : Master) (slot : Nat)
  /-- UPD_ACTIVATE (R447): HRT_UPD_CMD op ACTIVATE writes a selection record for the next boot. -/
  | updActivate (m : Master) (slot : Nat)
  /-- UPD_OP_DONE (R446): A flash update operation completes and HRT_UPD_STATUS is written. -/
  | updOpDone
  /-- MAP_OUT (R450): CRU_MAPOUT op MAP_OUT starts mapping a Crucible bank group out. -/
  | mapOut (m : Master) (group : Nat)
  /-- MAPOUT_COPY_DONE (R450): The group's extents and shares are copied and indexes updated, completing the map-out. -/
  | mapoutCopyDone (unreadable : List (Nat × Nat × Nat)) (lost : List Nat)
  /-- MAP_IN (R452): CRU_MAPOUT op MAP_IN tests a mapped-out bank group. -/
  | mapIn (m : Master) (group : Nat)
  /-- MAP_IN_TEST_DONE (R452): The map-in pattern test ends, returning the group to slot space or leaving it out. -/
  | mapInTestDone (ok : Bool)
  /-- TIM_RECAL (R453): A write to TIM_RECAL starts measuring spoke round trips. -/
  | timRecal (m : Master) (spoke : Nat) (all : Bool)
  /-- RECAL_MEASURE_DONE (R453): A round-trip measurement completes, writing measured and starting the trim slew. -/
  | recalMeasureDone (spoke : Nat) (half : Int)
  /-- DBG_ATTACH (R460): A write of 1 to STK_DBG_CTL.attach makes the writer the core's debug owner. -/
  | dbgAttach (m : Master) (c : Nat)
  /-- DBG_DETACH (R460): A write of 0 to attach, or loss of the owner, detaches it and resumes a halted core. -/
  | dbgDetach (m : Master) (c : Nat)
  /-- DBG_HALT (R462): A write of 1 to STK_DBG_CTL.halt stops the core at its next instruction boundary. -/
  | dbgHalt (m : Master) (c : Nat)
  /-- DBG_RESUME (R467): A write of 1 to STK_DBG_CTL.resume releases a HALTED core. -/
  | dbgResume (m : Master) (c : Nat)
  /-- DBG_STEP (R467): A write of 1 to STK_DBG_CTL.step runs the core for step_count instructions. -/
  | dbgStep (m : Master) (c : Nat) (count : Nat)
  /-- BREAKPOINT_HIT (R464): An instruction fetched from an enabled breakpoint address halts the core before it executes. -/
  | breakpointHit (c : Nat)
  /-- DBG_LDATA_ACCESS (R471): An access to STK_DBG_LDATA reads or writes one local word and may advance the address. -/
  | dbgLdataAccess (m : Master) (c : Nat) (write : Option Word)
  /-- VT_IN_WRITE (R476): A write to STK_VT_IN delivers a word to the core and sets in_full. -/
  | vtInWrite (m : Master) (c : Nat) (w : Word)
  /-- VT_OUT_RELEASE (R476): A write of 1 to STK_VT_STAT.out_full releases the OUT word. -/
  | vtOutRelease (m : Master) (c : Nat)
  /-- TRST (R457): TRST_N asserts, resetting the debug domain and detaching every core. -/
  | trst
  /-- PAT_ARM (R473): A write of 1 to PAT_ARM checks and applies the patch units. -/
  | patArm (m : Master)
  /-- GET_VERSION (R484): SPDM GET_VERSION is answered. -/
  | getVersion (ch : Chan)
  /-- GET_CAPABILITIES (R484): SPDM GET_CAPABILITIES is answered. -/
  | getCapabilities (ch : Chan)
  /-- NEGOTIATE_ALGORITHMS (R483): SPDM NEGOTIATE_ALGORITHMS selects the single supported suite or returns InvalidRequest. -/
  | negotiateAlgorithms (ch : Chan) (offer : AlgOffer)
  /-- GET_DIGESTS (R485): SPDM GET_DIGESTS returns the digests of certificate slots 0 and 1. -/
  | getDigests (ch : Chan)
  /-- GET_CERTIFICATE (R485): SPDM GET_CERTIFICATE returns a certificate chain from slot 0 or 1. -/
  | getCertificate (ch : Chan) (slot : Nat)
  /-- CHALLENGE (R484): SPDM CHALLENGE is answered with slot 0. -/
  | challenge (ch : Chan) (slot : Nat)
  /-- GET_MEASUREMENTS (R486): SPDM GET_MEASUREMENTS returns signed measurement indices 1-5. -/
  | getMeasurements (ch : Chan) (index : Nat)
  /-- KEY_EXCHANGE (R487): SPDM KEY_EXCHANGE starts a mutually authenticated session or reports SessionLimitExceeded. -/
  | keyExchange (ch : Chan) (sessionId : Nat)
  /-- FINISH (R479): SPDM FINISH completes a session at level 0. -/
  | finish (ch : Chan) (ok : Bool)
  /-- GET_ENCAPSULATED_REQUEST (R484): SPDM GET_ENCAPSULATED_REQUEST carries the hub's request for the requester's chain. -/
  | getEncapsulatedRequest (ch : Chan)
  /-- DELIVER_ENCAPSULATED_RESPONSE (R479): SPDM DELIVER_ENCAPSULATED_RESPONSE delivers the requester's chain for checking against the anchors. -/
  | deliverEncapsulatedResponse (ch : Chan) (rootDigest : List Byte) (chainOk : Bool)
  /-- HEARTBEAT (R487): SPDM HEARTBEAT keeps a session alive. -/
  | heartbeat (s : Nat)
  /-- KEY_UPDATE (R484): SPDM KEY_UPDATE updates a session's keys. -/
  | keyUpdate (s : Nat)
  /-- END_SESSION (R481): SPDM END_SESSION ends a session and drops its master to level 0 with all its holdings. -/
  | endSession (s : Nat)
  /-- SPDM_UNSUPPORTED_REQUEST (R484): Any other SPDM request is answered with ERROR UnsupportedRequest. -/
  | spdmUnsupportedRequest (ch : Chan) (code : Nat)
  /-- SESSION_TIMEOUT (R487): A session sees no valid secured message for 10 s and ends. -/
  | sessionTimeout (s : Nat)
  /-- VYN_LINK_TRAINED (R488): The Vynuond PHY finishes training on two lanes or one. -/
  | vynLinkTrained (lanes : Nat)
  /-- HELLO (R493): A HELLO frame is answered with HELLO_ACK selecting version and payload. -/
  | hello (hdr : VynHdr) (versions : Nat) (payloadMax : Nat) (credits : VynCredits)
  /-- CREDIT (R490): A CREDIT frame returns credits per class. -/
  | credit (hdr : VynHdr) (credits : VynCredits)
  /-- NAK (R491): A NAK frame makes the hub replay from the expected sequence. -/
  | nak (hdr : VynHdr) (expected : Nat)
  /-- SPDM_FRAME (R494): An SPDM frame carries part of an SPDM message, reassembled with MORE. -/
  | spdmFrame (hdr : VynHdr) (payload : List Byte)
  /-- SECURED_FRAME (R494): A SECURED frame carries one secured message holding an inner frame. -/
  | securedFrame (hdr : VynHdr) (session : Nat) (macOk : Bool)
  /-- REPLAY_TIMEOUT (R491): A frame unacknowledged for 100 µs is replayed, and 8 replays retrain the port. -/
  | replayTimeout (seq : Nat)
  /-- AUT_REQ (R479): An AUT_REQ inner frame requests an authorisation level and notice subscription. -/
  | autReq (s : Nat) (tag : Nat) (level : Nat) (notices : Bool)
  /-- READ (R496): A READ inner frame reads consecutive elements through the debug access master. -/
  | vynRead (s : Nat) (tag : Nat) (width : Nat) (addr : Nat) (length : Nat)
  /-- WRITE (R496): A WRITE inner frame writes consecutive elements through the debug access master. -/
  | vynWrite (s : Nat) (tag : Nat) (width : Nat) (addr : Nat) (data : List Byte)
  /-- EXPORT_OPEN (R498): An EXPORT_OPEN inner frame opens an export instance of a held capture. -/
  | exportOpen (s : Nat) (tag : Nat) (handle : Nat) (recipient : Nat) (flags : Nat)
  /-- EXPORT_SIZING_DONE (R498): An export open completes its key wrap and sizing pass and returns the image size. -/
  | exportSizingDone (id : Nat)
  /-- EXPORT_READ (R501): An EXPORT_READ inner frame requests a byte range of the image. -/
  | exportRead (s : Nat) (tag : Nat) (id : Nat) (offset : Nat) (length : Nat)
  /-- EXPORT_DATA_FRAME (R501): An export engine sends the next EXPORT_DATA frame when it holds a STREAM credit. -/
  | exportDataFrame (id : Nat)
  /-- EXPORT_END (R502): An EXPORT_END inner frame ends an export instance. -/
  | exportEnd (s : Nat) (tag : Nat) (id : Nat)
  /-- INNER_UNKNOWN (R495): An inner frame with an unknown opcode is answered with opcode 0xFF and status RESERVED. -/
  | innerUnknown (s : Nat) (tag : Nat) (opcode : Nat)
  /-- HOST_EXPORT (R503): A write to HRT_EXP_CMD exports a capture's image into host memory. -/
  | hostExport (m : Master) (handle : Nat) (recipient : Nat) (recode : Bool) (verify : Bool) (limitMib : Nat)
  /-- HOST_EXPORT_DONE (R503): A host export completes or ends and sends EXPORT_DONE. -/
  | hostExportDone (id : Nat)
  /-- RCPT_REGISTER (R504): AUT_RCPT_CMD op REGISTER registers a recipient public key. -/
  | rcptRegister (m : Master) (slot : Nat) (addr : Nat)
  /-- RCPT_CLEAR (R504): AUT_RCPT_CMD op CLEAR empties a recipient slot. -/
  | rcptClear (m : Master) (slot : Nat)
  /-- RCPT_LOCK (R504): AUT_RCPT_CMD op LOCK fixes a recipient slot until warm reset. -/
  | rcptLock (m : Master) (slot : Nat)
  /-- SET_ENDPOINT_ID (R506): MCTP Set Endpoint ID is answered. -/
  | setEndpointId (tr : McTransport) (eid : Nat)
  /-- GET_ENDPOINT_ID (R506): MCTP Get Endpoint ID is answered. -/
  | getEndpointId (tr : McTransport)
  /-- GET_ENDPOINT_UUID (R506): MCTP Get Endpoint UUID is answered. -/
  | getEndpointUuid (tr : McTransport)
  /-- GET_MCTP_VERSION_SUPPORT (R506): MCTP Get MCTP Version Support is answered. -/
  | getMctpVersionSupport (tr : McTransport)
  /-- GET_MESSAGE_TYPE_SUPPORT (R506): MCTP Get Message Type Support is answered. -/
  | getMessageTypeSupport (tr : McTransport)
  /-- GET_VENDOR_DEFINED_MESSAGE_SUPPORT (R506): MCTP Get Vendor Defined Message Support is answered. -/
  | getVendorDefinedMessageSupport (tr : McTransport)
  /-- PREPARE_FOR_ENDPOINT_DISCOVERY (R506): MCTP Prepare for Endpoint Discovery is answered on PCIe VDM. -/
  | prepareForEndpointDiscovery
  /-- ENDPOINT_DISCOVERY (R506): MCTP Endpoint Discovery is answered on PCIe VDM. -/
  | endpointDiscovery
  /-- MCTP_UNSUPPORTED_CMD (R506): Any other MCTP control command is answered with ERROR_UNSUPPORTED_CMD. -/
  | mctpUnsupportedCmd (tr : McTransport) (cmd : Nat)
  /-- MCTP_DISCARD (R506): An MCTP message of an unsupported type is discarded. -/
  | mctpDiscard (tr : McTransport) (ty : Nat)
  /-- ENTDAA (R505): The I3C ENTDAA CCC assigns the hub's dynamic address. -/
  | entdaa (addr : Nat)
  /-- RSTDAA (R505): The I3C RSTDAA CCC resets the dynamic address. -/
  | rstdaa
  /-- ENEC (R505): The I3C ENEC CCC enables events. -/
  | enec (events : Byte)
  /-- DISEC (R505): The I3C DISEC CCC disables events. -/
  | disec (events : Byte)
  /-- GETPID (R505): The I3C GETPID CCC is answered. -/
  | getpid
  /-- GETBCR (R505): The I3C GETBCR CCC is answered. -/
  | getbcr
  /-- GETDCR (R505): The I3C GETDCR CCC is answered. -/
  | getdcr
  /-- GETSTATUS (R505): The I3C GETSTATUS CCC is answered. -/
  | getstatus
  /-- GETMRL (R505): The I3C GETMRL CCC is answered. -/
  | getmrl
  /-- SETMRL (R505): The I3C SETMRL CCC sets the maximum read length. -/
  | setmrl (n : Nat)
  /-- GETMWL (R505): The I3C GETMWL CCC is answered. -/
  | getmwl
  /-- SETMWL (R505): The I3C SETMWL CCC sets the maximum write length. -/
  | setmwl (n : Nat)
  /-- REQ_DOORBELL (R509): A write to a mailbox channel's REQ_DOORBELL submits a secured request. -/
  | reqDoorbell (chan : Nat) (length : Nat)
  /-- RSP_READY_RELEASE (R509): A write of 1 to RSP_STATUS.ready releases the channel's response area. -/
  | rspReadyRelease (chan : Nat)
  /-- WARM_RESET_REQUEST_REPEAT (R508): Every 100 ms until the warm reset, WARM_RESET_REQUEST is sent again to the BMC. -/
  | warmResetRequestRepeat
  /-- JTAG_IDCODE (R510): TAP instruction IDCODE selects the JTAG IDCODE register. -/
  | jtagIdcode
  /-- JTAG_IJTAG (R511): TAP instruction IJTAG selects the IEEE 1687 network. -/
  | jtagIjtag
  /-- JTAG_MBOX (R512): TAP instruction MBOX selects the mailbox register that carries Vynuond frames. -/
  | jtagMbox (word : BitVec 32)
  /-- JTAG_BYPASS (R510): TAP instruction BYPASS, or any other code, selects bypass. -/
  | jtagBypass (code : Byte)
  /-- SIB_OPEN (R511): An IJTAG segment SIB is opened, subject to level 3 and to capture use. -/
  | sibOpen (s : Nat) (die : Nat) (seg : Nat)
  /-- ALERT_CLEAR (R516): A W1C write to HRT_ALERT.cause clears causes, which set again while they hold. -/
  | alertClear (m : Master) (bits : Byte)
  /-- REGISTER_WRITE (R16): A write to a register that has no row of its own acts by its access code. -/
  | registerWrite (m : Master) (addr : Nat) (width : Nat) (value : Word)
  /-- COLD_RESET (R540): HUB_POR_N or HUB_PWRGD falls and every hub part and the D3 return to reset. -/
  | coldReset
  /-- POR_RELEASE (R544): HUB_POR_N is released with HUB_PWRGD high and start-up begins. -/
  | porRelease
  /-- SELF_TEST_DONE (R547): The Hearth self-tests finish and the active Hearth is chosen. -/
  | selfTestDone (okA : Bool) (okB : Bool)
  /-- SPINE_STAGE_DONE (R545): Spine training and Swage self-tests finish. -/
  | spineStageDone (swageBad : Byte)
  /-- CRUCIBLE_STAGE_DONE (R545): Bank group tests finish, failing groups are mapped out and shares and segments are placed. -/
  | crucibleStageDone (badGroups : Word)
  /-- TRIMS_STAGE_DONE (R51): Every spoke trim is measured and trims_calibrated is set. -/
  | trimsStageDone (trips : List Nat)
  /-- FLASH_STAGE_DONE (R553): Image verification finishes, selecting a slot, falling back, or staying in BOOT. -/
  | flashStageDone (sfdpOk : Bool)
  /-- LOAD_STAGE_DONE (R554): The boot recipes and seeds are loaded and the chip reset sequence starts. -/
  | loadStageDone
  /-- WARM_RESET_REPORT (R542): The D3 reset controller reports a chip warm reset and the hub prepares and starts the WARM sequence. -/
  | warmResetReport
  /-- COMPUTE_DIE_RELEASE (R555): 1 ms after the base dies the compute dies are released from reset. -/
  | computeDieRelease (faults : List (Nat × Nat)) (late : List Nat)
  /-- CHIP_RESET_COMPLETE (R555): Memory training and step 5 have ended; HRT_BOOT_TIME is written and BOOT or RETIRED is left. -/
  | chipResetComplete
  /-- CHIP_RESET_TIMEOUT (R556): The chip reset sequence is not complete after 20 s and the chip escalates with RESET_TIMEOUT. -/
  | chipResetTimeout
  /-- HEARTH_RESTART (R541): HRT_RESET_CMD op HEARTH_RESTART restarts the active Hearth as a failover or into BOOT. -/
  | hearthRestart (m : Master)
  /-- REBOOT (R553): HRT_RESET_CMD op REBOOT restarts start-up at stage FLASH. -/
  | reboot (m : Master)
  /-- EMBER_ENTER (R560): HRT_EMBER_CMD op ENTER stops trace, powers down unused domains and slows the cores. -/
  | emberEnter (m : Master)
  /-- EMBER_EXIT (R562): HRT_EMBER_CMD op EXIT, or an action that needs a powered-off part, starts the exit from Ember. -/
  | emberExit (m : Master)
  /-- EMBER_EXIT_DONE (R562): The exit finishes powering domains and the waiting actions are carried out. -/
  | emberExitDone
  /-- POWER_DOMAIN_FAULT (R559): A supply monitor fault isolates its domain within 1 µs with effects by domain kind. -/
  | powerDomainFault (d : Nat)
  /-- HALT_BOUND_NS_EXPIRY (R119): A unit targeted by a HALT with NOWAIT goes without an answer for its declared halt_bound_ns, so the command may return with PENDING for units still HALT_PENDING. -/
  | haltBoundNsExpiry (unit : Nat)
  /-- LINK_RETURNED (R228): A banked link's controller finishes delivering its buffered flits and returns to ACTIVE or LOW_POWER, and PEER_RELEASE is sent when the last banked link has returned. -/
  | linkReturned (link : Nat)
  /-- EMBER_ENTRY_DONE (R560): The Ember entry actions finish within 20 µs and HRT_EMBER_STATUS.phase moves from ENTERING to IN. -/
  | emberEntryDone
  /-- FABRIC_LINK_STATE_CHANGE (R222): A fabric link changes state on its own under the link protocol (goes DOWN or FAILED, enters or leaves LOW_POWER), updating BNK_LINK_k.state and writing a class 0xC6 record. -/
  | fabricLinkStateChange (link : Nat) (state : Nat)
  /-- VYN_LINK_DOWN (R488): The Vynuond PHY loses its link, so VYN_STATUS.link_state becomes DOWN and Ember may switch the PHY off. -/
  | vynLinkDown
  /-- FENCED_NEW_REQUEST (R365): New work arrives at a fenced partition boundary (dispatch, memory request, fabric packet or PCIe request), is answered with the FENCED error, and is counted in ANV_RCV_COUNT.refused_new. -/
  | fencedNewRequest (p : Nat) (kind : NewWork)
  deriving DecidableEq, Repr

end Sys2Proof
end

