-- ==== Sys2Proof/Decode.lean ====
section
/-! DEFINITION. The words of Striker instructions (R101 to R106), which a core fetches from its local memory (R94): the
decoder, an encoder, and the host's table decoder, which spells no command, since the opcode table gives its rows no
bits. -/

namespace Sys2Proof

open Sys2Proof.Machine (bits b2n bitAt)

/-- The command that a word spells by the bits of spec/opcode_table.json: its rows give none. -/
def decodeTableWord (_nbits _w : Nat) : Option Instr := none

/-! ### The decoder (R101, R102) -/

/-- The register named by the field at bit `lo`. -/
def regField (w lo : Nat) : RegNo := BitVec.ofNat 5 (bits w lo 5)
/-- The 16-bit immediate or offset. -/
def immField (w : Nat) : Imm16 := BitVec.ofNat 16 (bits w 0 16)

/-- A field that an instruction does not use must be zero (R102). -/
def need (ok : Bool) (i : Instr) : Option Instr := if ok then some i else none

/-- Major opcode 0x01: the register arithmetic of R105, by fn. -/
def decodeAlu (c w : Nat) : Option Instr :=
  let rd := regField w 21
  let a := regField w 16
  let b := regField w 11
  match bits w 0 11 with
  | 0x000 => some (.add c rd a b)
  | 0x001 => some (.sub c rd a b)
  | 0x002 => some (.and c rd a b)
  | 0x003 => some (.or c rd a b)
  | 0x004 => some (.xor c rd a b)
  | 0x005 => some (.shl c rd a b)
  | 0x006 => some (.shr c rd a b)
  | 0x007 => some (.sar c rd a b)
  | 0x008 => some (.mul c rd a b)
  | 0x009 => some (.mulh c rd a b)
  | 0x00A => some (.min c rd a b)
  | 0x00B => some (.max c rd a b)
  | 0x00C => some (.slt c rd a b)
  | 0x00D => some (.sltu c rd a b)
  | _ => none

/-- Major opcode 0x3D: LGR, by fn (R106). -/
def decodeLgr (c w : Nat) : Option Instr :=
  let rd := regField w 21
  let a := regField w 16
  let b0 := bits w 11 5 == 0
  match bits w 0 11 with
  | 0x000 => need b0 (.lgrRead c rd a)
  | 0x001 => need (b0 && rd == 0) (.lgrOverheadOpen c a)
  | 0x002 => need (b0 && rd == 0) (.lgrOverheadClose c a)
  | 0x003 => need (b0 && a == 0) (.lgrSeal c rd)
  | _ => none

/-- Major opcode 0x3F, by fn (R105, R106). -/
def decodeMisc (c w : Nat) : Option Instr :=
  let rd := regField w 21
  let a := regField w 16
  let b := regField w 11
  match bits w 0 11 with
  | 0x000 => need (a == 0 && b == 0) (.fence c rd)
  | 0x001 => need (rd == 0 && a == 0 && b == 0) (.breakInstr c)
  | 0x002 => need (rd == 0) (.send c a b)
  | 0x003 => need (b == 0) (.recv c rd a)
  | 0x004 => need (rd == 0 && b == 0) (.vtx c a)
  | 0x005 => need (a == 0 && b == 0) (.vrx c rd)
  | _ => none

/-- The instruction that the word `w` encodes for core `c`; none where it is an illegal encoding (R102). -/
def decodeStriker (c w : Nat) : Option Instr :=
  let rd := regField w 21
  let a := regField w 16
  let b := regField w 11
  let imm := immField w
  let fn := bits w 0 11
  let off := BitVec.ofNat 13 (bits w 3 13)
  let flags := bits w 0 3
  let fn0 := fn == 0
  match bits w 26 6 with
  | 0x01 => decodeAlu c w
  | 0x02 => some (.addi c rd a imm)
  | 0x03 => some (.andi c rd a imm)
  | 0x04 => some (.ori c rd a imm)
  | 0x05 => some (.xori c rd a imm)
  | 0x06 => need (bits w 6 10 == 0) (.shli c rd a (BitVec.ofNat 6 (bits w 0 6)))
  | 0x07 => need (bits w 6 10 == 0) (.shri c rd a (BitVec.ofNat 6 (bits w 0 6)))
  | 0x08 => need (bits w 19 2 != 3) (.lui c rd (BitVec.ofNat 2 (bits w 19 2)) (BitVec.ofNat 19 (bits w 0 19)))
  | 0x0A => some (.ld c rd a imm)
  | 0x0B => some (.lw c rd a imm)
  | 0x0C => some (.lwu c rd a imm)
  | 0x0D => some (.lh c rd a imm)
  | 0x0E => some (.lhu c rd a imm)
  | 0x0F => some (.lb c rd a imm)
  | 0x10 => some (.lbu c rd a imm)
  | 0x11 => some (.st c rd a imm)
  | 0x12 => some (.sw c rd a imm)
  | 0x13 => some (.sh c rd a imm)
  | 0x14 => some (.sb c rd a imm)
  | 0x16 => some (.beq c rd a imm)
  | 0x17 => some (.bne c rd a imm)
  | 0x18 => some (.blt c rd a imm)
  | 0x19 => some (.bge c rd a imm)
  | 0x1A => some (.bltu c rd a imm)
  | 0x1B => some (.bgeu c rd a imm)
  | 0x1C => some (.jal c rd (BitVec.ofNat 21 (bits w 0 21)))
  | 0x1D => some (.jalr c rd a imm)
  | 0x20 => some (.hld c rd a imm)
  | 0x21 => some (.hst c rd a imm)
  | 0x24 => need (flags == 0) (.peek c rd a off)
  | 0x25 => need (flags == 0) (.qpeek c rd a off)
  | 0x26 => need (!bitAt w 2) (.poke c rd a off (bitAt w 0) (bitAt w 1))
  | 0x27 => need (!bitAt w 2 && !bitAt w 0) (.pokep c rd a off (bitAt w 1))
  | 0x28 => need (b == 0 && decide (fn < 4)) (.halt c rd a (bitAt w 0) (bitAt w 1))
  | 0x29 => need (b == 0 && decide (fn < 4)) (.run c rd a (bitAt w 0) (bitAt w 1))
  | 0x2A => need (decide (fn < 2)) (.step c rd a b (bitAt w 0))
  | 0x2B => need (b == 0 && fn0) (.quench c rd a)
  | 0x2C => need (b == 0 && fn0) (.reheat c rd a)
  | 0x30 => need fn0 (.waitev c rd a b)
  | 0x31 => need (rd == 0 && fn0) (.arm c a b)
  | 0x32 => need (rd == 0 && b == 0 && fn0) (.disarm c a)
  | 0x33 => need (rd == 0 && fn0) (.fire c a b)
  | 0x34 => need (b == 0 && fn0) (.evpop c rd a)
  | 0x35 => need (a == 0 && b == 0 && fn0) (.tnow c rd)
  | 0x36 => need (rd == 0 && b == 0 && fn0) (.twait c a)
  | 0x38 => need (b == 0 && fn0) (.capt c rd a)
  | 0x39 => need fn0 (.cwait c rd a b)
  | 0x3A => need (b == 0 && fn0) (.swg c rd a)
  | 0x3B =>
    match fn with
    | 0x000 => need (a == 0 && b == 0) (.txb c rd)
    | 0x001 => some (.txc c rd a b)
    | 0x002 => need (rd == 0 && b == 0) (.txa c a)
    | _ => none
  | 0x3C =>
    match fn with
    | 0x000 => some (.lck c rd a b)
    | 0x001 => need (rd == 0) (.ulk c a b)
    | _ => none
  | 0x3D => decodeLgr c w
  | 0x3E =>
    if bits w 12 3 != 0 then none
    else if bitAt w 15 then need (rd == 0) (.sprw c (BitVec.ofNat 12 (bits w 0 12)) a)
    else need (a == 0) (.sprr c rd (BitVec.ofNat 12 (bits w 0 12)))
  | 0x3F => decodeMisc c w
  | _ => none

/-! ### The encoder (R101) -/

/-- Format R. -/
def encR (op : Nat) (rd a b : RegNo) (fn : Nat) : Nat :=
  op * 2 ^ 26 + rd.toNat * 2 ^ 21 + a.toNat * 2 ^ 16 + b.toNat * 2 ^ 11 + fn
/-- Formats I, S and B. -/
def encI (op : Nat) (x y : RegNo) (imm : Nat) : Nat := op * 2 ^ 26 + x.toNat * 2 ^ 21 + y.toNat * 2 ^ 16 + imm
/-- Format A. -/
def encA (op : Nat) (x a : RegNo) (off : BitVec 13) (flags : Nat) : Nat :=
  op * 2 ^ 26 + x.toNat * 2 ^ 21 + a.toNat * 2 ^ 16 + off.toNat * 2 ^ 3 + flags

/-- The word of a Striker instruction, with the core that runs it; none for every other command. A shift amount of six
bits and `hw` 0 to 2 are what the encoding admits. -/
def encodeStriker (i : Instr) : Option (Nat × Nat) :=
  match i with
  | .add c rd a b => some (c, encR 0x01 rd a b 0x000)
  | .sub c rd a b => some (c, encR 0x01 rd a b 0x001)
  | .and c rd a b => some (c, encR 0x01 rd a b 0x002)
  | .or c rd a b => some (c, encR 0x01 rd a b 0x003)
  | .xor c rd a b => some (c, encR 0x01 rd a b 0x004)
  | .shl c rd a b => some (c, encR 0x01 rd a b 0x005)
  | .shr c rd a b => some (c, encR 0x01 rd a b 0x006)
  | .sar c rd a b => some (c, encR 0x01 rd a b 0x007)
  | .mul c rd a b => some (c, encR 0x01 rd a b 0x008)
  | .mulh c rd a b => some (c, encR 0x01 rd a b 0x009)
  | .min c rd a b => some (c, encR 0x01 rd a b 0x00A)
  | .max c rd a b => some (c, encR 0x01 rd a b 0x00B)
  | .slt c rd a b => some (c, encR 0x01 rd a b 0x00C)
  | .sltu c rd a b => some (c, encR 0x01 rd a b 0x00D)
  | .addi c rd a imm => some (c, encI 0x02 rd a imm.toNat)
  | .andi c rd a imm => some (c, encI 0x03 rd a imm.toNat)
  | .ori c rd a imm => some (c, encI 0x04 rd a imm.toNat)
  | .xori c rd a imm => some (c, encI 0x05 rd a imm.toNat)
  | .shli c rd a sh => some (c, encI 0x06 rd a sh.toNat)
  | .shri c rd a sh => some (c, encI 0x07 rd a sh.toNat)
  | .lui c rd hw imm => if hw = 3 then none else some (c, encI 0x08 rd 0 (hw.toNat * 2 ^ 19 + imm.toNat))
  | .ld c rd a imm => some (c, encI 0x0A rd a imm.toNat)
  | .lw c rd a imm => some (c, encI 0x0B rd a imm.toNat)
  | .lwu c rd a imm => some (c, encI 0x0C rd a imm.toNat)
  | .lh c rd a imm => some (c, encI 0x0D rd a imm.toNat)
  | .lhu c rd a imm => some (c, encI 0x0E rd a imm.toNat)
  | .lb c rd a imm => some (c, encI 0x0F rd a imm.toNat)
  | .lbu c rd a imm => some (c, encI 0x10 rd a imm.toNat)
  | .st c b a imm => some (c, encI 0x11 b a imm.toNat)
  | .sw c b a imm => some (c, encI 0x12 b a imm.toNat)
  | .sh c b a imm => some (c, encI 0x13 b a imm.toNat)
  | .sb c b a imm => some (c, encI 0x14 b a imm.toNat)
  | .beq c a b off => some (c, encI 0x16 a b off.toNat)
  | .bne c a b off => some (c, encI 0x17 a b off.toNat)
  | .blt c a b off => some (c, encI 0x18 a b off.toNat)
  | .bge c a b off => some (c, encI 0x19 a b off.toNat)
  | .bltu c a b off => some (c, encI 0x1A a b off.toNat)
  | .bgeu c a b off => some (c, encI 0x1B a b off.toNat)
  | .jal c rd off => some (c, encI 0x1C rd 0 off.toNat)
  | .jalr c rd a imm => some (c, encI 0x1D rd a imm.toNat)
  | .hld c rd a imm => some (c, encI 0x20 rd a imm.toNat)
  | .hst c b a imm => some (c, encI 0x21 b a imm.toNat)
  | .peek c rd a off => some (c, encA 0x24 rd a off 0)
  | .qpeek c rd a off => some (c, encA 0x25 rd a off 0)
  | .poke c b a off force group => some (c, encA 0x26 b a off (b2n force + 2 * b2n group))
  | .pokep c b a off group => some (c, encA 0x27 b a off (2 * b2n group))
  | .halt c rd a group nowait => some (c, encR 0x28 rd a 0 (b2n group + 2 * b2n nowait))
  | .run c rd a group nowait => some (c, encR 0x29 rd a 0 (b2n group + 2 * b2n nowait))
  | .step c rd a b group => some (c, encR 0x2A rd a b (b2n group))
  | .quench c rd a => some (c, encR 0x2B rd a 0 0)
  | .reheat c rd a => some (c, encR 0x2C rd a 0 0)
  | .waitev c rd a b => some (c, encR 0x30 rd a b 0)
  | .arm c a b => some (c, encR 0x31 0 a b 0)
  | .disarm c a => some (c, encR 0x32 0 a 0 0)
  | .fire c a b => some (c, encR 0x33 0 a b 0)
  | .evpop c rd a => some (c, encR 0x34 rd a 0 0)
  | .tnow c rd => some (c, encR 0x35 rd 0 0 0)
  | .twait c a => some (c, encR 0x36 0 a 0 0)
  | .capt c rd a => some (c, encR 0x38 rd a 0 0)
  | .cwait c rd a b => some (c, encR 0x39 rd a b 0)
  | .swg c rd a => some (c, encR 0x3A rd a 0 0)
  | .txb c rd => some (c, encR 0x3B rd 0 0 0x000)
  | .txc c rd a b => some (c, encR 0x3B rd a b 0x001)
  | .txa c a => some (c, encR 0x3B 0 a 0 0x002)
  | .lck c rd a b => some (c, encR 0x3C rd a b 0x000)
  | .ulk c a b => some (c, encR 0x3C 0 a b 0x001)
  | .lgrRead c rd a => some (c, encR 0x3D rd a 0 0x000)
  | .lgrOverheadOpen c a => some (c, encR 0x3D 0 a 0 0x001)
  | .lgrOverheadClose c a => some (c, encR 0x3D 0 a 0 0x002)
  | .lgrSeal c rd => some (c, encR 0x3D rd 0 0 0x003)
  | .sprr c rd spr => some (c, encI 0x3E rd 0 spr.toNat)
  | .sprw c spr a => some (c, encI 0x3E 0 a (2 ^ 15 + spr.toNat))
  | .fence c rd => some (c, encR 0x3F rd 0 0 0x000)
  | .breakInstr c => some (c, encR 0x3F 0 0 0 0x001)
  | .send c a b => some (c, encR 0x3F 0 a b 0x002)
  | .recv c rd a => some (c, encR 0x3F rd a 0 0x003)
  | .vtx c a => some (c, encR 0x3F 0 a 0 0x004)
  | .vrx c rd => some (c, encR 0x3F rd 0 0 0x005)
  | _ => none

end Sys2Proof
end

