-- ==== Sys2Proof/Config.lean ====
section
/-! DEFINITION. What the spec leaves open: free values with no body, so that no proof can see what they are. -/

namespace Sys2Proof.Config

open Sys2Proof

/-- A 64-bit value the spec does not state, drawn afresh at each use: the argument is the hub's draw counter. -/
opaque freeWord : Nat → Word

/-- Whether a channel's notice ring is full (R509): the spec does not say how the hub learns what the agent has
taken. The arguments are the channel and the head position. -/
opaque noticeRingFull : Nat → Nat → Bool

/-- How many flits a link's receive buffer holds (R223), by link. -/
opaque linkRxBuffer : Nat → Nat

/-- The scan segment that a unit's socket declares (R533), by unit. -/
opaque scanSegment : Nat → Nat

/-- The activity classes that a unit kind's socket declares (R533, R536), as a mask: the spec states them for the matrix
engine alone. -/
opaque classMask : Nat → Nat

/-- Word `w` of a descriptor that failed its checks (R535), by unit. -/
opaque badDescriptor (unit w : Nat) : Word

/-- The code lengths, ESC first, that the Swage coder builds for a block (R295), by the block's bytes. -/
opaque swageLengths : List Byte → List Nat

/-- Whether a quantity that falls between two whole units is rounded up, where the spec gives no rounding (R390, R393,
R401, R409). -/
opaque roundUp : Rat → Bool
/-- What READ_VOUT says, in µV, under a VOUT_MODE that is not the linear one (R513 gives no other). -/
opaque voutOther : Nat → Nat → Nat

/-- The scalar of the ledger key, which the hub derives from an OTP seed (R416). -/
opaque ledgerKey : Nat
/-- The nonce with which the signing engine signs a message (R416). -/
opaque ledgerNonce : List Byte → Nat

/-- The 16-byte chip identity in OTP (R278, R416). -/
opaque chipIdentity : List Byte

/-- The ledger key version (R416). -/
opaque ledgerKeyVersion : Nat

/-- The bytes of a ledger checkpoint in its flash sector (R422, R549): the spec gives what it holds, not its layout. -/
opaque checkpointBytes (chain seq : Nat) (hash : List Byte) : List Byte

/-- The digest in a recipe-key slot of OTP (R144). -/
opaque recipeKeyDigest : Nat → List Byte

/-- The highest level a recipe-key slot grants, none while it is revoked or empty (R144). -/
opaque recipeKeyLevel : Nat → Option Nat

/-- The OTP minimum image version (R552). -/
opaque minImageVersion : Nat

/-! ### What the exporter draws (R279, R280) -/

/-- The dump key K of an export, by the draw it comes from. -/
opaque dumpKey : Nat → List Byte
/-- The ephemeral private key of an export, by the draw. -/
opaque ephemeralKey : Nat → Nat
/-- The nonce prefix of an export, by the draw. -/
opaque noncePrefix : Nat → List Byte
/-! ### OTP and identity (R479, R482, R505, R506, R510) -/

/-- The OTP lifecycle field reads PRODUCTION (R482). -/
opaque production : Bool
/-- AUT_ANCHOR_n without its digest: valid, revoked and max_level (R479). -/
opaque anchorBits : Nat → Nat
/-- The SHA-384 public-key digest in trust anchor n (R479). -/
opaque anchorDigest : Nat → List Byte
/-- The JTAG IDCODE (R510). -/
opaque jtagIdcode : Nat
/-- The digest of a measurement that the spec names without its bytes: 1 the boot ROM, 4 the patch set in force, 5 the
OTP policy, trust anchors and recipe-key slots (R486); the words are those of the patch set for index 4. -/
opaque measurement (index : Nat) (words : List Word) : List Byte
/-- The endpoint's MCTP UUID (R506). -/
opaque mctpUuid : List Byte
/-- The body of a Get MCTP Version Support response (R506). -/
opaque mctpVersions : List Byte
/-- Erinapa's IANA enterprise number, as Get Vendor Defined Message Support returns it (R506). -/
opaque vendorSupport : List Byte
/-- What GETPID, GETBCR and GETDCR return, by CCC code (R505). -/
opaque i3cIdentity : Nat → List Byte

end Sys2Proof.Config
end

