-- ==== Sys2Proof/Machine/Regs.lean ====
section
/-! DEFINITION. The hub's registers: one constructor per register heading of the spec's tables, with its offset,
width, number of copies and, field by field, the access code (R16), the reset value and the Survives letters (R17). -/

namespace Sys2Proof.Machine

open Sys2Proof

/-- The registers, in the order of the chapters that define them. -/
inductive Reg where
  | HRT_ARCH
  | HRT_TOPOLOGY
  | HRT_STATE
  | TIM_NOW
  | TIM_STATUS
  | TIM_XCHIP_CFG
  | TIM_XCHIP_OFFSET
  | TIM_STEP
  | TIM_LAST_STEP
  | TIM_WALL_OFFSET
  | TIM_WALL_STAMP
  | TIM_TRIM
  | TRC_RING_CFG
  | TRC_FILL
  | TRC_ARM
  | TRC_CTRL
  | TRC_SEG_BASE
  | TRC_SEG_STATUS
  | TRC_SEG_WRAPS
  | TRC_FILTER
  | TRC_LOSS_TOTAL
  | TRC_LOSS_L7
  | TRC_COLLECT
  | STK_ID
  | STK_EPC
  | STK_CAUSE
  | STK_BADADDR
  | STK_EVEC
  | STK_XCTL
  | STK_WDOG
  | STK_WDOG_COUNT
  | STK_WDOG_KICK
  | STK_RVEC
  | STK_AUTH
  | STK_TXN
  | STK_HSTFAIL
  | STK_MSGSRC
  | STK_INSTRET
  | HRT_RCP_LOAD
  | HRT_RCP_STATUS
  | STK_SLOTDESC
  | STK_SLOTPEND
  | STK_SLOTOVF
  | STK_SLOTARMED
  | LCK_REQ
  | LCK_RESULT
  | LCK_STATE
  | HTRG_ARM
  | TRG_ARM
  | HTRG_STATUS
  | TRG_STATUS
  | HTRG_FIRED
  | TRG_FIRED
  | SPK_HGRP
  | HRT_HGRP_DIES
  | HRT_HGRP_ARM
  | HTRG_ENTRY
  | TRG_ENTRY
  | HRT_HGRP_CTL
  | HRT_RC_CMD
  | HRT_RC_RVEC
  | HRT_RC_RESULT
  | SPK_UNIT_STATE
  | SPK_UNIT_CTL
  | SPK_STEP_CFG
  | SPK_PPQ_STATUS
  | SPK_RC_COUNT
  | SPK_PPQ_ENTRY
  | SPK_PPQ_DATA
  | HRT_QCH_CMD
  | HRT_QCH_CFG
  | HRT_QCH_STATUS
  | HRT_QCH_TIME
  | HRT_QCH_COUNT
  | BLW_CFG
  | BLW_RATE
  | BLW_LAST
  | BLW_RAIL
  | BNK_CFG
  | BNK_STATUS
  | BNK_LINK
  | CRU_PLAN
  | CRU_START
  | CRU_RESULT
  | CRU_CANCEL
  | CRU_RELEASE
  | CRU_JOB
  | CRU_JOB_MANIFEST
  | CRU_SPILL_BASE
  | CRU_SPILL
  | CRU_GROUPS
  | CRU_NODE
  | SPK_CAP_STATUS
  | SPK_CAP_ERR
  | SWG_CHAIN
  | SWG_CANCEL
  | SWG_DEC_LIMIT
  | SWG_ENG
  | SWG_JOB
  | SWG_JOB_DESC
  | SWG_JOB_PROG
  | SWG_COUNT
  | SPN_REQ
  | SPN_QUOTA
  | SPN_ARM
  | SPN_OUT
  | SPN_OUT_BEATS
  | SPN_HOG
  | SPN_MAXWAIT
  | HWT_CTX_CFG
  | HWT_CTX_STATUS
  | HWT_CFG
  | HWT_ARM
  | HWT_EST_SEL
  | HWT_EST
  | HWT_WHEEL
  | HWT_EXP_HEAD
  | WFG_ROOT
  | WFG_ROOT_AUX
  | WFG_ROOT_TIME
  | WFG_CFG
  | WFG_STATUS
  | WFG_CMD
  | WFG_OBJ_CMD
  | WFG_OBJ
  | WFG_OBJ_VAL
  | WFG_OBJ_SIG
  | WFG_PEER
  | HWT_EXP
  | RCV_CMD
  | RCV_RESULT
  | RCV_CFG
  | RCV_STATUS
  | RCV_ESC
  | RCV_MARK
  | ANV_RCV_STATUS
  | ANV_RCV_TIME
  | ANV_RCV_CLASS
  | ANV_RCV_COUNT
  | LDG_CFG
  | LDG_STATUS
  | LDG_CHAIN
  | LDG_SEQ
  | LDG_RING
  | LDG_ACK
  | LDG_CAL_STATUS
  | LDG_CAL_DEGENERATE
  | LDG_TAG_VAL
  | LDG_TAG_CMD
  | LDG_TAG_RESULT
  | LDG_PMB_MAP
  | LDG_PMB_STATUS
  | LDG_PMB_GAIN
  | LDG_OVH
  | LDG_OVH_REASON
  | LDG_COEF
  | LDG_CTX_TAG
  | LDG_ACCT
  | LDG_RAIL
  | LDG_RAIL_SMP
  | LDG_ATTR
  | TXN_CMD
  | TXN_AT
  | TXN_RESULT
  | TXN_RPT
  | TXN_STATE
  | TXN_TIME
  | TXN_OWNER
  | SPK_TXN_STAGE
  | HRT_FO_CMD
  | HRT_FO_CFG
  | HRT_FO_STATUS
  | HRT_FO_TIME
  | HRT_UPD_CMD
  | HRT_UPD_SRC
  | HRT_UPD_STATUS
  | CRU_MAPOUT
  | CRU_MAPOUT_STATUS
  | TIM_RECAL
  | LDG_COEF_LOAD
  | STK_DBG_CTL
  | STK_DBG_STATUS
  | STK_DBG_BP
  | STK_DBG_LADDR
  | STK_DBG_LDATA
  | STK_DBG_PC
  | STK_DBG_GPR
  | STK_VT_OUT
  | STK_VT_IN
  | STK_VT_STAT
  | PAT_ADDR
  | PAT_DATA
  | PAT_ARM
  | PAT_STATUS
  | AUT_STATUS
  | AUT_IDENT
  | AUT_ANCHOR
  | AUT_SESS
  | AUT_RCPT_CMD
  | AUT_RCPT
  | VYN_CFG
  | VYN_STATUS
  | VYN_ERR
  | HRT_EXP_CMD
  | HRT_EXP_DEST
  | HRT_EXP_STATUS
  | HRT_NOTIFY
  | HRT_ALERT
  | SPK_SOCK
  | SPK_SOCK_STATUS
  | HRT_RESET_CAUSE
  | HRT_BOOT_STATUS
  | HRT_BOOT_TIME
  | HRT_RESET_CMD
  | HRT_EMBER_CMD
  | HRT_EMBER_CFG
  | HRT_EMBER_STATUS
  | HRT_PWR_DOM
  | HRT_PWR_FAULT
  deriving DecidableEq, Repr

/-- Where a register stands: in the Hearth block, in every spoke's block, in the anvil nodes' blocks only, in the
special-purpose register space of a Striker core, or in its debug window. -/
inductive Block where
  | hearth | spoke | anvil | spr | dbg
  deriving DecidableEq, Repr

/-- The access codes of R16. -/
inductive Acc where
  | ro | rw | rws | w1c | w1s | wo | rc
  deriving DecidableEq, Repr

/-- One field: its low bit, its length, its access code, its reset value, and the Survives letters as a mask with
bit 0 W, bit 1 P, bit 2 H, bit 3 F, bit 4 S, bit 5 E. -/
structure FieldDesc where
  lo : Nat
  len : Nat
  acc : Acc
  reset : Nat
  surv : Nat
  deriving DecidableEq, Repr

/-- One register: its block, first offset, the counts and strides of its (at most two) indices, its width in bits,
whether every master has its own copy, and its fields from bit 0 up. -/
structure RegDesc where
  block : Block
  base : Nat
  n1 : Nat := 1
  s1 : Nat := 8
  n2 : Nat := 1
  s2 : Nat := 8
  width : Nat := 64
  perMaster : Bool := false
  fields : List FieldDesc
  deriving DecidableEq, Repr

/-- The spec's table of each register. -/
def Reg.desc : Reg → RegDesc
  | .HRT_ARCH =>
    { block := .hearth, base := 0x0, width := 32,
      fields := [⟨0, 8, .ro, 2, 63⟩, ⟨8, 8, .ro, 2, 63⟩, ⟨16, 16, .ro, 0, 63⟩] }
  | .HRT_TOPOLOGY =>
    { block := .hearth, base := 0x8,
      fields := [⟨0, 4, .ro, 8, 63⟩, ⟨4, 5, .ro, 0x18, 63⟩, ⟨9, 7, .ro, 0, 63⟩, ⟨16, 6, .ro, 0x30, 63⟩,
        ⟨22, 6, .ro, 0x38, 63⟩, ⟨28, 4, .ro, 0, 63⟩, ⟨32, 3, .ro, 0, 63⟩, ⟨35, 3, .ro, 4, 63⟩,
        ⟨38, 7, .ro, 0x40, 63⟩, ⟨45, 19, .ro, 0, 63⟩] }
  | .HRT_STATE =>
    { block := .hearth, base := 0x10, width := 32,
      fields := [⟨0, 4, .ro, 0, 59⟩, ⟨4, 1, .ro, 0, 62⟩, ⟨5, 1, .ro, 0, 59⟩, ⟨6, 1, .ro, 0, 63⟩,
        ⟨7, 1, .ro, 0, 63⟩, ⟨8, 8, .ro, 0, 62⟩, ⟨16, 16, .ro, 0, 63⟩] }
  | .TIM_NOW =>
    { block := .hearth, base := 0x1000,
      fields := [⟨0, 64, .ro, 0, 63⟩] }
  | .TIM_STATUS =>
    { block := .hearth, base := 0x1008, width := 32,
      fields := [⟨0, 1, .ro, 0, 63⟩, ⟨1, 3, .ro, 0, 63⟩, ⟨4, 1, .ro, 0, 63⟩, ⟨5, 1, .ro, 0, 63⟩,
        ⟨6, 26, .ro, 0, 63⟩] }
  | .TIM_XCHIP_CFG =>
    { block := .hearth, base := 0x1010, width := 32,
      fields := [⟨0, 2, .rws, 0, 63⟩, ⟨2, 6, .rws, 0, 63⟩, ⟨8, 4, .rws, 0xa, 63⟩, ⟨12, 19, .ro, 0, 63⟩,
        ⟨31, 1, .wo, 0, 0⟩] }
  | .TIM_XCHIP_OFFSET =>
    { block := .hearth, base := 0x1018,
      fields := [⟨0, 32, .ro, 0, 63⟩, ⟨32, 32, .ro, 0, 63⟩] }
  | .TIM_STEP =>
    { block := .hearth, base := 0x1020,
      fields := [⟨0, 64, .wo, 0, 0⟩] }
  | .TIM_LAST_STEP =>
    { block := .hearth, base := 0x1028,
      fields := [⟨0, 64, .ro, 0, 63⟩] }
  | .TIM_WALL_OFFSET =>
    { block := .hearth, base := 0x1030,
      fields := [⟨0, 64, .rw, 0, 63⟩] }
  | .TIM_WALL_STAMP =>
    { block := .hearth, base := 0x1038,
      fields := [⟨0, 64, .ro, 0, 63⟩] }
  | .TIM_TRIM =>
    { block := .hearth, base := 0x1100, n1 := 32, width := 32,
      fields := [⟨0, 12, .rw, 0, 63⟩, ⟨12, 12, .ro, 0, 63⟩, ⟨24, 8, .ro, 0, 63⟩] }
  | .TRC_RING_CFG =>
    { block := .hearth, base := 0x2000, width := 32,
      fields := [⟨0, 5, .rws, 8, 63⟩, ⟨5, 2, .rws, 0, 63⟩, ⟨7, 1, .rws, 0, 63⟩, ⟨8, 24, .ro, 0, 63⟩] }
  | .TRC_FILL =>
    { block := .hearth, base := 0x2008, width := 32,
      fields := [⟨0, 8, .rws, 0, 63⟩, ⟨8, 24, .ro, 0, 63⟩] }
  | .TRC_ARM =>
    { block := .hearth, base := 0x2010, width := 32,
      fields := [⟨0, 1, .wo, 0, 0⟩, ⟨1, 31, .ro, 0, 63⟩] }
  | .TRC_CTRL =>
    { block := .hearth, base := 0x2018, width := 32,
      fields := [⟨0, 1, .w1s, 0, 0⟩, ⟨1, 1, .w1s, 0, 0⟩, ⟨2, 1, .ro, 0, 31⟩, ⟨3, 29, .ro, 0, 63⟩] }
  | .TRC_SEG_BASE =>
    { block := .anvil, base := 0x2000,
      fields := [⟨0, 48, .ro, 0, 63⟩, ⟨48, 16, .ro, 0, 63⟩] }
  | .TRC_SEG_STATUS =>
    { block := .anvil, base := 0x2008,
      fields := [⟨0, 30, .ro, 0, 63⟩, ⟨30, 1, .ro, 0, 63⟩, ⟨31, 1, .ro, 0, 63⟩, ⟨32, 30, .ro, 0, 63⟩,
        ⟨62, 2, .ro, 0, 63⟩] }
  | .TRC_SEG_WRAPS =>
    { block := .anvil, base := 0x2010, width := 32,
      fields := [⟨0, 32, .ro, 0, 63⟩] }
  | .TRC_FILTER =>
    { block := .spoke, base := 0x2100,
      fields := [⟨0, 11, .rws, 0, 63⟩, ⟨11, 11, .rws, 0x7ff, 63⟩, ⟨22, 8, .rws, 0xfc, 63⟩, ⟨30, 2, .ro, 0, 63⟩,
        ⟨32, 11, .rws, 0, 63⟩, ⟨43, 11, .rws, 0, 63⟩, ⟨54, 8, .rws, 0, 63⟩, ⟨62, 2, .ro, 0, 63⟩] }
  | .TRC_LOSS_TOTAL =>
    { block := .spoke, base := 0x2200, n1 := 7,
      fields := [⟨0, 64, .ro, 0, 63⟩] }
  | .TRC_LOSS_L7 =>
    { block := .spoke, base := 0x2238,
      fields := [⟨0, 64, .ro, 0, 63⟩] }
  | .TRC_COLLECT =>
    { block := .spoke, base := 0x2240, width := 32,
      fields := [⟨0, 16, .ro, 0, 63⟩, ⟨16, 10, .rc, 0, 63⟩, ⟨26, 6, .ro, 0, 63⟩] }
  | .STK_ID =>
    { block := .spr, base := 0x0,
      fields := [⟨0, 16, .ro, 0, 63⟩, ⟨16, 2, .ro, 0, 63⟩, ⟨18, 14, .ro, 0, 63⟩, ⟨32, 9, .ro, 0, 63⟩,
        ⟨41, 23, .ro, 0, 63⟩] }
  | .STK_EPC =>
    { block := .spr, base := 0x8,
      fields := [⟨0, 64, .rw, 0, 47⟩] }
  | .STK_CAUSE =>
    { block := .spr, base := 0x10,
      fields := [⟨0, 8, .ro, 0, 47⟩, ⟨8, 1, .ro, 0, 47⟩, ⟨9, 55, .ro, 0, 47⟩] }
  | .STK_BADADDR =>
    { block := .spr, base := 0x18,
      fields := [⟨0, 64, .ro, 0, 47⟩] }
  | .STK_EVEC =>
    { block := .spr, base := 0x20,
      fields := [⟨0, 2, .ro, 0, 47⟩, ⟨2, 62, .rw, 0, 47⟩] }
  | .STK_XCTL =>
    { block := .spr, base := 0x28,
      fields := [⟨0, 1, .wo, 0, 0⟩, ⟨1, 63, .ro, 0, 47⟩] }
  | .STK_WDOG =>
    { block := .spr, base := 0x40,
      fields := [⟨0, 32, .rw, 0x2710, 47⟩, ⟨32, 1, .rw, 1, 47⟩, ⟨33, 31, .ro, 0, 47⟩] }
  | .STK_WDOG_COUNT =>
    { block := .spr, base := 0x48,
      fields := [⟨0, 32, .ro, 0x2710, 47⟩, ⟨32, 32, .ro, 0, 47⟩] }
  | .STK_WDOG_KICK =>
    { block := .spr, base := 0x50,
      fields := [⟨0, 1, .wo, 0, 0⟩, ⟨1, 63, .ro, 0, 47⟩] }
  | .STK_RVEC =>
    { block := .spr, base := 0x80,
      fields := [⟨0, 3, .ro, 0, 47⟩, ⟨3, 29, .rw, 0, 47⟩, ⟨32, 16, .rw, 0, 47⟩, ⟨48, 16, .ro, 0, 47⟩] }
  | .STK_AUTH =>
    { block := .spr, base := 0x88,
      fields := [⟨0, 3, .ro, 0, 47⟩, ⟨3, 61, .ro, 0, 47⟩] }
  | .STK_TXN =>
    { block := .spr, base := 0x90,
      fields := [⟨0, 4, .ro, 0, 47⟩, ⟨4, 1, .ro, 0, 47⟩, ⟨5, 59, .ro, 0, 47⟩] }
  | .STK_HSTFAIL =>
    { block := .spr, base := 0x98,
      fields := [⟨0, 48, .ro, 0, 47⟩, ⟨48, 16, .ro, 0, 47⟩] }
  | .STK_MSGSRC =>
    { block := .spr, base := 0xA0,
      fields := [⟨0, 16, .ro, 0, 47⟩, ⟨16, 48, .ro, 0, 47⟩] }
  | .STK_INSTRET =>
    { block := .spr, base := 0xC0,
      fields := [⟨0, 64, .ro, 0, 47⟩] }
  | .HRT_RCP_LOAD =>
    { block := .hearth, base := 0x5000,
      fields := [⟨0, 48, .wo, 0, 0⟩, ⟨48, 16, .wo, 0, 0⟩] }
  | .HRT_RCP_STATUS =>
    { block := .hearth, base := 0x5008,
      fields := [⟨0, 4, .ro, 0, 51⟩, ⟨4, 1, .ro, 0, 51⟩, ⟨5, 11, .ro, 0, 51⟩, ⟨16, 16, .ro, 0, 51⟩,
        ⟨32, 32, .ro, 0, 51⟩] }
  | .STK_SLOTDESC =>
    { block := .spr, base := 0x100, n1 := 64,
      fields := [⟨0, 64, .ro, 0, 47⟩] }
  | .STK_SLOTPEND =>
    { block := .spr, base := 0x300,
      fields := [⟨0, 64, .ro, 0, 47⟩] }
  | .STK_SLOTOVF =>
    { block := .spr, base := 0x308,
      fields := [⟨0, 64, .w1c, 0, 47⟩] }
  | .STK_SLOTARMED =>
    { block := .spr, base := 0x310,
      fields := [⟨0, 64, .ro, 0, 47⟩] }
  | .LCK_REQ =>
    { block := .hearth, base := 0x3000,
      fields := [⟨0, 8, .wo, 0, 0⟩, ⟨8, 2, .wo, 0, 0⟩, ⟨10, 6, .wo, 0, 0⟩, ⟨16, 32, .wo, 0, 0⟩,
        ⟨48, 16, .wo, 0, 0⟩] }
  | .LCK_RESULT =>
    { block := .hearth, base := 0x3008, perMaster := true,
      fields := [⟨0, 16, .ro, 0, 59⟩, ⟨16, 1, .ro, 0, 59⟩, ⟨17, 15, .ro, 0, 59⟩, ⟨32, 32, .ro, 0, 59⟩] }
  | .LCK_STATE =>
    { block := .hearth, base := 0x3100, n1 := 256,
      fields := [⟨0, 1, .ro, 0, 59⟩, ⟨1, 1, .ro, 0, 59⟩, ⟨2, 2, .ro, 0, 59⟩, ⟨4, 16, .ro, 0, 59⟩,
        ⟨20, 8, .ro, 0, 59⟩, ⟨28, 4, .ro, 0, 59⟩, ⟨32, 32, .ro, 0, 59⟩] }
  | .HTRG_ARM =>
    { block := .hearth, base := 0x4000, width := 32,
      fields := [⟨0, 1, .wo, 0, 0⟩, ⟨1, 31, .ro, 0, 63⟩] }
  | .TRG_ARM =>
    { block := .anvil, base := 0x4000, width := 32,
      fields := [⟨0, 1, .wo, 0, 0⟩, ⟨1, 31, .ro, 0, 63⟩] }
  | .HTRG_STATUS =>
    { block := .hearth, base := 0x4008,
      fields := [⟨0, 32, .ro, 0, 63⟩, ⟨32, 16, .ro, 0, 63⟩, ⟨48, 16, .ro, 0, 63⟩] }
  | .TRG_STATUS =>
    { block := .anvil, base := 0x4008,
      fields := [⟨0, 32, .ro, 0, 63⟩, ⟨32, 16, .ro, 0, 63⟩, ⟨48, 16, .ro, 0, 63⟩] }
  | .HTRG_FIRED =>
    { block := .hearth, base := 0x18000, n1 := 64,
      fields := [⟨0, 32, .ro, 0, 63⟩, ⟨32, 16, .ro, 0, 63⟩, ⟨48, 16, .ro, 0, 63⟩] }
  | .TRG_FIRED =>
    { block := .anvil, base := 0x18000, n1 := 256,
      fields := [⟨0, 32, .ro, 0, 63⟩, ⟨32, 16, .ro, 0, 63⟩, ⟨48, 16, .ro, 0, 63⟩] }
  | .SPK_HGRP =>
    { block := .spoke, base := 0x30000, n1 := 256, s1 := 0x20, n2 := 4,
      fields := [⟨0, 64, .rws, 0, 63⟩] }
  | .HRT_HGRP_DIES =>
    { block := .hearth, base := 0x6000, n1 := 256,
      fields := [⟨0, 32, .ro, 0, 63⟩, ⟨32, 32, .ro, 0, 63⟩] }
  | .HRT_HGRP_ARM =>
    { block := .hearth, base := 0x6800, width := 32,
      fields := [⟨0, 1, .wo, 0, 0⟩, ⟨1, 31, .ro, 0, 63⟩] }
  | .HTRG_ENTRY =>
    { block := .hearth, base := 0x10000, n1 := 64, s1 := 0x20, n2 := 4,
      fields := [⟨0, 64, .rws, 0, 63⟩] }
  | .TRG_ENTRY =>
    { block := .anvil, base := 0x10000, n1 := 256, s1 := 0x20, n2 := 4,
      fields := [⟨0, 64, .rws, 0, 63⟩] }
  | .HRT_HGRP_CTL =>
    { block := .hearth, base := 0x6C00, n1 := 256,
      fields := [⟨0, 1, .rws, 0, 63⟩, ⟨1, 63, .ro, 0, 63⟩] }
  | .HRT_RC_CMD =>
    { block := .hearth, base := 0x7800,
      fields := [⟨0, 16, .wo, 0, 0⟩, ⟨16, 2, .wo, 0, 0⟩, ⟨18, 1, .wo, 0, 0⟩, ⟨19, 1, .wo, 0, 0⟩,
        ⟨20, 16, .wo, 0, 0⟩, ⟨36, 28, .wo, 0, 0⟩] }
  | .HRT_RC_RVEC =>
    { block := .hearth, base := 0x7808, perMaster := true,
      fields := [⟨0, 48, .rw, 0, 59⟩, ⟨48, 16, .rw, 0, 59⟩] }
  | .HRT_RC_RESULT =>
    { block := .hearth, base := 0x7810, perMaster := true,
      fields := [⟨0, 16, .ro, 0, 59⟩, ⟨16, 1, .ro, 0, 59⟩, ⟨17, 15, .ro, 0, 59⟩, ⟨32, 16, .ro, 0, 59⟩,
        ⟨48, 16, .ro, 0, 59⟩] }
  | .SPK_UNIT_STATE =>
    { block := .spoke, base := 0x50000, n1 := 256,
      fields := [⟨0, 4, .ro, 0, 60⟩, ⟨4, 2, .ro, 0, 60⟩, ⟨6, 1, .ro, 0, 60⟩, ⟨7, 1, .ro, 0, 60⟩,
        ⟨8, 16, .ro, 0, 60⟩, ⟨24, 7, .ro, 0, 60⟩, ⟨31, 1, .ro, 0, 60⟩, ⟨32, 16, .ro, 0, 60⟩,
        ⟨48, 16, .ro, 0, 60⟩] }
  | .SPK_UNIT_CTL =>
    { block := .spoke, base := 0x51000, n1 := 256,
      fields := [⟨0, 1, .rw, 0, 63⟩, ⟨1, 1, .wo, 0, 0⟩, ⟨2, 62, .ro, 0, 63⟩] }
  | .SPK_STEP_CFG =>
    { block := .spoke, base := 0x6000, width := 32,
      fields := [⟨0, 16, .rw, 0x64, 63⟩, ⟨16, 16, .ro, 0, 63⟩] }
  | .SPK_PPQ_STATUS =>
    { block := .spoke, base := 0x6008,
      fields := [⟨0, 5, .ro, 0, 60⟩, ⟨5, 3, .ro, 0, 63⟩, ⟨8, 16, .ro, 0, 63⟩, ⟨24, 16, .ro, 0, 63⟩,
        ⟨40, 24, .ro, 0, 63⟩] }
  | .SPK_RC_COUNT =>
    { block := .spoke, base := 0x6010,
      fields := [⟨0, 16, .ro, 0, 63⟩, ⟨16, 16, .ro, 0, 63⟩, ⟨32, 16, .ro, 0, 63⟩, ⟨48, 16, .ro, 0, 63⟩] }
  | .SPK_PPQ_ENTRY =>
    { block := .spoke, base := 0x6100, n1 := 16, s1 := 0x10,
      fields := [⟨0, 16, .ro, 0, 60⟩, ⟨16, 13, .ro, 0, 60⟩, ⟨29, 3, .ro, 0, 60⟩, ⟨32, 16, .ro, 0, 60⟩,
        ⟨48, 16, .ro, 0, 60⟩] }
  | .SPK_PPQ_DATA =>
    { block := .spoke, base := 0x6108, n1 := 16, s1 := 0x10,
      fields := [⟨0, 64, .ro, 0, 60⟩] }
  | .HRT_QCH_CMD =>
    { block := .hearth, base := 0x8000,
      fields := [⟨0, 32, .wo, 0, 0⟩, ⟨32, 1, .wo, 0, 0⟩, ⟨33, 31, .wo, 0, 0⟩] }
  | .HRT_QCH_CFG =>
    { block := .hearth, base := 0x8008, width := 32,
      fields := [⟨0, 1, .rw, 0, 63⟩, ⟨1, 1, .rw, 1, 63⟩, ⟨2, 30, .ro, 0, 63⟩] }
  | .HRT_QCH_STATUS =>
    { block := .hearth, base := 0x8010,
      fields := [⟨0, 32, .ro, 0, 62⟩, ⟨32, 4, .ro, 0, 63⟩, ⟨36, 3, .ro, 0, 62⟩, ⟨39, 1, .ro, 0, 63⟩,
        ⟨40, 16, .ro, 0, 63⟩, ⟨56, 8, .ro, 0, 63⟩] }
  | .HRT_QCH_TIME =>
    { block := .hearth, base := 0x8018,
      fields := [⟨0, 64, .ro, 0, 63⟩] }
  | .HRT_QCH_COUNT =>
    { block := .hearth, base := 0x8020,
      fields := [⟨0, 16, .ro, 0, 63⟩, ⟨16, 16, .ro, 0, 63⟩, ⟨32, 16, .ro, 0, 63⟩, ⟨48, 8, .ro, 0, 63⟩,
        ⟨56, 8, .ro, 0, 63⟩] }
  | .BLW_CFG =>
    { block := .hearth, base := 0x8100,
      fields := [⟨0, 9, .rws, 0x64, 63⟩, ⟨9, 9, .rws, 0x14, 63⟩, ⟨18, 10, .rws, 0x19, 63⟩, ⟨28, 8, .rws, 0xf, 63⟩,
        ⟨36, 27, .ro, 0, 63⟩, ⟨63, 1, .wo, 0, 0⟩] }
  | .BLW_RATE =>
    { block := .hearth, base := 0x8108, width := 32,
      fields := [⟨0, 9, .ro, 0x64, 63⟩, ⟨9, 3, .ro, 0, 63⟩, ⟨12, 20, .ro, 0, 63⟩] }
  | .BLW_LAST =>
    { block := .hearth, base := 0x8110,
      fields := [⟨0, 16, .ro, 0, 63⟩, ⟨16, 16, .ro, 0, 63⟩, ⟨32, 10, .ro, 0, 63⟩, ⟨42, 1, .ro, 0, 63⟩,
        ⟨43, 1, .ro, 0, 63⟩, ⟨44, 10, .ro, 0, 63⟩, ⟨54, 10, .ro, 0, 63⟩] }
  | .BLW_RAIL =>
    { block := .anvil, base := 0x7000, n1 := 4,
      fields := [⟨0, 8, .ro, 0, 62⟩, ⟨8, 10, .rw, 0, 63⟩, ⟨18, 10, .rw, 0, 63⟩, ⟨28, 10, .ro, 0, 63⟩,
        ⟨38, 5, .ro, 0, 62⟩, ⟨43, 21, .ro, 0, 63⟩] }
  | .BNK_CFG =>
    { block := .hearth, base := 0x8200, width := 32,
      fields := [⟨0, 5, .rws, 0x14, 63⟩, ⟨5, 4, .rws, 2, 63⟩, ⟨9, 22, .ro, 0, 63⟩, ⟨31, 1, .wo, 0, 0⟩] }
  | .BNK_STATUS =>
    { block := .hearth, base := 0x8208,
      fields := [⟨0, 48, .ro, 0, 62⟩, ⟨48, 16, .ro, 0, 63⟩] }
  | .BNK_LINK =>
    { block := .anvil, base := 0x7100, n1 := 6,
      fields := [⟨0, 3, .ro, 0, 63⟩, ⟨3, 2, .ro, 0, 62⟩, ⟨5, 1, .ro, 0, 63⟩, ⟨6, 26, .ro, 0, 62⟩,
        ⟨32, 16, .ro, 0, 62⟩, ⟨48, 16, .ro, 0, 63⟩] }
  | .CRU_PLAN =>
    { block := .hearth, base := 0x9000, n1 := 64,
      fields := [⟨0, 48, .rw, 0, 63⟩, ⟨48, 1, .rw, 0, 63⟩, ⟨49, 2, .ro, 0, 63⟩, ⟨51, 13, .ro, 0, 63⟩] }
  | .CRU_START =>
    { block := .hearth, base := 0x9200, width := 32,
      fields := [⟨0, 6, .wo, 0, 0⟩, ⟨6, 26, .wo, 0, 0⟩] }
  | .CRU_RESULT =>
    { block := .hearth, base := 0x9208, width := 32, perMaster := true,
      fields := [⟨0, 16, .ro, 0, 59⟩, ⟨16, 16, .ro, 0, 59⟩] }
  | .CRU_CANCEL =>
    { block := .hearth, base := 0x9210, width := 32,
      fields := [⟨0, 16, .wo, 0, 0⟩, ⟨16, 16, .wo, 0, 0⟩] }
  | .CRU_RELEASE =>
    { block := .hearth, base := 0x9218, width := 32,
      fields := [⟨0, 16, .wo, 0, 0⟩, ⟨16, 16, .wo, 0, 0⟩] }
  | .CRU_JOB =>
    { block := .hearth, base := 0x9300, n1 := 4, s1 := 0x10,
      fields := [⟨0, 16, .ro, 0, 63⟩, ⟨16, 3, .ro, 0, 63⟩, ⟨19, 13, .ro, 0, 63⟩, ⟨32, 16, .ro, 0, 63⟩,
        ⟨48, 16, .ro, 0, 63⟩] }
  | .CRU_JOB_MANIFEST =>
    { block := .hearth, base := 0x9308, n1 := 4, s1 := 0x10,
      fields := [⟨0, 48, .ro, 0, 63⟩, ⟨48, 16, .ro, 0, 63⟩] }
  | .CRU_SPILL_BASE =>
    { block := .hearth, base := 0x9400,
      fields := [⟨0, 64, .rw, 0, 63⟩] }
  | .CRU_SPILL =>
    { block := .hearth, base := 0x9408,
      fields := [⟨0, 32, .rw, 0, 63⟩, ⟨32, 1, .rw, 0, 63⟩, ⟨33, 31, .ro, 0, 63⟩] }
  | .CRU_GROUPS =>
    { block := .hearth, base := 0x9410,
      fields := [⟨0, 64, .ro, 0xffffffffffffffff, 63⟩] }
  | .CRU_NODE =>
    { block := .anvil, base := 0x9000,
      fields := [⟨0, 14, .ro, 0, 63⟩, ⟨14, 2, .ro, 0, 63⟩, ⟨16, 14, .ro, 0, 63⟩, ⟨30, 2, .ro, 0, 63⟩,
        ⟨32, 3, .ro, 7, 63⟩, ⟨35, 29, .ro, 0, 63⟩] }
  | .SPK_CAP_STATUS =>
    { block := .spoke, base := 0x9100,
      fields := [⟨0, 16, .ro, 0, 60⟩, ⟨16, 4, .ro, 0, 60⟩, ⟨20, 4, .ro, 0, 60⟩, ⟨24, 8, .ro, 0, 60⟩,
        ⟨32, 32, .ro, 0, 60⟩] }
  | .SPK_CAP_ERR =>
    { block := .spoke, base := 0x9108,
      fields := [⟨0, 16, .ro, 0, 63⟩, ⟨16, 16, .ro, 0, 63⟩, ⟨32, 16, .ro, 0, 63⟩, ⟨48, 16, .ro, 0, 63⟩] }
  | .SWG_CHAIN =>
    { block := .hearth, base := 0xA000,
      fields := [⟨0, 48, .wo, 0, 0⟩, ⟨48, 16, .wo, 0, 0⟩] }
  | .SWG_CANCEL =>
    { block := .hearth, base := 0xA008, width := 32,
      fields := [⟨0, 16, .wo, 0, 0⟩, ⟨16, 16, .wo, 0, 0⟩] }
  | .SWG_DEC_LIMIT =>
    { block := .hearth, base := 0xA010, width := 32,
      fields := [⟨0, 32, .rw, 0x40000, 63⟩] }
  | .SWG_ENG =>
    { block := .anvil, base := 0xA000,
      fields := [⟨0, 3, .ro, 0, 31⟩, ⟨3, 1, .ro, 0, 31⟩, ⟨4, 28, .ro, 0, 31⟩, ⟨32, 32, .ro, 0, 31⟩] }
  | .SWG_JOB =>
    { block := .anvil, base := 0xA100, n1 := 4, s1 := 0x20,
      fields := [⟨0, 16, .ro, 0, 31⟩, ⟨16, 3, .ro, 0, 31⟩, ⟨19, 5, .ro, 0, 31⟩, ⟨24, 8, .ro, 0, 31⟩,
        ⟨32, 16, .ro, 0, 31⟩, ⟨48, 16, .ro, 0, 31⟩] }
  | .SWG_JOB_DESC =>
    { block := .anvil, base := 0xA108, n1 := 4, s1 := 0x20,
      fields := [⟨0, 48, .ro, 0, 31⟩, ⟨48, 16, .ro, 0, 31⟩] }
  | .SWG_JOB_PROG =>
    { block := .anvil, base := 0xA110, n1 := 4, s1 := 0x20,
      fields := [⟨0, 20, .ro, 0, 31⟩, ⟨20, 16, .ro, 0, 31⟩, ⟨36, 28, .ro, 0, 31⟩] }
  | .SWG_COUNT =>
    { block := .anvil, base := 0xA200,
      fields := [⟨0, 32, .ro, 0, 31⟩, ⟨32, 16, .ro, 0, 31⟩, ⟨48, 16, .ro, 0, 31⟩] }
  | .SPN_REQ =>
    { block := .anvil, base := 0xB000, n1 := 48,
      fields := [⟨0, 2, .rws, 0, 63⟩, ⟨2, 6, .ro, 0, 63⟩, ⟨8, 12, .rws, 0, 63⟩, ⟨20, 44, .ro, 0, 63⟩] }
  | .SPN_QUOTA =>
    { block := .anvil, base := 0xB180, width := 32,
      fields := [⟨0, 13, .rws, 0x200, 63⟩, ⟨13, 19, .ro, 0, 63⟩] }
  | .SPN_ARM =>
    { block := .anvil, base := 0xB188, width := 32,
      fields := [⟨0, 1, .wo, 0, 0⟩, ⟨1, 31, .ro, 0, 63⟩] }
  | .SPN_OUT =>
    { block := .anvil, base := 0xB200, n1 := 8, s1 := 0x10,
      fields := [⟨0, 6, .ro, 0x3f, 63⟩, ⟨6, 2, .ro, 0, 63⟩, ⟨8, 13, .ro, 0, 63⟩, ⟨21, 1, .ro, 0, 63⟩,
        ⟨22, 10, .ro, 0, 63⟩, ⟨32, 6, .ro, 0, 63⟩, ⟨38, 26, .ro, 0, 63⟩] }
  | .SPN_OUT_BEATS =>
    { block := .anvil, base := 0xB208, n1 := 8, s1 := 0x10,
      fields := [⟨0, 64, .ro, 0, 63⟩] }
  | .SPN_HOG =>
    { block := .anvil, base := 0xB300,
      fields := [⟨0, 48, .w1c, 0, 63⟩, ⟨48, 16, .ro, 0, 63⟩] }
  | .SPN_MAXWAIT =>
    { block := .anvil, base := 0xB400, n1 := 48,
      fields := [⟨0, 32, .rc, 0, 63⟩, ⟨32, 32, .ro, 0, 63⟩] }
  | .HWT_CTX_CFG =>
    { block := .hearth, base := 0x20000, n1 := 2048, s1 := 0x10,
      fields := [⟨0, 2, .rws, 1, 63⟩, ⟨2, 3, .rws, 0, 63⟩, ⟨5, 3, .ro, 0, 63⟩, ⟨8, 8, .rws, 0x40, 63⟩,
        ⟨16, 16, .ro, 0, 63⟩, ⟨32, 32, .rws, 0xf4240, 63⟩] }
  | .HWT_CTX_STATUS =>
    { block := .hearth, base := 0x20008, n1 := 2048, s1 := 0x10,
      fields := [⟨0, 3, .ro, 0, 62⟩, ⟨3, 1, .ro, 0, 62⟩, ⟨4, 6, .ro, 0, 62⟩, ⟨10, 6, .ro, 0, 62⟩,
        ⟨16, 32, .ro, 0, 62⟩, ⟨48, 16, .ro, 0, 62⟩] }
  | .HWT_CFG =>
    { block := .hearth, base := 0xB000,
      fields := [⟨0, 20, .rws, 0x64, 63⟩, ⟨20, 28, .rws, 0x3938700, 63⟩, ⟨48, 4, .rws, 4, 63⟩, ⟨52, 12, .rws, 0x100, 63⟩] }
  | .HWT_ARM =>
    { block := .hearth, base := 0xB010, width := 32,
      fields := [⟨0, 1, .wo, 0, 0⟩, ⟨1, 31, .ro, 0, 63⟩] }
  | .HWT_EST_SEL =>
    { block := .hearth, base := 0xB018, width := 32,
      fields := [⟨0, 11, .wo, 0, 0⟩, ⟨11, 1, .wo, 0, 0⟩, ⟨12, 4, .wo, 0, 0⟩, ⟨16, 1, .wo, 0, 0⟩,
        ⟨17, 15, .wo, 0, 0⟩] }
  | .HWT_EST =>
    { block := .hearth, base := 0xB020, perMaster := true,
      fields := [⟨0, 32, .ro, 0, 63⟩, ⟨32, 13, .ro, 0, 63⟩, ⟨45, 16, .ro, 0, 63⟩, ⟨61, 3, .ro, 0, 63⟩] }
  | .HWT_WHEEL =>
    { block := .anvil, base := 0xC000,
      fields := [⟨0, 12, .ro, 0, 63⟩, ⟨12, 14, .ro, 0, 62⟩, ⟨26, 6, .ro, 0, 63⟩, ⟨32, 16, .ro, 0, 63⟩,
        ⟨48, 16, .ro, 0, 63⟩] }
  | .HWT_EXP_HEAD =>
    { block := .anvil, base := 0xC008,
      fields := [⟨0, 4, .ro, 0, 63⟩, ⟨4, 28, .ro, 0, 63⟩, ⟨32, 32, .ro, 0, 63⟩] }
  | .WFG_ROOT =>
    { block := .hearth, base := 0x7C00,
      fields := [⟨0, 11, .ro, 0, 62⟩, ⟨11, 5, .ro, 0, 62⟩, ⟨16, 3, .ro, 0, 62⟩, ⟨19, 3, .ro, 0, 62⟩,
        ⟨22, 1, .ro, 0, 62⟩, ⟨23, 1, .ro, 0, 62⟩, ⟨24, 12, .ro, 0, 62⟩, ⟨36, 12, .ro, 0, 62⟩,
        ⟨48, 11, .ro, 0, 62⟩, ⟨59, 4, .ro, 0, 62⟩, ⟨63, 1, .ro, 0, 62⟩] }
  | .WFG_ROOT_AUX =>
    { block := .hearth, base := 0x7C08,
      fields := [⟨0, 16, .ro, 0, 62⟩, ⟨16, 16, .ro, 0, 62⟩, ⟨32, 16, .ro, 0, 62⟩, ⟨48, 8, .ro, 0, 62⟩,
        ⟨56, 8, .ro, 0, 62⟩] }
  | .WFG_ROOT_TIME =>
    { block := .hearth, base := 0x7C10,
      fields := [⟨0, 64, .ro, 0, 62⟩] }
  | .WFG_CFG =>
    { block := .hearth, base := 0x7C18,
      fields := [⟨0, 12, .rws, 0xa, 63⟩, ⟨12, 16, .rws, 0x3e8, 63⟩, ⟨28, 12, .rws, 0xa, 63⟩, ⟨40, 16, .rws, 0, 63⟩,
        ⟨56, 7, .ro, 0, 63⟩, ⟨63, 1, .wo, 0, 0⟩] }
  | .WFG_STATUS =>
    { block := .hearth, base := 0x7C20,
      fields := [⟨0, 17, .ro, 0, 62⟩, ⟨17, 14, .ro, 0, 62⟩, ⟨31, 1, .w1c, 0, 62⟩, ⟨32, 16, .ro, 0, 62⟩,
        ⟨48, 16, .ro, 0, 62⟩] }
  | .WFG_CMD =>
    { block := .hearth, base := 0x7C28,
      fields := [⟨0, 2, .wo, 0, 0⟩, ⟨2, 1, .wo, 0, 0⟩, ⟨3, 45, .wo, 0, 0⟩, ⟨48, 16, .wo, 0, 0⟩] }
  | .WFG_OBJ_CMD =>
    { block := .hearth, base := 0x7C30,
      fields := [⟨0, 16, .wo, 0, 0⟩, ⟨16, 2, .wo, 0, 0⟩, ⟨18, 2, .wo, 0, 0⟩, ⟨20, 1, .wo, 0, 0⟩,
        ⟨21, 16, .wo, 0, 0⟩, ⟨37, 27, .wo, 0, 0⟩] }
  | .WFG_OBJ =>
    { block := .hearth, base := 0x7C38, perMaster := true,
      fields := [⟨0, 16, .ro, 0, 62⟩, ⟨16, 1, .ro, 0, 62⟩, ⟨17, 1, .ro, 0, 62⟩, ⟨18, 1, .ro, 0, 62⟩,
        ⟨19, 1, .ro, 0, 62⟩, ⟨20, 16, .ro, 0, 62⟩, ⟨36, 14, .ro, 0, 62⟩, ⟨50, 4, .ro, 0, 62⟩,
        ⟨54, 10, .ro, 0, 62⟩] }
  | .WFG_OBJ_VAL =>
    { block := .hearth, base := 0x7C40, perMaster := true,
      fields := [⟨0, 32, .ro, 0, 62⟩, ⟨32, 32, .ro, 0, 62⟩] }
  | .WFG_OBJ_SIG =>
    { block := .hearth, base := 0x7C48, perMaster := true,
      fields := [⟨0, 64, .ro, 0, 62⟩] }
  | .WFG_PEER =>
    { block := .hearth, base := 0x28000, n1 := 256,
      fields := [⟨0, 16, .rw, 0, 63⟩, ⟨16, 2, .rw, 0, 63⟩, ⟨18, 1, .rw, 0, 63⟩, ⟨19, 45, .ro, 0, 63⟩] }
  | .HWT_EXP =>
    { block := .anvil, base := 0xC100, n1 := 16, s1 := 0x20, n2 := 4,
      fields := [⟨0, 64, .ro, 0, 62⟩] }
  | .RCV_CMD =>
    { block := .hearth, base := 0xC000,
      fields := [⟨0, 16, .wo, 0, 0⟩, ⟨16, 4, .wo, 0, 0⟩, ⟨20, 4, .wo, 0, 0⟩, ⟨24, 40, .wo, 0, 0⟩] }
  | .RCV_RESULT =>
    { block := .hearth, base := 0xC008, width := 32, perMaster := true,
      fields := [⟨0, 16, .ro, 0, 59⟩, ⟨16, 1, .ro, 0, 59⟩, ⟨17, 15, .ro, 0, 59⟩] }
  | .RCV_CFG =>
    { block := .hearth, base := 0xC010,
      fields := [⟨0, 6, .rws, 0, 63⟩, ⟨6, 1, .rws, 0, 63⟩, ⟨7, 1, .rws, 1, 63⟩, ⟨8, 4, .rws, 3, 63⟩,
        ⟨12, 16, .rws, 0x258, 63⟩, ⟨28, 4, .rws, 0xa, 63⟩, ⟨32, 31, .ro, 0, 63⟩, ⟨63, 1, .wo, 0, 0⟩] }
  | .RCV_STATUS =>
    { block := .hearth, base := 0xC018,
      fields := [⟨0, 32, .ro, 0, 60⟩, ⟨32, 3, .ro, 0, 60⟩, ⟨35, 29, .ro, 0, 60⟩] }
  | .RCV_ESC =>
    { block := .hearth, base := 0xC020,
      fields := [⟨0, 4, .ro, 0, 62⟩, ⟨4, 12, .ro, 0, 62⟩, ⟨16, 16, .ro, 0, 62⟩, ⟨32, 32, .ro, 0, 62⟩] }
  | .RCV_MARK =>
    { block := .hearth, base := 0x30000, n1 := 2048,
      fields := [⟨0, 2, .ro, 0, 60⟩, ⟨2, 1, .ro, 0, 60⟩, ⟨3, 29, .ro, 0, 60⟩, ⟨32, 32, .ro, 0, 60⟩] }
  | .ANV_RCV_STATUS =>
    { block := .anvil, base := 0xD000,
      fields := [⟨0, 4, .ro, 0, 62⟩, ⟨4, 4, .ro, 0, 62⟩, ⟨8, 1, .ro, 0, 62⟩, ⟨9, 1, .ro, 0, 62⟩,
        ⟨10, 1, .ro, 0, 62⟩, ⟨11, 1, .ro, 0, 62⟩, ⟨12, 2, .ro, 0, 62⟩, ⟨14, 6, .ro, 0, 62⟩,
        ⟨20, 44, .ro, 0, 62⟩] }
  | .ANV_RCV_TIME =>
    { block := .anvil, base := 0xD008,
      fields := [⟨0, 64, .ro, 0, 62⟩] }
  | .ANV_RCV_CLASS =>
    { block := .anvil, base := 0xD010,
      fields := [⟨0, 12, .ro, 0, 62⟩, ⟨12, 4, .ro, 0, 62⟩, ⟨16, 11, .ro, 0, 62⟩, ⟨27, 1, .ro, 0, 62⟩,
        ⟨28, 2, .ro, 0, 62⟩, ⟨30, 34, .ro, 0, 62⟩] }
  | .ANV_RCV_COUNT =>
    { block := .anvil, base := 0xD018,
      fields := [⟨0, 16, .ro, 0, 62⟩, ⟨16, 16, .ro, 0, 62⟩, ⟨32, 16, .ro, 0, 62⟩, ⟨48, 16, .ro, 0, 62⟩] }
  | .LDG_CFG =>
    { block := .hearth, base := 0xD000,
      fields := [⟨0, 8, .rws, 0x10, 63⟩, ⟨8, 1, .rws, 1, 63⟩, ⟨9, 5, .rws, 0xa, 63⟩, ⟨14, 5, .rws, 0x14, 63⟩,
        ⟨19, 7, .rws, 0x14, 63⟩, ⟨26, 1, .rws, 0, 63⟩, ⟨27, 36, .ro, 0, 63⟩, ⟨63, 1, .wo, 0, 0⟩] }
  | .LDG_STATUS =>
    { block := .hearth, base := 0xD008,
      fields := [⟨0, 32, .ro, 0, 63⟩, ⟨32, 7, .ro, 0, 63⟩, ⟨39, 1, .ro, 0, 63⟩, ⟨40, 1, .ro, 0, 63⟩,
        ⟨41, 7, .ro, 0, 63⟩, ⟨48, 16, .ro, 0, 63⟩] }
  | .LDG_CHAIN =>
    { block := .hearth, base := 0xD010,
      fields := [⟨0, 64, .ro, 0, 63⟩] }
  | .LDG_SEQ =>
    { block := .hearth, base := 0xD018,
      fields := [⟨0, 64, .ro, 0, 63⟩] }
  | .LDG_RING =>
    { block := .hearth, base := 0xD020,
      fields := [⟨0, 64, .ro, 0, 63⟩] }
  | .LDG_ACK =>
    { block := .hearth, base := 0xD028,
      fields := [⟨0, 64, .rw, 0, 63⟩] }
  | .LDG_CAL_STATUS =>
    { block := .hearth, base := 0xD030,
      fields := [⟨0, 32, .ro, 0, 63⟩, ⟨32, 1, .ro, 0, 63⟩, ⟨33, 6, .ro, 0, 63⟩, ⟨39, 6, .ro, 0, 63⟩,
        ⟨45, 19, .ro, 0, 63⟩] }
  | .LDG_CAL_DEGENERATE =>
    { block := .hearth, base := 0xD038,
      fields := [⟨0, 40, .ro, 0, 63⟩, ⟨40, 24, .ro, 0, 63⟩] }
  | .LDG_TAG_VAL =>
    { block := .hearth, base := 0xD040, perMaster := true,
      fields := [⟨0, 64, .rw, 0, 59⟩] }
  | .LDG_TAG_CMD =>
    { block := .hearth, base := 0xD048,
      fields := [⟨0, 11, .wo, 0, 0⟩, ⟨11, 5, .wo, 0, 0⟩, ⟨16, 32, .wo, 0, 0⟩, ⟨48, 16, .wo, 0, 0⟩] }
  | .LDG_TAG_RESULT =>
    { block := .hearth, base := 0xD050, width := 32, perMaster := true,
      fields := [⟨0, 16, .ro, 0, 59⟩, ⟨16, 16, .ro, 0, 59⟩] }
  | .LDG_PMB_MAP =>
    { block := .hearth, base := 0xD080, n1 := 8,
      fields := [⟨0, 7, .rws, 0, 63⟩, ⟨7, 1, .rws, 0, 63⟩, ⟨8, 8, .rws, 0, 63⟩, ⟨16, 32, .rws, 0, 63⟩,
        ⟨48, 1, .rws, 0, 63⟩, ⟨49, 15, .ro, 0, 63⟩] }
  | .LDG_PMB_STATUS =>
    { block := .hearth, base := 0xD0C0,
      fields := [⟨0, 8, .ro, 0, 63⟩, ⟨8, 16, .ro, 0, 63⟩, ⟨24, 16, .ro, 0, 63⟩, ⟨40, 24, .ro, 0, 63⟩] }
  | .LDG_PMB_GAIN =>
    { block := .hearth, base := 0xD100, n1 := 8,
      fields := [⟨0, 32, .ro, 0x1000000, 63⟩, ⟨32, 32, .ro, 0, 63⟩] }
  | .LDG_OVH =>
    { block := .hearth, base := 0xD140,
      fields := [⟨0, 32, .ro, 0, 63⟩, ⟨32, 32, .ro, 0, 63⟩] }
  | .LDG_OVH_REASON =>
    { block := .hearth, base := 0xD148, n1 := 4,
      fields := [⟨0, 64, .ro, 0, 63⟩] }
  | .LDG_COEF =>
    { block := .hearth, base := 0xD400, n1 := 72,
      fields := [⟨0, 32, .ro, 0, 63⟩, ⟨32, 2, .ro, 0, 63⟩, ⟨34, 7, .ro, 0, 63⟩, ⟨41, 23, .ro, 0, 63⟩] }
  | .LDG_CTX_TAG =>
    { block := .hearth, base := 0x34000, n1 := 2048,
      fields := [⟨0, 64, .ro, 0, 63⟩] }
  | .LDG_ACCT =>
    { block := .hearth, base := 0x38000, n1 := 2051,
      fields := [⟨0, 64, .ro, 0, 63⟩] }
  | .LDG_RAIL =>
    { block := .anvil, base := 0xE000, n1 := 4, s1 := 0x10,
      fields := [⟨0, 64, .ro, 0, 63⟩] }
  | .LDG_RAIL_SMP =>
    { block := .anvil, base := 0xE008, n1 := 4, s1 := 0x10,
      fields := [⟨0, 16, .ro, 0, 63⟩, ⟨16, 16, .ro, 0, 63⟩, ⟨32, 32, .ro, 0, 63⟩] }
  | .LDG_ATTR =>
    { block := .anvil, base := 0xE100,
      fields := [⟨0, 14, .rc, 0, 63⟩, ⟨14, 2, .ro, 0, 63⟩, ⟨16, 32, .ro, 0, 63⟩, ⟨48, 16, .ro, 0, 63⟩] }
  | .TXN_CMD =>
    { block := .hearth, base := 0xE000,
      fields := [⟨0, 2, .wo, 0, 0⟩, ⟨2, 4, .wo, 0, 0⟩, ⟨6, 58, .wo, 0, 0⟩] }
  | .TXN_AT =>
    { block := .hearth, base := 0xE008, perMaster := true,
      fields := [⟨0, 64, .rw, 0, 59⟩] }
  | .TXN_RESULT =>
    { block := .hearth, base := 0xE010, width := 32, perMaster := true,
      fields := [⟨0, 16, .ro, 0, 59⟩, ⟨16, 1, .ro, 0, 59⟩, ⟨17, 4, .ro, 0, 59⟩, ⟨21, 11, .ro, 0, 59⟩] }
  | .TXN_RPT =>
    { block := .hearth, base := 0xE018, perMaster := true,
      fields := [⟨0, 48, .rw, 0, 59⟩, ⟨48, 16, .rw, 0, 59⟩] }
  | .TXN_STATE =>
    { block := .hearth, base := 0xE100, n1 := 16, s1 := 0x20,
      fields := [⟨0, 3, .ro, 0, 58⟩, ⟨3, 1, .ro, 0, 58⟩, ⟨4, 4, .ro, 0, 58⟩, ⟨8, 13, .ro, 0, 58⟩,
        ⟨21, 12, .ro, 0, 58⟩, ⟨33, 16, .ro, 0, 58⟩, ⟨49, 1, .ro, 0, 58⟩, ⟨50, 14, .ro, 0, 58⟩] }
  | .TXN_TIME =>
    { block := .hearth, base := 0xE108, n1 := 16, s1 := 0x20,
      fields := [⟨0, 64, .ro, 0, 58⟩] }
  | .TXN_OWNER =>
    { block := .hearth, base := 0xE110, n1 := 16, s1 := 0x20,
      fields := [⟨0, 2, .ro, 0, 58⟩, ⟨2, 16, .ro, 0, 58⟩, ⟨18, 46, .ro, 0, 58⟩] }
  | .SPK_TXN_STAGE =>
    { block := .spoke, base := 0xF000,
      fields := [⟨0, 13, .ro, 0, 62⟩, ⟨13, 3, .ro, 0, 62⟩, ⟨16, 16, .ro, 0, 63⟩, ⟨32, 32, .ro, 0, 63⟩] }
  | .HRT_FO_CMD =>
    { block := .hearth, base := 0xF000, width := 32,
      fields := [⟨0, 2, .wo, 0, 0⟩, ⟨2, 30, .wo, 0, 0⟩] }
  | .HRT_FO_CFG =>
    { block := .hearth, base := 0xF008, width := 32,
      fields := [⟨0, 8, .rw, 0x32, 63⟩, ⟨8, 8, .rw, 0x14, 63⟩, ⟨16, 1, .rw, 1, 63⟩, ⟨17, 15, .ro, 0, 63⟩] }
  | .HRT_FO_STATUS =>
    { block := .hearth, base := 0xF010,
      fields := [⟨0, 2, .ro, 0, 63⟩, ⟨2, 1, .ro, 0, 63⟩, ⟨3, 1, .ro, 0, 63⟩, ⟨4, 4, .ro, 0, 63⟩,
        ⟨8, 16, .ro, 0, 63⟩, ⟨24, 16, .ro, 0, 63⟩, ⟨40, 24, .ro, 0, 63⟩] }
  | .HRT_FO_TIME =>
    { block := .hearth, base := 0xF018,
      fields := [⟨0, 64, .ro, 0, 63⟩] }
  | .HRT_UPD_CMD =>
    { block := .hearth, base := 0xF100,
      fields := [⟨0, 3, .wo, 0, 0⟩, ⟨3, 1, .wo, 0, 0⟩, ⟨4, 4, .wo, 0, 0⟩, ⟨8, 24, .wo, 0, 0⟩,
        ⟨32, 24, .wo, 0, 0⟩, ⟨56, 8, .wo, 0, 0⟩] }
  | .HRT_UPD_SRC =>
    { block := .hearth, base := 0xF108,
      fields := [⟨0, 48, .rw, 0, 59⟩, ⟨48, 16, .ro, 0, 59⟩] }
  | .HRT_UPD_STATUS =>
    { block := .hearth, base := 0xF110,
      fields := [⟨0, 16, .ro, 0, 59⟩, ⟨16, 1, .ro, 0, 59⟩, ⟨17, 1, .ro, 0, 63⟩, ⟨18, 1, .ro, 0, 63⟩,
        ⟨19, 1, .ro, 0, 63⟩, ⟨20, 1, .ro, 0, 63⟩, ⟨21, 43, .ro, 0, 63⟩] }
  | .CRU_MAPOUT =>
    { block := .hearth, base := 0x9418, width := 32,
      fields := [⟨0, 6, .wo, 0, 0⟩, ⟨6, 1, .wo, 0, 0⟩, ⟨7, 25, .wo, 0, 0⟩] }
  | .CRU_MAPOUT_STATUS =>
    { block := .hearth, base := 0x9420,
      fields := [⟨0, 16, .ro, 0, 63⟩, ⟨16, 1, .ro, 0, 63⟩, ⟨17, 15, .ro, 0, 63⟩, ⟨32, 16, .ro, 0, 63⟩,
        ⟨48, 16, .ro, 0, 63⟩] }
  | .TIM_RECAL =>
    { block := .hearth, base := 0x1040, width := 32,
      fields := [⟨0, 5, .wo, 0, 0⟩, ⟨5, 1, .wo, 0, 0⟩, ⟨6, 25, .wo, 0, 0⟩, ⟨31, 1, .ro, 0, 63⟩] }
  | .LDG_COEF_LOAD =>
    { block := .hearth, base := 0xD180,
      fields := [⟨0, 48, .wo, 0, 0⟩, ⟨48, 1, .wo, 0, 0⟩, ⟨49, 1, .ro, 0, 63⟩, ⟨50, 14, .ro, 0, 63⟩] }
  | .STK_DBG_CTL =>
    { block := .dbg, base := 0x0,
      fields := [⟨0, 1, .rw, 0, 63⟩, ⟨1, 1, .wo, 0, 0⟩, ⟨2, 1, .wo, 0, 0⟩, ⟨3, 1, .wo, 0, 0⟩,
        ⟨4, 1, .rw, 0, 63⟩, ⟨5, 1, .rw, 0, 63⟩, ⟨6, 10, .ro, 0, 63⟩, ⟨16, 16, .rw, 1, 63⟩,
        ⟨32, 32, .ro, 0, 63⟩] }
  | .STK_DBG_STATUS =>
    { block := .dbg, base := 0x8,
      fields := [⟨0, 3, .ro, 0, 63⟩, ⟨3, 4, .ro, 0, 63⟩, ⟨7, 2, .ro, 0, 63⟩, ⟨9, 16, .ro, 0, 63⟩,
        ⟨25, 16, .ro, 0, 63⟩, ⟨41, 23, .ro, 0, 63⟩] }
  | .STK_DBG_BP =>
    { block := .dbg, base := 0x10, n1 := 2,
      fields := [⟨0, 1, .rw, 0, 63⟩, ⟨1, 1, .ro, 0, 63⟩, ⟨2, 18, .rw, 0, 63⟩, ⟨20, 44, .ro, 0, 63⟩] }
  | .STK_DBG_LADDR =>
    { block := .dbg, base := 0x20,
      fields := [⟨0, 3, .ro, 0, 63⟩, ⟨3, 17, .rw, 0, 63⟩, ⟨20, 12, .ro, 0, 63⟩, ⟨32, 1, .rw, 0, 63⟩,
        ⟨33, 31, .ro, 0, 63⟩] }
  | .STK_DBG_LDATA =>
    { block := .dbg, base := 0x28,
      fields := [⟨0, 64, .rw, 0, 0⟩] }
  | .STK_DBG_PC =>
    { block := .dbg, base := 0x30,
      fields := [⟨0, 64, .rw, 0, 47⟩] }
  | .STK_DBG_GPR =>
    { block := .dbg, base := 0x100, n1 := 32,
      fields := [⟨0, 64, .rw, 0, 47⟩] }
  | .STK_VT_OUT =>
    { block := .dbg, base := 0x40,
      fields := [⟨0, 64, .ro, 0, 63⟩] }
  | .STK_VT_IN =>
    { block := .dbg, base := 0x48,
      fields := [⟨0, 64, .wo, 0, 63⟩] }
  | .STK_VT_STAT =>
    { block := .dbg, base := 0x50, width := 32,
      fields := [⟨0, 1, .w1c, 0, 63⟩, ⟨1, 1, .ro, 0, 63⟩, ⟨2, 30, .ro, 0, 63⟩] }
  | .PAT_ADDR =>
    { block := .hearth, base := 0x12000, n1 := 64, s1 := 0x10,
      fields := [⟨0, 3, .ro, 0, 63⟩, ⟨3, 23, .rws, 0, 63⟩, ⟨26, 2, .rws, 0, 63⟩, ⟨28, 1, .rws, 0, 63⟩,
        ⟨29, 35, .ro, 0, 63⟩] }
  | .PAT_DATA =>
    { block := .hearth, base := 0x12008, n1 := 64, s1 := 0x10,
      fields := [⟨0, 64, .rws, 0, 63⟩] }
  | .PAT_ARM =>
    { block := .hearth, base := 0x12400, width := 32,
      fields := [⟨0, 1, .wo, 0, 0⟩, ⟨1, 31, .ro, 0, 63⟩] }
  | .PAT_STATUS =>
    { block := .hearth, base := 0x12408,
      fields := [⟨0, 7, .ro, 0, 63⟩, ⟨7, 9, .ro, 0, 63⟩, ⟨16, 16, .ro, 0, 63⟩, ⟨32, 16, .ro, 0, 63⟩,
        ⟨48, 16, .ro, 0, 63⟩] }
  | .AUT_STATUS =>
    { block := .hearth, base := 0x14000,
      fields := [⟨0, 1, .ro, 0, 63⟩, ⟨1, 5, .ro, 0, 59⟩, ⟨6, 10, .ro, 0, 63⟩, ⟨16, 16, .ro, 0, 63⟩,
        ⟨32, 32, .ro, 0, 63⟩] }
  | .AUT_IDENT =>
    { block := .hearth, base := 0x14008, n1 := 3,
      fields := [⟨0, 64, .ro, 0, 63⟩] }
  | .AUT_ANCHOR =>
    { block := .hearth, base := 0x14100, n1 := 8,
      fields := [⟨0, 1, .ro, 0, 63⟩, ⟨1, 1, .ro, 0, 63⟩, ⟨2, 3, .ro, 0, 63⟩, ⟨5, 27, .ro, 0, 63⟩,
        ⟨32, 32, .ro, 0, 63⟩] }
  | .AUT_SESS =>
    { block := .hearth, base := 0x14200, n1 := 20,
      fields := [⟨0, 1, .ro, 0, 59⟩, ⟨1, 3, .ro, 0, 59⟩, ⟨4, 2, .ro, 0, 59⟩, ⟨6, 3, .ro, 0, 59⟩,
        ⟨9, 1, .ro, 0, 59⟩, ⟨10, 22, .ro, 0, 59⟩, ⟨32, 32, .ro, 0, 59⟩] }
  | .AUT_RCPT_CMD =>
    { block := .hearth, base := 0x14400,
      fields := [⟨0, 48, .wo, 0, 0⟩, ⟨48, 3, .wo, 0, 0⟩, ⟨51, 2, .wo, 0, 0⟩, ⟨53, 11, .wo, 0, 0⟩] }
  | .AUT_RCPT =>
    { block := .hearth, base := 0x14410, n1 := 8,
      fields := [⟨0, 1, .ro, 0, 63⟩, ⟨1, 1, .ro, 0, 62⟩, ⟨2, 30, .ro, 0, 63⟩, ⟨32, 32, .ro, 0, 63⟩] }
  | .VYN_CFG =>
    { block := .hearth, base := 0x15000, width := 32,
      fields := [⟨0, 1, .rw, 1, 63⟩, ⟨1, 2, .rw, 2, 63⟩, ⟨3, 29, .ro, 0, 63⟩] }
  | .VYN_STATUS =>
    { block := .hearth, base := 0x15008,
      fields := [⟨0, 3, .ro, 0, 63⟩, ⟨3, 2, .ro, 0, 63⟩, ⟨5, 4, .ro, 0, 63⟩, ⟨9, 2, .ro, 0, 63⟩,
        ⟨11, 21, .ro, 0, 63⟩, ⟨32, 16, .ro, 0, 63⟩, ⟨48, 16, .ro, 0, 63⟩] }
  | .VYN_ERR =>
    { block := .hearth, base := 0x15010,
      fields := [⟨0, 16, .ro, 0, 63⟩, ⟨16, 16, .ro, 0, 63⟩, ⟨32, 16, .ro, 0, 63⟩, ⟨48, 16, .ro, 0, 63⟩] }
  | .HRT_EXP_CMD =>
    { block := .hearth, base := 0x16000, perMaster := true,
      fields := [⟨0, 16, .wo, 0, 0⟩, ⟨16, 8, .wo, 0, 0⟩, ⟨24, 1, .wo, 0, 0⟩, ⟨25, 1, .wo, 0, 0⟩,
        ⟨26, 6, .wo, 0, 0⟩, ⟨32, 32, .wo, 0, 0⟩] }
  | .HRT_EXP_DEST =>
    { block := .hearth, base := 0x16008, perMaster := true,
      fields := [⟨0, 64, .rw, 0, 59⟩] }
  | .HRT_EXP_STATUS =>
    { block := .hearth, base := 0x16010, perMaster := true,
      fields := [⟨0, 16, .ro, 0, 59⟩, ⟨16, 2, .ro, 0, 59⟩, ⟨18, 14, .ro, 0, 59⟩, ⟨32, 32, .ro, 0, 59⟩] }
  | .HRT_NOTIFY =>
    { block := .hearth, base := 0x16100,
      fields := [⟨0, 8, .rw, 0, 63⟩, ⟨8, 8, .rw, 0, 63⟩, ⟨16, 1, .rw, 0, 63⟩, ⟨17, 1, .rw, 0, 63⟩,
        ⟨18, 6, .ro, 0, 63⟩, ⟨24, 8, .rw, 0, 63⟩, ⟨32, 32, .ro, 0, 63⟩] }
  | .HRT_ALERT =>
    { block := .hearth, base := 0x16108, width := 32,
      fields := [⟨0, 8, .w1c, 0, 63⟩, ⟨8, 8, .rw, 0x1f, 63⟩, ⟨16, 16, .ro, 0, 63⟩] }
  | .SPK_SOCK =>
    { block := .spoke, base := 0x60000, n1 := 256, s1 := 0x400, n2 := 128,
      fields := [⟨0, 64, .ro, 0, 63⟩] }
  | .SPK_SOCK_STATUS =>
    { block := .spoke, base := 0x52000, n1 := 256,
      fields := [⟨0, 1, .ro, 0, 63⟩, ⟨1, 3, .ro, 0, 63⟩, ⟨4, 4, .ro, 0, 63⟩, ⟨8, 8, .ro, 0, 63⟩,
        ⟨16, 16, .ro, 0, 63⟩, ⟨32, 16, .ro, 0, 63⟩, ⟨48, 16, .ro, 0, 63⟩] }
  | .HRT_RESET_CAUSE =>
    { block := .hearth, base := 0x17000,
      fields := [⟨0, 4, .ro, 0, 63⟩, ⟨4, 4, .ro, 0, 63⟩, ⟨8, 8, .ro, 0, 63⟩, ⟨16, 16, .ro, 0, 63⟩,
        ⟨32, 16, .ro, 0, 63⟩, ⟨48, 16, .ro, 0, 63⟩] }
  | .HRT_BOOT_STATUS =>
    { block := .hearth, base := 0x17008,
      fields := [⟨0, 4, .ro, 0, 63⟩, ⟨4, 1, .ro, 0, 63⟩, ⟨5, 1, .ro, 0, 63⟩, ⟨6, 2, .ro, 0, 63⟩,
        ⟨8, 4, .ro, 8, 63⟩, ⟨12, 4, .ro, 8, 63⟩, ⟨16, 8, .ro, 0, 63⟩, ⟨24, 8, .ro, 0, 63⟩,
        ⟨32, 32, .ro, 0, 63⟩] }
  | .HRT_BOOT_TIME =>
    { block := .hearth, base := 0x17010,
      fields := [⟨0, 64, .ro, 0, 63⟩] }
  | .HRT_RESET_CMD =>
    { block := .hearth, base := 0x17018, width := 32,
      fields := [⟨0, 2, .wo, 0, 0⟩, ⟨2, 30, .wo, 0, 0⟩] }
  | .HRT_EMBER_CMD =>
    { block := .hearth, base := 0x17020, width := 32,
      fields := [⟨0, 1, .wo, 0, 0⟩, ⟨1, 31, .wo, 0, 0⟩] }
  | .HRT_EMBER_CFG =>
    { block := .hearth, base := 0x17028, width := 32,
      fields := [⟨0, 8, .rw, 0x14, 63⟩, ⟨8, 1, .rw, 1, 63⟩, ⟨9, 23, .ro, 0, 63⟩] }
  | .HRT_EMBER_STATUS =>
    { block := .hearth, base := 0x17030,
      fields := [⟨0, 2, .ro, 0, 59⟩, ⟨2, 7, .ro, 0, 59⟩, ⟨9, 2, .ro, 0, 63⟩, ⟨11, 21, .ro, 0, 63⟩,
        ⟨32, 16, .ro, 0, 63⟩, ⟨48, 16, .ro, 0, 63⟩] }
  | .HRT_PWR_DOM =>
    { block := .hearth, base := 0x17100, n1 := 2,
      fields := [⟨0, 64, .ro, 0, 63⟩] }
  | .HRT_PWR_FAULT =>
    { block := .hearth, base := 0x17110, n1 := 2,
      fields := [⟨0, 64, .w1c, 0, 63⟩] }

/-- The registers of spec/01_hub_anatomy.md. -/
def Reg.regs01 : List Reg :=
  [.HRT_ARCH, .HRT_TOPOLOGY, .HRT_STATE]

/-- The registers of spec/02_chip_time_and_events.md. -/
def Reg.regs02 : List Reg :=
  [.TIM_NOW, .TIM_STATUS, .TIM_XCHIP_CFG, .TIM_XCHIP_OFFSET, .TIM_STEP, .TIM_LAST_STEP,
   .TIM_WALL_OFFSET, .TIM_WALL_STAMP, .TIM_TRIM, .TRC_RING_CFG, .TRC_FILL, .TRC_ARM,
   .TRC_CTRL, .TRC_SEG_BASE, .TRC_SEG_STATUS, .TRC_SEG_WRAPS, .TRC_FILTER, .TRC_LOSS_TOTAL,
   .TRC_LOSS_L7, .TRC_COLLECT]

/-- The registers of spec/03_striker_instruction_set.md. -/
def Reg.regs03 : List Reg :=
  [.STK_ID, .STK_EPC, .STK_CAUSE, .STK_BADADDR, .STK_EVEC, .STK_XCTL,
   .STK_WDOG, .STK_WDOG_COUNT, .STK_WDOG_KICK, .STK_RVEC, .STK_AUTH, .STK_TXN,
   .STK_HSTFAIL, .STK_MSGSRC, .STK_INSTRET]

/-- The registers of spec/04_striker_programs.md. -/
def Reg.regs04 : List Reg :=
  [.HRT_RCP_LOAD, .HRT_RCP_STATUS, .STK_SLOTDESC, .STK_SLOTPEND, .STK_SLOTOVF, .STK_SLOTARMED,
   .LCK_REQ, .LCK_RESULT, .LCK_STATE, .HTRG_ARM, .TRG_ARM, .HTRG_STATUS,
   .TRG_STATUS, .HTRG_FIRED, .TRG_FIRED, .SPK_HGRP, .HRT_HGRP_DIES, .HRT_HGRP_ARM,
   .HTRG_ENTRY, .TRG_ENTRY]

/-- The registers of spec/05_run_control.md. -/
def Reg.regs05 : List Reg :=
  [.HRT_HGRP_CTL, .HRT_RC_CMD, .HRT_RC_RVEC, .HRT_RC_RESULT, .SPK_UNIT_STATE, .SPK_UNIT_CTL,
   .SPK_STEP_CFG, .SPK_PPQ_STATUS, .SPK_RC_COUNT, .SPK_PPQ_ENTRY, .SPK_PPQ_DATA]

/-- The registers of spec/06_quench_and_reheat.md. -/
def Reg.regs06 : List Reg :=
  [.HRT_QCH_CMD, .HRT_QCH_CFG, .HRT_QCH_STATUS, .HRT_QCH_TIME, .HRT_QCH_COUNT, .BLW_CFG,
   .BLW_RATE, .BLW_LAST, .BLW_RAIL, .BNK_CFG, .BNK_STATUS, .BNK_LINK]

/-- The registers of spec/07_snapshot_capture.md. -/
def Reg.regs07 : List Reg :=
  [.CRU_PLAN, .CRU_START, .CRU_RESULT, .CRU_CANCEL, .CRU_RELEASE, .CRU_JOB,
   .CRU_JOB_MANIFEST, .CRU_SPILL_BASE, .CRU_SPILL, .CRU_GROUPS, .CRU_NODE, .SPK_CAP_STATUS,
   .SPK_CAP_ERR]

/-- The registers of spec/08_swage_compression.md. -/
def Reg.regs08 : List Reg :=
  [.SWG_CHAIN, .SWG_CANCEL, .SWG_DEC_LIMIT, .SWG_ENG, .SWG_JOB, .SWG_JOB_DESC,
   .SWG_JOB_PROG, .SWG_COUNT]

/-- The registers of spec/09_spine_arbitration.md. -/
def Reg.regs09 : List Reg :=
  [.SPN_REQ, .SPN_QUOTA, .SPN_ARM, .SPN_OUT, .SPN_OUT_BEATS, .SPN_HOG,
   .SPN_MAXWAIT]

/-- The registers of spec/10_hang_watch.md. -/
def Reg.regs10 : List Reg :=
  [.HWT_CTX_CFG, .HWT_CTX_STATUS, .HWT_CFG, .HWT_ARM, .HWT_EST_SEL, .HWT_EST,
   .HWT_WHEEL, .HWT_EXP_HEAD, .WFG_ROOT, .WFG_ROOT_AUX, .WFG_ROOT_TIME, .WFG_CFG,
   .WFG_STATUS, .WFG_CMD, .WFG_OBJ_CMD, .WFG_OBJ, .WFG_OBJ_VAL, .WFG_OBJ_SIG,
   .WFG_PEER, .HWT_EXP]

/-- The registers of spec/11_fencing_and_recovery.md. -/
def Reg.regs11 : List Reg :=
  [.RCV_CMD, .RCV_RESULT, .RCV_CFG, .RCV_STATUS, .RCV_ESC, .RCV_MARK,
   .ANV_RCV_STATUS, .ANV_RCV_TIME, .ANV_RCV_CLASS, .ANV_RCV_COUNT]

/-- The registers of spec/12_energy_ledger.md. -/
def Reg.regs12 : List Reg :=
  [.LDG_CFG, .LDG_STATUS, .LDG_CHAIN, .LDG_SEQ, .LDG_RING, .LDG_ACK,
   .LDG_CAL_STATUS, .LDG_CAL_DEGENERATE, .LDG_TAG_VAL, .LDG_TAG_CMD, .LDG_TAG_RESULT, .LDG_PMB_MAP,
   .LDG_PMB_STATUS, .LDG_PMB_GAIN, .LDG_OVH, .LDG_OVH_REASON, .LDG_COEF, .LDG_CTX_TAG,
   .LDG_ACCT, .LDG_RAIL, .LDG_RAIL_SMP, .LDG_ATTR]

/-- The registers of spec/13_transactions_and_live_update.md. -/
def Reg.regs13 : List Reg :=
  [.TXN_CMD, .TXN_AT, .TXN_RESULT, .TXN_RPT, .TXN_STATE, .TXN_TIME,
   .TXN_OWNER, .SPK_TXN_STAGE, .HRT_FO_CMD, .HRT_FO_CFG, .HRT_FO_STATUS, .HRT_FO_TIME,
   .HRT_UPD_CMD, .HRT_UPD_SRC, .HRT_UPD_STATUS, .CRU_MAPOUT, .CRU_MAPOUT_STATUS, .TIM_RECAL,
   .LDG_COEF_LOAD]

/-- The registers of spec/14_hub_self_debug.md. -/
def Reg.regs14 : List Reg :=
  [.STK_DBG_CTL, .STK_DBG_STATUS, .STK_DBG_BP, .STK_DBG_LADDR, .STK_DBG_LDATA, .STK_DBG_PC,
   .STK_DBG_GPR, .STK_VT_OUT, .STK_VT_IN, .STK_VT_STAT, .PAT_ADDR, .PAT_DATA,
   .PAT_ARM, .PAT_STATUS]

/-- The registers of spec/15_external_ports.md. -/
def Reg.regs15 : List Reg :=
  [.AUT_STATUS, .AUT_IDENT, .AUT_ANCHOR, .AUT_SESS, .AUT_RCPT_CMD, .AUT_RCPT,
   .VYN_CFG, .VYN_STATUS, .VYN_ERR, .HRT_EXP_CMD, .HRT_EXP_DEST, .HRT_EXP_STATUS,
   .HRT_NOTIFY, .HRT_ALERT]

/-- The registers of spec/16_unit_socket.md. -/
def Reg.regs16 : List Reg :=
  [.SPK_SOCK, .SPK_SOCK_STATUS]

/-- The registers of spec/17_resets_power_startup.md. -/
def Reg.regs17 : List Reg :=
  [.HRT_RESET_CAUSE, .HRT_BOOT_STATUS, .HRT_BOOT_TIME, .HRT_RESET_CMD, .HRT_EMBER_CMD, .HRT_EMBER_CFG,
   .HRT_EMBER_STATUS, .HRT_PWR_DOM, .HRT_PWR_FAULT]

/-- Every register. -/
def Reg.all : List Reg :=
  Reg.regs01 ++ Reg.regs02 ++ Reg.regs03 ++ Reg.regs04 ++ Reg.regs05 ++ Reg.regs06 ++ Reg.regs07 ++ Reg.regs08 ++ Reg.regs09 ++ Reg.regs10 ++ Reg.regs11 ++ Reg.regs12 ++ Reg.regs13 ++ Reg.regs14 ++ Reg.regs15 ++ Reg.regs16 ++ Reg.regs17

/-- A named field of a register: its low bit and its length. -/
structure Fld where
  reg : Reg
  lo : Nat
  len : Nat
  deriving DecidableEq, Repr

end Sys2Proof.Machine
end

