-- ==== Sys2Proof/Machine/Fields.lean ====
section
/-! DEFINITION. The named fields of the registers, as the spec's register tables name them: `F.<register>_<field>`. -/

namespace Sys2Proof.Machine.F

open Sys2Proof.Machine

def HRT_ARCH_arch_level : Fld := ⟨.HRT_ARCH, 0, 8⟩
def HRT_ARCH_impl_id : Fld := ⟨.HRT_ARCH, 8, 8⟩
def HRT_TOPOLOGY_anvil_count : Fld := ⟨.HRT_TOPOLOGY, 0, 4⟩
def HRT_TOPOLOGY_tongs_count : Fld := ⟨.HRT_TOPOLOGY, 4, 5⟩
def HRT_TOPOLOGY_striker_active : Fld := ⟨.HRT_TOPOLOGY, 16, 6⟩
def HRT_TOPOLOGY_striker_physical : Fld := ⟨.HRT_TOPOLOGY, 22, 6⟩
def HRT_TOPOLOGY_hearth_a_node : Fld := ⟨.HRT_TOPOLOGY, 32, 3⟩
def HRT_TOPOLOGY_hearth_b_node : Fld := ⟨.HRT_TOPOLOGY, 35, 3⟩
def HRT_TOPOLOGY_crucible_groups_built : Fld := ⟨.HRT_TOPOLOGY, 38, 7⟩
def HRT_STATE_state : Fld := ⟨.HRT_STATE, 0, 4⟩
def HRT_STATE_quench_held : Fld := ⟨.HRT_STATE, 4, 1⟩
def HRT_STATE_ember : Fld := ⟨.HRT_STATE, 5, 1⟩
def HRT_STATE_active_hearth : Fld := ⟨.HRT_STATE, 6, 1⟩
def HRT_STATE_standby_ready : Fld := ⟨.HRT_STATE, 7, 1⟩
def HRT_STATE_partitions_recovering : Fld := ⟨.HRT_STATE, 8, 8⟩
def TIM_NOW_now : Fld := ⟨.TIM_NOW, 0, 64⟩
def TIM_STATUS_pll_locked : Fld := ⟨.TIM_STATUS, 0, 1⟩
def TIM_STATUS_xchip_state : Fld := ⟨.TIM_STATUS, 1, 3⟩
def TIM_STATUS_wall_valid : Fld := ⟨.TIM_STATUS, 4, 1⟩
def TIM_STATUS_trims_calibrated : Fld := ⟨.TIM_STATUS, 5, 1⟩
def TIM_XCHIP_CFG_role : Fld := ⟨.TIM_XCHIP_CFG, 0, 2⟩
def TIM_XCHIP_CFG_parent_link : Fld := ⟨.TIM_XCHIP_CFG, 2, 6⟩
def TIM_XCHIP_CFG_interval_log2 : Fld := ⟨.TIM_XCHIP_CFG, 8, 4⟩
def TIM_XCHIP_CFG_arm : Fld := ⟨.TIM_XCHIP_CFG, 31, 1⟩
def TIM_XCHIP_OFFSET_last_offset : Fld := ⟨.TIM_XCHIP_OFFSET, 0, 32⟩
def TIM_XCHIP_OFFSET_holdover_bound_ns : Fld := ⟨.TIM_XCHIP_OFFSET, 32, 32⟩
def TIM_STEP_ticks : Fld := ⟨.TIM_STEP, 0, 64⟩
def TIM_LAST_STEP_ticks : Fld := ⟨.TIM_LAST_STEP, 0, 64⟩
def TIM_WALL_OFFSET_offset_ns : Fld := ⟨.TIM_WALL_OFFSET, 0, 64⟩
def TIM_WALL_STAMP_chip_time : Fld := ⟨.TIM_WALL_STAMP, 0, 64⟩
def TIM_TRIM_trim : Fld := ⟨.TIM_TRIM, 0, 12⟩
def TIM_TRIM_measured : Fld := ⟨.TIM_TRIM, 12, 12⟩
def TIM_TRIM_check_errors : Fld := ⟨.TIM_TRIM, 24, 8⟩
def TRC_RING_CFG_seg_size : Fld := ⟨.TRC_RING_CFG, 0, 5⟩
def TRC_RING_CFG_policy : Fld := ⟨.TRC_RING_CFG, 5, 2⟩
def TRC_RING_CFG_stop_scope : Fld := ⟨.TRC_RING_CFG, 7, 1⟩
def TRC_FILL_threshold : Fld := ⟨.TRC_FILL, 0, 8⟩
def TRC_ARM_arm : Fld := ⟨.TRC_ARM, 0, 1⟩
def TRC_CTRL_start : Fld := ⟨.TRC_CTRL, 0, 1⟩
def TRC_CTRL_stop : Fld := ⟨.TRC_CTRL, 1, 1⟩
def TRC_CTRL_running : Fld := ⟨.TRC_CTRL, 2, 1⟩
def TRC_SEG_BASE_base : Fld := ⟨.TRC_SEG_BASE, 0, 48⟩
def TRC_SEG_STATUS_wptr : Fld := ⟨.TRC_SEG_STATUS, 0, 30⟩
def TRC_SEG_STATUS_stopped : Fld := ⟨.TRC_SEG_STATUS, 30, 1⟩
def TRC_SEG_STATUS_fill : Fld := ⟨.TRC_SEG_STATUS, 32, 30⟩
def TRC_SEG_WRAPS_wraps : Fld := ⟨.TRC_SEG_WRAPS, 0, 32⟩
def TRC_FILTER_unit_lo : Fld := ⟨.TRC_FILTER, 0, 11⟩
def TRC_FILTER_unit_hi : Fld := ⟨.TRC_FILTER, 11, 11⟩
def TRC_FILTER_level_en : Fld := ⟨.TRC_FILTER, 22, 8⟩
def TRC_FILTER_ctx_value : Fld := ⟨.TRC_FILTER, 32, 11⟩
def TRC_FILTER_ctx_mask : Fld := ⟨.TRC_FILTER, 43, 11⟩
def TRC_FILTER_ctx_levels : Fld := ⟨.TRC_FILTER, 54, 8⟩
def TRC_LOSS_TOTAL_dropped : Fld := ⟨.TRC_LOSS_TOTAL, 0, 64⟩
def TRC_LOSS_L7_dropped : Fld := ⟨.TRC_LOSS_L7, 0, 64⟩
def TRC_COLLECT_bad_class : Fld := ⟨.TRC_COLLECT, 0, 16⟩
def TRC_COLLECT_fifo_peak : Fld := ⟨.TRC_COLLECT, 16, 10⟩
def STK_ID_source_id : Fld := ⟨.STK_ID, 0, 16⟩
def STK_ID_kind : Fld := ⟨.STK_ID, 16, 2⟩
def STK_ID_local_kib : Fld := ⟨.STK_ID, 32, 9⟩
def STK_EPC_epc : Fld := ⟨.STK_EPC, 0, 64⟩
def STK_CAUSE_cause : Fld := ⟨.STK_CAUSE, 0, 8⟩
def STK_CAUSE_active : Fld := ⟨.STK_CAUSE, 8, 1⟩
def STK_BADADDR_addr : Fld := ⟨.STK_BADADDR, 0, 64⟩
def STK_EVEC_vector : Fld := ⟨.STK_EVEC, 2, 62⟩
def STK_XCTL_exit : Fld := ⟨.STK_XCTL, 0, 1⟩
def STK_WDOG_reload_us : Fld := ⟨.STK_WDOG, 0, 32⟩
def STK_WDOG_enable : Fld := ⟨.STK_WDOG, 32, 1⟩
def STK_WDOG_COUNT_remaining_us : Fld := ⟨.STK_WDOG_COUNT, 0, 32⟩
def STK_WDOG_KICK_kick : Fld := ⟨.STK_WDOG_KICK, 0, 1⟩
def STK_RVEC_addr : Fld := ⟨.STK_RVEC, 3, 29⟩
def STK_RVEC_capacity : Fld := ⟨.STK_RVEC, 32, 16⟩
def STK_AUTH_level : Fld := ⟨.STK_AUTH, 0, 3⟩
def STK_TXN_id : Fld := ⟨.STK_TXN, 0, 4⟩
def STK_TXN_open : Fld := ⟨.STK_TXN, 4, 1⟩
def STK_HSTFAIL_addr : Fld := ⟨.STK_HSTFAIL, 0, 48⟩
def STK_HSTFAIL_status : Fld := ⟨.STK_HSTFAIL, 48, 16⟩
def STK_MSGSRC_sender : Fld := ⟨.STK_MSGSRC, 0, 16⟩
def STK_INSTRET_count : Fld := ⟨.STK_INSTRET, 0, 64⟩
def HRT_RCP_LOAD_image : Fld := ⟨.HRT_RCP_LOAD, 0, 48⟩
def HRT_RCP_LOAD_target : Fld := ⟨.HRT_RCP_LOAD, 48, 16⟩
def HRT_RCP_STATUS_result : Fld := ⟨.HRT_RCP_STATUS, 0, 4⟩
def HRT_RCP_STATUS_busy : Fld := ⟨.HRT_RCP_STATUS, 4, 1⟩
def HRT_RCP_STATUS_target : Fld := ⟨.HRT_RCP_STATUS, 16, 16⟩
def HRT_RCP_STATUS_recipe_id : Fld := ⟨.HRT_RCP_STATUS, 32, 32⟩
def STK_SLOTDESC_descriptor : Fld := ⟨.STK_SLOTDESC, 0, 64⟩
def STK_SLOTPEND_pending : Fld := ⟨.STK_SLOTPEND, 0, 64⟩
def STK_SLOTOVF_overflow : Fld := ⟨.STK_SLOTOVF, 0, 64⟩
def STK_SLOTARMED_armed : Fld := ⟨.STK_SLOTARMED, 0, 64⟩
def LCK_REQ_lock : Fld := ⟨.LCK_REQ, 0, 8⟩
def LCK_REQ_op : Fld := ⟨.LCK_REQ, 8, 2⟩
def LCK_REQ_wait_us : Fld := ⟨.LCK_REQ, 16, 32⟩
def LCK_RESULT_status : Fld := ⟨.LCK_RESULT, 0, 16⟩
def LCK_RESULT_done : Fld := ⟨.LCK_RESULT, 16, 1⟩
def LCK_RESULT_grant_count : Fld := ⟨.LCK_RESULT, 32, 32⟩
def LCK_STATE_held : Fld := ⟨.LCK_STATE, 0, 1⟩
def LCK_STATE_broken : Fld := ⟨.LCK_STATE, 1, 1⟩
def LCK_STATE_owner_kind : Fld := ⟨.LCK_STATE, 2, 2⟩
def LCK_STATE_owner_id : Fld := ⟨.LCK_STATE, 4, 16⟩
def LCK_STATE_waiters : Fld := ⟨.LCK_STATE, 20, 8⟩
def LCK_STATE_grant_count : Fld := ⟨.LCK_STATE, 32, 32⟩
def HTRG_ARM_arm : Fld := ⟨.HTRG_ARM, 0, 1⟩
def TRG_ARM_arm : Fld := ⟨.TRG_ARM, 0, 1⟩
def HTRG_STATUS_eval_drops : Fld := ⟨.HTRG_STATUS, 0, 32⟩
def HTRG_STATUS_fired_total : Fld := ⟨.HTRG_STATUS, 32, 16⟩
def TRG_STATUS_eval_drops : Fld := ⟨.TRG_STATUS, 0, 32⟩
def TRG_STATUS_fired_total : Fld := ⟨.TRG_STATUS, 32, 16⟩
def HTRG_FIRED_count : Fld := ⟨.HTRG_FIRED, 0, 32⟩
def HTRG_FIRED_last_status : Fld := ⟨.HTRG_FIRED, 32, 16⟩
def TRG_FIRED_count : Fld := ⟨.TRG_FIRED, 0, 32⟩
def TRG_FIRED_last_status : Fld := ⟨.TRG_FIRED, 32, 16⟩
def SPK_HGRP_member : Fld := ⟨.SPK_HGRP, 0, 64⟩
def HRT_HGRP_DIES_dies : Fld := ⟨.HRT_HGRP_DIES, 0, 32⟩
def HRT_HGRP_ARM_arm : Fld := ⟨.HRT_HGRP_ARM, 0, 1⟩
def HTRG_ENTRY_word : Fld := ⟨.HTRG_ENTRY, 0, 64⟩
def TRG_ENTRY_word : Fld := ⟨.TRG_ENTRY, 0, 64⟩
def HRT_HGRP_CTL_cross_halt : Fld := ⟨.HRT_HGRP_CTL, 0, 1⟩
def HRT_RC_CMD_target : Fld := ⟨.HRT_RC_CMD, 0, 16⟩
def HRT_RC_CMD_op : Fld := ⟨.HRT_RC_CMD, 16, 2⟩
def HRT_RC_CMD_group : Fld := ⟨.HRT_RC_CMD, 18, 1⟩
def HRT_RC_CMD_nowait : Fld := ⟨.HRT_RC_CMD, 19, 1⟩
def HRT_RC_CMD_step_count : Fld := ⟨.HRT_RC_CMD, 20, 16⟩
def HRT_RC_RVEC_addr : Fld := ⟨.HRT_RC_RVEC, 0, 48⟩
def HRT_RC_RVEC_capacity : Fld := ⟨.HRT_RC_RVEC, 48, 16⟩
def HRT_RC_RESULT_status : Fld := ⟨.HRT_RC_RESULT, 0, 16⟩
def HRT_RC_RESULT_done : Fld := ⟨.HRT_RC_RESULT, 16, 1⟩
def HRT_RC_RESULT_count : Fld := ⟨.HRT_RC_RESULT, 32, 16⟩
def SPK_UNIT_STATE_state : Fld := ⟨.SPK_UNIT_STATE, 0, 4⟩
def SPK_UNIT_STATE_resume : Fld := ⟨.SPK_UNIT_STATE, 4, 2⟩
def SPK_UNIT_STATE_stepping : Fld := ⟨.SPK_UNIT_STATE, 6, 1⟩
def SPK_UNIT_STATE_lock_held : Fld := ⟨.SPK_UNIT_STATE, 7, 1⟩
def SPK_UNIT_STATE_hold_sync : Fld := ⟨.SPK_UNIT_STATE, 8, 16⟩
def SPK_UNIT_STATE_last_cause : Fld := ⟨.SPK_UNIT_STATE, 24, 7⟩
def SPK_UNIT_STATE_silent : Fld := ⟨.SPK_UNIT_STATE, 31, 1⟩
def SPK_UNIT_STATE_steps_done : Fld := ⟨.SPK_UNIT_STATE, 32, 16⟩
def SPK_UNIT_CTL_halt_on_fault : Fld := ⟨.SPK_UNIT_CTL, 0, 1⟩
def SPK_UNIT_CTL_probe : Fld := ⟨.SPK_UNIT_CTL, 1, 1⟩
def SPK_STEP_CFG_limit_us : Fld := ⟨.SPK_STEP_CFG, 0, 16⟩
def SPK_PPQ_STATUS_depth : Fld := ⟨.SPK_PPQ_STATUS, 0, 5⟩
def SPK_PPQ_STATUS_discarded : Fld := ⟨.SPK_PPQ_STATUS, 8, 16⟩
def SPK_PPQ_STATUS_drain_fail : Fld := ⟨.SPK_PPQ_STATUS, 24, 16⟩
def SPK_RC_COUNT_forced_halts : Fld := ⟨.SPK_RC_COUNT, 0, 16⟩
def SPK_RC_COUNT_timeouts : Fld := ⟨.SPK_RC_COUNT, 16, 16⟩
def SPK_RC_COUNT_cross_halts : Fld := ⟨.SPK_RC_COUNT, 32, 16⟩
def SPK_RC_COUNT_step_limits : Fld := ⟨.SPK_RC_COUNT, 48, 16⟩
def SPK_PPQ_ENTRY_unit : Fld := ⟨.SPK_PPQ_ENTRY, 0, 16⟩
def SPK_PPQ_ENTRY_off13 : Fld := ⟨.SPK_PPQ_ENTRY, 16, 13⟩
def SPK_PPQ_ENTRY_stager : Fld := ⟨.SPK_PPQ_ENTRY, 32, 16⟩
def SPK_PPQ_DATA_data : Fld := ⟨.SPK_PPQ_DATA, 0, 64⟩
def HRT_QCH_CMD_die_mask : Fld := ⟨.HRT_QCH_CMD, 0, 32⟩
def HRT_QCH_CMD_op : Fld := ⟨.HRT_QCH_CMD, 32, 1⟩
def HRT_QCH_CFG_pin_en : Fld := ⟨.HRT_QCH_CFG, 0, 1⟩
def HRT_QCH_CFG_peer_notify : Fld := ⟨.HRT_QCH_CFG, 1, 1⟩
def HRT_QCH_STATUS_dies_quenched : Fld := ⟨.HRT_QCH_STATUS, 0, 32⟩
def HRT_QCH_STATUS_last_source : Fld := ⟨.HRT_QCH_STATUS, 32, 4⟩
def HRT_QCH_STATUS_reheat_phase : Fld := ⟨.HRT_QCH_STATUS, 36, 3⟩
def HRT_QCH_STATUS_pin_low : Fld := ⟨.HRT_QCH_STATUS, 39, 1⟩
def HRT_QCH_STATUS_last_cmd_status : Fld := ⟨.HRT_QCH_STATUS, 40, 16⟩
def HRT_QCH_TIME_q_first : Fld := ⟨.HRT_QCH_TIME, 0, 64⟩
def HRT_QCH_COUNT_ignored : Fld := ⟨.HRT_QCH_COUNT, 0, 16⟩
def HRT_QCH_COUNT_noack_units : Fld := ⟨.HRT_QCH_COUNT, 16, 16⟩
def HRT_QCH_COUNT_episodes : Fld := ⟨.HRT_QCH_COUNT, 32, 16⟩
def HRT_QCH_COUNT_reheat_aborts : Fld := ⟨.HRT_QCH_COUNT, 48, 8⟩
def BLW_CFG_rate_max : Fld := ⟨.BLW_CFG, 0, 9⟩
def BLW_CFG_rate_min : Fld := ⟨.BLW_CFG, 9, 9⟩
def BLW_CFG_excursion_mv : Fld := ⟨.BLW_CFG, 18, 10⟩
def BLW_CFG_settle_us : Fld := ⟨.BLW_CFG, 28, 8⟩
def BLW_CFG_arm : Fld := ⟨.BLW_CFG, 63, 1⟩
def BLW_RATE_current : Fld := ⟨.BLW_RATE, 0, 9⟩
def BLW_RATE_quiet_ramps : Fld := ⟨.BLW_RATE, 9, 3⟩
def BLW_LAST_removed : Fld := ⟨.BLW_LAST, 0, 16⟩
def BLW_LAST_duration_us : Fld := ⟨.BLW_LAST, 16, 16⟩
def BLW_LAST_excursion_mv : Fld := ⟨.BLW_LAST, 32, 10⟩
def BLW_LAST_direction : Fld := ⟨.BLW_LAST, 42, 1⟩
def BLW_LAST_clipped : Fld := ⟨.BLW_LAST, 43, 1⟩
def BLW_LAST_uncovered : Fld := ⟨.BLW_LAST, 44, 10⟩
def BLW_RAIL_code : Fld := ⟨.BLW_RAIL, 0, 8⟩
def BLW_RAIL_leak_est : Fld := ⟨.BLW_RAIL, 8, 10⟩
def BLW_RAIL_clk_est : Fld := ⟨.BLW_RAIL, 18, 10⟩
def BLW_RAIL_dp_last : Fld := ⟨.BLW_RAIL, 28, 10⟩
def BLW_RAIL_notch : Fld := ⟨.BLW_RAIL, 38, 5⟩
def BNK_CFG_hold_limit_s : Fld := ⟨.BNK_CFG, 0, 5⟩
def BNK_CFG_keepalive_us : Fld := ⟨.BNK_CFG, 5, 4⟩
def BNK_CFG_arm : Fld := ⟨.BNK_CFG, 31, 1⟩
def BNK_STATUS_banked : Fld := ⟨.BNK_STATUS, 0, 48⟩
def BNK_STATUS_expiries : Fld := ⟨.BNK_STATUS, 48, 16⟩
def BNK_LINK_state : Fld := ⟨.BNK_LINK, 0, 3⟩
def BNK_LINK_cause : Fld := ⟨.BNK_LINK, 3, 2⟩
def BNK_LINK_held_ms : Fld := ⟨.BNK_LINK, 6, 26⟩
def BNK_LINK_rx_held : Fld := ⟨.BNK_LINK, 32, 16⟩
def BNK_LINK_rx_dropped : Fld := ⟨.BNK_LINK, 48, 16⟩
def CRU_PLAN_addr : Fld := ⟨.CRU_PLAN, 0, 48⟩
def CRU_PLAN_valid : Fld := ⟨.CRU_PLAN, 48, 1⟩
def CRU_PLAN_state : Fld := ⟨.CRU_PLAN, 49, 2⟩
def CRU_START_plan : Fld := ⟨.CRU_START, 0, 6⟩
def CRU_RESULT_handle : Fld := ⟨.CRU_RESULT, 0, 16⟩
def CRU_RESULT_status : Fld := ⟨.CRU_RESULT, 16, 16⟩
def CRU_CANCEL_handle : Fld := ⟨.CRU_CANCEL, 0, 16⟩
def CRU_RELEASE_handle : Fld := ⟨.CRU_RELEASE, 0, 16⟩
def CRU_JOB_handle : Fld := ⟨.CRU_JOB, 0, 16⟩
def CRU_JOB_state : Fld := ⟨.CRU_JOB, 16, 3⟩
def CRU_JOB_status : Fld := ⟨.CRU_JOB, 32, 16⟩
def CRU_JOB_regions_open : Fld := ⟨.CRU_JOB, 48, 16⟩
def CRU_JOB_MANIFEST_addr : Fld := ⟨.CRU_JOB_MANIFEST, 0, 48⟩
def CRU_SPILL_BASE_base : Fld := ⟨.CRU_SPILL_BASE, 0, 64⟩
def CRU_SPILL_size_mib : Fld := ⟨.CRU_SPILL, 0, 32⟩
def CRU_SPILL_valid : Fld := ⟨.CRU_SPILL, 32, 1⟩
def CRU_GROUPS_mapped_in : Fld := ⟨.CRU_GROUPS, 0, 64⟩
def CRU_NODE_free_extents : Fld := ⟨.CRU_NODE, 0, 14⟩
def CRU_NODE_held_extents : Fld := ⟨.CRU_NODE, 16, 14⟩
def CRU_NODE_reserved_group : Fld := ⟨.CRU_NODE, 32, 3⟩
def SPK_CAP_STATUS_handle : Fld := ⟨.SPK_CAP_STATUS, 0, 16⟩
def SPK_CAP_STATUS_credits_readout : Fld := ⟨.SPK_CAP_STATUS, 16, 4⟩
def SPK_CAP_STATUS_credits_scan : Fld := ⟨.SPK_CAP_STATUS, 20, 4⟩
def SPK_CAP_STATUS_blocks_done : Fld := ⟨.SPK_CAP_STATUS, 32, 32⟩
def SPK_CAP_ERR_port_silence : Fld := ⟨.SPK_CAP_ERR, 0, 16⟩
def SPK_CAP_ERR_scan_retries : Fld := ⟨.SPK_CAP_ERR, 16, 16⟩
def SPK_CAP_ERR_scan_failures : Fld := ⟨.SPK_CAP_ERR, 32, 16⟩
def SPK_CAP_ERR_unreadable_blocks : Fld := ⟨.SPK_CAP_ERR, 48, 16⟩
def SWG_CHAIN_desc : Fld := ⟨.SWG_CHAIN, 0, 48⟩
def SWG_CHAIN_handle : Fld := ⟨.SWG_CHAIN, 48, 16⟩
def SWG_CANCEL_handle : Fld := ⟨.SWG_CANCEL, 0, 16⟩
def SWG_DEC_LIMIT_limit_kib : Fld := ⟨.SWG_DEC_LIMIT, 0, 32⟩
def SWG_ENG_jobs_open : Fld := ⟨.SWG_ENG, 0, 3⟩
def SWG_ENG_capture_active : Fld := ⟨.SWG_ENG, 3, 1⟩
def SWG_ENG_blocks_total : Fld := ⟨.SWG_ENG, 32, 32⟩
def SWG_JOB_handle : Fld := ⟨.SWG_JOB, 0, 16⟩
def SWG_JOB_state : Fld := ⟨.SWG_JOB, 16, 3⟩
def SWG_JOB_detail : Fld := ⟨.SWG_JOB, 24, 8⟩
def SWG_JOB_status : Fld := ⟨.SWG_JOB, 32, 16⟩
def SWG_JOB_DESC_addr : Fld := ⟨.SWG_JOB_DESC, 0, 48⟩
def SWG_JOB_DESC_issuer : Fld := ⟨.SWG_JOB_DESC, 48, 16⟩
def SWG_JOB_PROG_blocks : Fld := ⟨.SWG_JOB_PROG, 0, 20⟩
def SWG_JOB_PROG_nofit : Fld := ⟨.SWG_JOB_PROG, 20, 16⟩
def SWG_JOB_PROG_out_64 : Fld := ⟨.SWG_JOB_PROG, 36, 28⟩
def SWG_COUNT_fixed_blocks : Fld := ⟨.SWG_COUNT, 0, 32⟩
def SWG_COUNT_nofit : Fld := ⟨.SWG_COUNT, 32, 16⟩
def SWG_COUNT_dec_refused : Fld := ⟨.SWG_COUNT, 48, 16⟩
def SPN_REQ_class : Fld := ⟨.SPN_REQ, 0, 2⟩
def SPN_REQ_alloc_beats : Fld := ⟨.SPN_REQ, 8, 12⟩
def SPN_QUOTA_urgent_beats : Fld := ⟨.SPN_QUOTA, 0, 13⟩
def SPN_ARM_arm : Fld := ⟨.SPN_ARM, 0, 1⟩
def SPN_OUT_holder : Fld := ⟨.SPN_OUT, 0, 6⟩
def SPN_OUT_holder_class : Fld := ⟨.SPN_OUT, 6, 2⟩
def SPN_OUT_urgent_used : Fld := ⟨.SPN_OUT, 8, 13⟩
def SPN_OUT_urgent_masked : Fld := ⟨.SPN_OUT, 21, 1⟩
def SPN_OUT_waiting : Fld := ⟨.SPN_OUT, 32, 6⟩
def SPN_OUT_BEATS_beats : Fld := ⟨.SPN_OUT_BEATS, 0, 64⟩
def SPN_HOG_cut : Fld := ⟨.SPN_HOG, 0, 48⟩
def SPN_HOG_cuts : Fld := ⟨.SPN_HOG, 48, 16⟩
def SPN_MAXWAIT_max_wait : Fld := ⟨.SPN_MAXWAIT, 0, 32⟩
def HWT_CTX_CFG_mode : Fld := ⟨.HWT_CTX_CFG, 0, 2⟩
def HWT_CTX_CFG_home : Fld := ⟨.HWT_CTX_CFG, 2, 3⟩
def HWT_CTX_CFG_factor : Fld := ⟨.HWT_CTX_CFG, 8, 8⟩
def HWT_CTX_CFG_budget_us : Fld := ⟨.HWT_CTX_CFG, 32, 32⟩
def HWT_CTX_STATUS_state : Fld := ⟨.HWT_CTX_STATUS, 0, 3⟩
def HWT_CTX_STATUS_held : Fld := ⟨.HWT_CTX_STATUS, 3, 1⟩
def HWT_CTX_STATUS_outstanding : Fld := ⟨.HWT_CTX_STATUS, 4, 6⟩
def HWT_CTX_STATUS_remaining_us : Fld := ⟨.HWT_CTX_STATUS, 16, 32⟩
def HWT_CFG_floor_us : Fld := ⟨.HWT_CFG, 0, 20⟩
def HWT_CFG_ceiling_us : Fld := ⟨.HWT_CFG, 20, 28⟩
def HWT_CFG_learn_shift : Fld := ⟨.HWT_CFG, 48, 4⟩
def HWT_CFG_min_samples_16 : Fld := ⟨.HWT_CFG, 52, 12⟩
def HWT_ARM_arm : Fld := ⟨.HWT_ARM, 0, 1⟩
def HWT_EST_SEL_context : Fld := ⟨.HWT_EST_SEL, 0, 11⟩
def HWT_EST_SEL_class : Fld := ⟨.HWT_EST_SEL, 12, 4⟩
def HWT_EST_SEL_reset : Fld := ⟨.HWT_EST_SEL, 16, 1⟩
def HWT_EST_est_us : Fld := ⟨.HWT_EST, 0, 32⟩
def HWT_EST_q_int : Fld := ⟨.HWT_EST, 32, 13⟩
def HWT_EST_samples : Fld := ⟨.HWT_EST, 45, 16⟩
def HWT_WHEEL_homed : Fld := ⟨.HWT_WHEEL, 0, 12⟩
def HWT_WHEEL_inflight : Fld := ⟨.HWT_WHEEL, 12, 14⟩
def HWT_WHEEL_window_late : Fld := ⟨.HWT_WHEEL, 32, 16⟩
def HWT_WHEEL_late : Fld := ⟨.HWT_WHEEL, 48, 16⟩
def HWT_EXP_HEAD_next : Fld := ⟨.HWT_EXP_HEAD, 0, 4⟩
def HWT_EXP_HEAD_expiries : Fld := ⟨.HWT_EXP_HEAD, 32, 32⟩
def WFG_ROOT_root : Fld := ⟨.WFG_ROOT, 0, 11⟩
def WFG_ROOT_kind : Fld := ⟨.WFG_ROOT, 16, 3⟩
def WFG_ROOT_root_state : Fld := ⟨.WFG_ROOT, 19, 3⟩
def WFG_ROOT_incomplete : Fld := ⟨.WFG_ROOT, 22, 1⟩
def WFG_ROOT_blocked : Fld := ⟨.WFG_ROOT, 24, 12⟩
def WFG_ROOT_direct : Fld := ⟨.WFG_ROOT, 36, 12⟩
def WFG_ROOT_trigger : Fld := ⟨.WFG_ROOT, 48, 11⟩
def WFG_ROOT_valid : Fld := ⟨.WFG_ROOT, 63, 1⟩
def WFG_ROOT_AUX_chip : Fld := ⟨.WFG_ROOT_AUX, 0, 16⟩
def WFG_ROOT_AUX_object : Fld := ⟨.WFG_ROOT_AUX, 16, 16⟩
def WFG_ROOT_AUX_orphans : Fld := ⟨.WFG_ROOT_AUX, 32, 16⟩
def WFG_ROOT_AUX_cycle_len : Fld := ⟨.WFG_ROOT_AUX, 48, 8⟩
def WFG_ROOT_TIME_time : Fld := ⟨.WFG_ROOT_TIME, 0, 64⟩
def WFG_CFG_edge_after_us : Fld := ⟨.WFG_CFG, 0, 12⟩
def WFG_CFG_orphan_after_us : Fld := ⟨.WFG_CFG, 12, 16⟩
def WFG_CFG_silence_ms : Fld := ⟨.WFG_CFG, 28, 12⟩
def WFG_CFG_chip_id : Fld := ⟨.WFG_CFG, 40, 16⟩
def WFG_CFG_arm : Fld := ⟨.WFG_CFG, 63, 1⟩
def WFG_STATUS_objects : Fld := ⟨.WFG_STATUS, 0, 17⟩
def WFG_STATUS_waits : Fld := ⟨.WFG_STATUS, 17, 14⟩
def WFG_STATUS_overflow : Fld := ⟨.WFG_STATUS, 31, 1⟩
def WFG_STATUS_stale : Fld := ⟨.WFG_STATUS, 32, 16⟩
def WFG_STATUS_analyses : Fld := ⟨.WFG_STATUS, 48, 16⟩
def WFG_CMD_op : Fld := ⟨.WFG_CMD, 0, 2⟩
def WFG_CMD_addr : Fld := ⟨.WFG_CMD, 3, 45⟩
def WFG_CMD_capacity : Fld := ⟨.WFG_CMD, 48, 16⟩
def WFG_OBJ_CMD_object : Fld := ⟨.WFG_OBJ_CMD, 0, 16⟩
def WFG_OBJ_CMD_op : Fld := ⟨.WFG_OBJ_CMD, 16, 2⟩
def WFG_OBJ_CMD_kind : Fld := ⟨.WFG_OBJ_CMD, 18, 2⟩
def WFG_OBJ_CMD_remote : Fld := ⟨.WFG_OBJ_CMD, 20, 1⟩
def WFG_OBJ_CMD_producer : Fld := ⟨.WFG_OBJ_CMD, 21, 16⟩
def WFG_OBJ_object : Fld := ⟨.WFG_OBJ, 0, 16⟩
def WFG_OBJ_declared : Fld := ⟨.WFG_OBJ, 16, 1⟩
def WFG_OBJ_remote : Fld := ⟨.WFG_OBJ, 17, 1⟩
def WFG_OBJ_stale : Fld := ⟨.WFG_OBJ, 18, 1⟩
def WFG_OBJ_kind : Fld := ⟨.WFG_OBJ, 19, 1⟩
def WFG_OBJ_producer : Fld := ⟨.WFG_OBJ, 20, 16⟩
def WFG_OBJ_waiters : Fld := ⟨.WFG_OBJ, 36, 14⟩
def WFG_OBJ_orphan : Fld := ⟨.WFG_OBJ, 50, 4⟩
def WFG_OBJ_VAL_value : Fld := ⟨.WFG_OBJ_VAL, 0, 32⟩
def WFG_OBJ_VAL_awaited : Fld := ⟨.WFG_OBJ_VAL, 32, 32⟩
def WFG_OBJ_SIG_time : Fld := ⟨.WFG_OBJ_SIG, 0, 64⟩
def WFG_PEER_chip_id : Fld := ⟨.WFG_PEER, 0, 16⟩
def WFG_PEER_state : Fld := ⟨.WFG_PEER, 16, 2⟩
def WFG_PEER_valid : Fld := ⟨.WFG_PEER, 18, 1⟩
def HWT_EXP_word : Fld := ⟨.HWT_EXP, 0, 64⟩
def RCV_CMD_target : Fld := ⟨.RCV_CMD, 0, 16⟩
def RCV_CMD_op : Fld := ⟨.RCV_CMD, 16, 4⟩
def RCV_CMD_reason : Fld := ⟨.RCV_CMD, 20, 4⟩
def RCV_RESULT_status : Fld := ⟨.RCV_RESULT, 0, 16⟩
def RCV_RESULT_done : Fld := ⟨.RCV_RESULT, 16, 1⟩
def RCV_CFG_incident_plan : Fld := ⟨.RCV_CFG, 0, 6⟩
def RCV_CFG_incident_en : Fld := ⟨.RCV_CFG, 6, 1⟩
def RCV_CFG_auto_escalate : Fld := ⟨.RCV_CFG, 7, 1⟩
def RCV_CFG_esc_limit : Fld := ⟨.RCV_CFG, 8, 4⟩
def RCV_CFG_esc_window_s : Fld := ⟨.RCV_CFG, 12, 16⟩
def RCV_CFG_partition_limit_s : Fld := ⟨.RCV_CFG, 28, 4⟩
def RCV_CFG_arm : Fld := ⟨.RCV_CFG, 63, 1⟩
def RCV_STATUS_steps : Fld := ⟨.RCV_STATUS, 0, 32⟩
def RCV_STATUS_retire_cause : Fld := ⟨.RCV_STATUS, 32, 3⟩
def RCV_ESC_in_window : Fld := ⟨.RCV_ESC, 0, 4⟩
def RCV_ESC_resets_total : Fld := ⟨.RCV_ESC, 16, 16⟩
def RCV_MARK_state : Fld := ⟨.RCV_MARK, 0, 2⟩
def RCV_MARK_mark_error : Fld := ⟨.RCV_MARK, 2, 1⟩
def RCV_MARK_step : Fld := ⟨.RCV_MARK, 32, 32⟩
def ANV_RCV_STATUS_step : Fld := ⟨.ANV_RCV_STATUS, 0, 4⟩
def ANV_RCV_STATUS_reason : Fld := ⟨.ANV_RCV_STATUS, 4, 4⟩
def ANV_RCV_STATUS_sr_a : Fld := ⟨.ANV_RCV_STATUS, 8, 1⟩
def ANV_RCV_STATUS_sr_b : Fld := ⟨.ANV_RCV_STATUS, 9, 1⟩
def ANV_RCV_STATUS_dram_kept : Fld := ⟨.ANV_RCV_STATUS, 10, 1⟩
def ANV_RCV_STATUS_incident_skipped : Fld := ⟨.ANV_RCV_STATUS, 11, 1⟩
def ANV_RCV_STATUS_class : Fld := ⟨.ANV_RCV_STATUS, 12, 2⟩
def ANV_RCV_STATUS_failed_links : Fld := ⟨.ANV_RCV_STATUS, 14, 6⟩
def ANV_RCV_TIME_fence_time : Fld := ⟨.ANV_RCV_TIME, 0, 64⟩
def ANV_RCV_CLASS_affected : Fld := ⟨.ANV_RCV_CLASS, 0, 12⟩
def ANV_RCV_CLASS_first_reload : Fld := ⟨.ANV_RCV_CLASS, 16, 11⟩
def ANV_RCV_CLASS_first_valid : Fld := ⟨.ANV_RCV_CLASS, 27, 1⟩
def ANV_RCV_CLASS_reload_cause : Fld := ⟨.ANV_RCV_CLASS, 28, 2⟩
def ANV_RCV_COUNT_drained_ok : Fld := ⟨.ANV_RCV_COUNT, 0, 16⟩
def ANV_RCV_COUNT_answered_err : Fld := ⟨.ANV_RCV_COUNT, 16, 16⟩
def ANV_RCV_COUNT_refused_new : Fld := ⟨.ANV_RCV_COUNT, 32, 16⟩
def LDG_CFG_cal_window_ep : Fld := ⟨.LDG_CFG, 0, 8⟩
def LDG_CFG_cal_en : Fld := ⟨.LDG_CFG, 8, 1⟩
def LDG_CFG_lambda_log2 : Fld := ⟨.LDG_CFG, 9, 5⟩
def LDG_CFG_tau_log2 : Fld := ⟨.LDG_CFG, 14, 5⟩
def LDG_CFG_pmb_tol : Fld := ⟨.LDG_CFG, 19, 7⟩
def LDG_CFG_ring_mode : Fld := ⟨.LDG_CFG, 26, 1⟩
def LDG_CFG_arm : Fld := ⟨.LDG_CFG, 63, 1⟩
def LDG_STATUS_epoch : Fld := ⟨.LDG_STATUS, 0, 32⟩
def LDG_STATUS_signq : Fld := ⟨.LDG_STATUS, 32, 7⟩
def LDG_STATUS_paused : Fld := ⟨.LDG_STATUS, 39, 1⟩
def LDG_STATUS_subst : Fld := ⟨.LDG_STATUS, 40, 1⟩
def LDG_STATUS_overwritten : Fld := ⟨.LDG_STATUS, 48, 16⟩
def LDG_CHAIN_chain_id : Fld := ⟨.LDG_CHAIN, 0, 64⟩
def LDG_SEQ_next_seq : Fld := ⟨.LDG_SEQ, 0, 64⟩
def LDG_RING_wpos : Fld := ⟨.LDG_RING, 0, 64⟩
def LDG_ACK_apos : Fld := ⟨.LDG_ACK, 0, 64⟩
def LDG_CAL_STATUS_version : Fld := ⟨.LDG_CAL_STATUS, 0, 32⟩
def LDG_CAL_STATUS_degenerate : Fld := ⟨.LDG_CAL_STATUS, 32, 1⟩
def LDG_CAL_STATUS_merged : Fld := ⟨.LDG_CAL_STATUS, 33, 6⟩
def LDG_CAL_STATUS_fixed : Fld := ⟨.LDG_CAL_STATUS, 39, 6⟩
def LDG_CAL_DEGENERATE_classes : Fld := ⟨.LDG_CAL_DEGENERATE, 0, 40⟩
def LDG_TAG_VAL_tag : Fld := ⟨.LDG_TAG_VAL, 0, 64⟩
def LDG_TAG_CMD_context : Fld := ⟨.LDG_TAG_CMD, 0, 11⟩
def LDG_TAG_CMD_delay : Fld := ⟨.LDG_TAG_CMD, 16, 32⟩
def LDG_TAG_RESULT_status : Fld := ⟨.LDG_TAG_RESULT, 0, 16⟩
def LDG_PMB_MAP_address : Fld := ⟨.LDG_PMB_MAP, 0, 7⟩
def LDG_PMB_MAP_eout : Fld := ⟨.LDG_PMB_MAP, 7, 1⟩
def LDG_PMB_MAP_page : Fld := ⟨.LDG_PMB_MAP, 8, 8⟩
def LDG_PMB_MAP_rails : Fld := ⟨.LDG_PMB_MAP, 16, 32⟩
def LDG_PMB_MAP_valid : Fld := ⟨.LDG_PMB_MAP, 48, 1⟩
def LDG_PMB_STATUS_suspect : Fld := ⟨.LDG_PMB_STATUS, 0, 8⟩
def LDG_PMB_STATUS_read_fail : Fld := ⟨.LDG_PMB_STATUS, 8, 16⟩
def LDG_PMB_STATUS_disagreements : Fld := ⟨.LDG_PMB_STATUS, 24, 16⟩
def LDG_PMB_GAIN_gain : Fld := ⟨.LDG_PMB_GAIN, 0, 32⟩
def LDG_OVH_dies : Fld := ⟨.LDG_OVH, 0, 32⟩
def LDG_OVH_REASON_reasons : Fld := ⟨.LDG_OVH_REASON, 0, 64⟩
def LDG_COEF_value : Fld := ⟨.LDG_COEF, 0, 32⟩
def LDG_COEF_state : Fld := ⟨.LDG_COEF, 32, 2⟩
def LDG_COEF_partner : Fld := ⟨.LDG_COEF, 34, 7⟩
def LDG_CTX_TAG_tag : Fld := ⟨.LDG_CTX_TAG, 0, 64⟩
def LDG_ACCT_total_mj : Fld := ⟨.LDG_ACCT, 0, 64⟩
def LDG_RAIL_energy_nj : Fld := ⟨.LDG_RAIL, 0, 64⟩
def LDG_RAIL_SMP_current : Fld := ⟨.LDG_RAIL_SMP, 0, 16⟩
def LDG_RAIL_SMP_voltage : Fld := ⟨.LDG_RAIL_SMP, 16, 16⟩
def LDG_ATTR_rows_peak : Fld := ⟨.LDG_ATTR, 0, 14⟩
def LDG_ATTR_overflow : Fld := ⟨.LDG_ATTR, 16, 32⟩
def TXN_CMD_op : Fld := ⟨.TXN_CMD, 0, 2⟩
def TXN_CMD_id : Fld := ⟨.TXN_CMD, 2, 4⟩
def TXN_AT_commit_time : Fld := ⟨.TXN_AT, 0, 64⟩
def TXN_RESULT_status : Fld := ⟨.TXN_RESULT, 0, 16⟩
def TXN_RESULT_done : Fld := ⟨.TXN_RESULT, 16, 1⟩
def TXN_RESULT_id : Fld := ⟨.TXN_RESULT, 17, 4⟩
def TXN_RPT_addr : Fld := ⟨.TXN_RPT, 0, 48⟩
def TXN_RPT_capacity : Fld := ⟨.TXN_RPT, 48, 16⟩
def TXN_STATE_state : Fld := ⟨.TXN_STATE, 0, 3⟩
def TXN_STATE_abort_cause : Fld := ⟨.TXN_STATE, 4, 4⟩
def TXN_STATE_actions : Fld := ⟨.TXN_STATE, 8, 13⟩
def TXN_STATE_first_fail : Fld := ⟨.TXN_STATE, 21, 12⟩
def TXN_STATE_fail_status : Fld := ⟨.TXN_STATE, 33, 16⟩
def TXN_STATE_rpt_lost : Fld := ⟨.TXN_STATE, 49, 1⟩
def TXN_TIME_commit_time : Fld := ⟨.TXN_TIME, 0, 64⟩
def TXN_OWNER_kind : Fld := ⟨.TXN_OWNER, 0, 2⟩
def TXN_OWNER_id : Fld := ⟨.TXN_OWNER, 2, 16⟩
def SPK_TXN_STAGE_held : Fld := ⟨.SPK_TXN_STAGE, 0, 13⟩
def SPK_TXN_STAGE_refused : Fld := ⟨.SPK_TXN_STAGE, 16, 16⟩
def HRT_FO_CMD_op : Fld := ⟨.HRT_FO_CMD, 0, 2⟩
def HRT_FO_CFG_heartbeat_us : Fld := ⟨.HRT_FO_CFG, 0, 8⟩
def HRT_FO_CFG_lead_us : Fld := ⟨.HRT_FO_CFG, 8, 8⟩
def HRT_FO_CFG_auto_en : Fld := ⟨.HRT_FO_CFG, 16, 1⟩
def HRT_FO_STATUS_phase : Fld := ⟨.HRT_FO_STATUS, 0, 2⟩
def HRT_FO_STATUS_peer_failed : Fld := ⟨.HRT_FO_STATUS, 2, 1⟩
def HRT_FO_STATUS_last_cause : Fld := ⟨.HRT_FO_STATUS, 4, 4⟩
def HRT_FO_STATUS_failovers : Fld := ⟨.HRT_FO_STATUS, 8, 16⟩
def HRT_FO_STATUS_lost_events : Fld := ⟨.HRT_FO_STATUS, 24, 16⟩
def HRT_FO_TIME_handover : Fld := ⟨.HRT_FO_TIME, 0, 64⟩
def HRT_UPD_CMD_op : Fld := ⟨.HRT_UPD_CMD, 0, 3⟩
def HRT_UPD_CMD_slot : Fld := ⟨.HRT_UPD_CMD, 3, 1⟩
def HRT_UPD_CMD_offset : Fld := ⟨.HRT_UPD_CMD, 8, 24⟩
def HRT_UPD_CMD_length : Fld := ⟨.HRT_UPD_CMD, 32, 24⟩
def HRT_UPD_SRC_addr : Fld := ⟨.HRT_UPD_SRC, 0, 48⟩
def HRT_UPD_STATUS_status : Fld := ⟨.HRT_UPD_STATUS, 0, 16⟩
def HRT_UPD_STATUS_busy : Fld := ⟨.HRT_UPD_STATUS, 16, 1⟩
def HRT_UPD_STATUS_booted_slot : Fld := ⟨.HRT_UPD_STATUS, 17, 1⟩
def HRT_UPD_STATUS_next_slot : Fld := ⟨.HRT_UPD_STATUS, 18, 1⟩
def HRT_UPD_STATUS_verified_a : Fld := ⟨.HRT_UPD_STATUS, 19, 1⟩
def HRT_UPD_STATUS_verified_b : Fld := ⟨.HRT_UPD_STATUS, 20, 1⟩
def CRU_MAPOUT_group : Fld := ⟨.CRU_MAPOUT, 0, 6⟩
def CRU_MAPOUT_op : Fld := ⟨.CRU_MAPOUT, 6, 1⟩
def CRU_MAPOUT_STATUS_status : Fld := ⟨.CRU_MAPOUT_STATUS, 0, 16⟩
def CRU_MAPOUT_STATUS_busy : Fld := ⟨.CRU_MAPOUT_STATUS, 16, 1⟩
def CRU_MAPOUT_STATUS_unreadable : Fld := ⟨.CRU_MAPOUT_STATUS, 32, 16⟩
def CRU_MAPOUT_STATUS_lost : Fld := ⟨.CRU_MAPOUT_STATUS, 48, 16⟩
def TIM_RECAL_spoke : Fld := ⟨.TIM_RECAL, 0, 5⟩
def TIM_RECAL_all : Fld := ⟨.TIM_RECAL, 5, 1⟩
def TIM_RECAL_busy : Fld := ⟨.TIM_RECAL, 31, 1⟩
def LDG_COEF_LOAD_addr : Fld := ⟨.LDG_COEF_LOAD, 0, 48⟩
def LDG_COEF_LOAD_seed : Fld := ⟨.LDG_COEF_LOAD, 48, 1⟩
def LDG_COEF_LOAD_pending : Fld := ⟨.LDG_COEF_LOAD, 49, 1⟩
def STK_DBG_CTL_attach : Fld := ⟨.STK_DBG_CTL, 0, 1⟩
def STK_DBG_CTL_halt : Fld := ⟨.STK_DBG_CTL, 1, 1⟩
def STK_DBG_CTL_resume : Fld := ⟨.STK_DBG_CTL, 2, 1⟩
def STK_DBG_CTL_step : Fld := ⟨.STK_DBG_CTL, 3, 1⟩
def STK_DBG_CTL_halt_on_reset : Fld := ⟨.STK_DBG_CTL, 4, 1⟩
def STK_DBG_CTL_xhalt : Fld := ⟨.STK_DBG_CTL, 5, 1⟩
def STK_DBG_CTL_step_count : Fld := ⟨.STK_DBG_CTL, 16, 16⟩
def STK_DBG_STATUS_core_state : Fld := ⟨.STK_DBG_STATUS, 0, 3⟩
def STK_DBG_STATUS_cause : Fld := ⟨.STK_DBG_STATUS, 3, 4⟩
def STK_DBG_STATUS_owner_kind : Fld := ⟨.STK_DBG_STATUS, 7, 2⟩
def STK_DBG_STATUS_owner_id : Fld := ⟨.STK_DBG_STATUS, 9, 16⟩
def STK_DBG_STATUS_steps_left : Fld := ⟨.STK_DBG_STATUS, 25, 16⟩
def STK_DBG_BP_enable : Fld := ⟨.STK_DBG_BP, 0, 1⟩
def STK_DBG_BP_addr : Fld := ⟨.STK_DBG_BP, 2, 18⟩
def STK_DBG_LADDR_addr : Fld := ⟨.STK_DBG_LADDR, 3, 17⟩
def STK_DBG_LADDR_inc : Fld := ⟨.STK_DBG_LADDR, 32, 1⟩
def STK_DBG_LDATA_data : Fld := ⟨.STK_DBG_LDATA, 0, 64⟩
def STK_DBG_PC_value : Fld := ⟨.STK_DBG_PC, 0, 64⟩
def STK_DBG_GPR_value : Fld := ⟨.STK_DBG_GPR, 0, 64⟩
def STK_VT_OUT_word : Fld := ⟨.STK_VT_OUT, 0, 64⟩
def STK_VT_IN_word : Fld := ⟨.STK_VT_IN, 0, 64⟩
def STK_VT_STAT_out_full : Fld := ⟨.STK_VT_STAT, 0, 1⟩
def STK_VT_STAT_in_full : Fld := ⟨.STK_VT_STAT, 1, 1⟩
def PAT_ADDR_word : Fld := ⟨.PAT_ADDR, 3, 23⟩
def PAT_ADDR_mode : Fld := ⟨.PAT_ADDR, 26, 2⟩
def PAT_ADDR_half : Fld := ⟨.PAT_ADDR, 28, 1⟩
def PAT_DATA_data : Fld := ⟨.PAT_DATA, 0, 64⟩
def PAT_ARM_arm : Fld := ⟨.PAT_ARM, 0, 1⟩
def PAT_STATUS_enabled : Fld := ⟨.PAT_STATUS, 0, 7⟩
def PAT_STATUS_patched_loads : Fld := ⟨.PAT_STATUS, 16, 16⟩
def PAT_STATUS_last_target : Fld := ⟨.PAT_STATUS, 32, 16⟩
def AUT_STATUS_lifecycle : Fld := ⟨.AUT_STATUS, 0, 1⟩
def AUT_STATUS_sessions_open : Fld := ⟨.AUT_STATUS, 1, 5⟩
def AUT_STATUS_auth_refusals : Fld := ⟨.AUT_STATUS, 16, 16⟩
def AUT_IDENT_ident : Fld := ⟨.AUT_IDENT, 0, 64⟩
def AUT_ANCHOR_valid : Fld := ⟨.AUT_ANCHOR, 0, 1⟩
def AUT_ANCHOR_revoked : Fld := ⟨.AUT_ANCHOR, 1, 1⟩
def AUT_ANCHOR_max_level : Fld := ⟨.AUT_ANCHOR, 2, 3⟩
def AUT_ANCHOR_digest : Fld := ⟨.AUT_ANCHOR, 32, 32⟩
def AUT_SESS_open : Fld := ⟨.AUT_SESS, 0, 1⟩
def AUT_SESS_level : Fld := ⟨.AUT_SESS, 1, 3⟩
def AUT_SESS_transport : Fld := ⟨.AUT_SESS, 4, 2⟩
def AUT_SESS_anchor : Fld := ⟨.AUT_SESS, 6, 3⟩
def AUT_SESS_notices : Fld := ⟨.AUT_SESS, 9, 1⟩
def AUT_SESS_session_id : Fld := ⟨.AUT_SESS, 32, 32⟩
def AUT_RCPT_CMD_addr : Fld := ⟨.AUT_RCPT_CMD, 0, 48⟩
def AUT_RCPT_CMD_slot : Fld := ⟨.AUT_RCPT_CMD, 48, 3⟩
def AUT_RCPT_CMD_op : Fld := ⟨.AUT_RCPT_CMD, 51, 2⟩
def AUT_RCPT_valid : Fld := ⟨.AUT_RCPT, 0, 1⟩
def AUT_RCPT_locked : Fld := ⟨.AUT_RCPT, 1, 1⟩
def AUT_RCPT_digest : Fld := ⟨.AUT_RCPT, 32, 32⟩
def VYN_CFG_enable : Fld := ⟨.VYN_CFG, 0, 1⟩
def VYN_CFG_payload_max : Fld := ⟨.VYN_CFG, 1, 2⟩
def VYN_STATUS_link_state : Fld := ⟨.VYN_STATUS, 0, 3⟩
def VYN_STATUS_lanes : Fld := ⟨.VYN_STATUS, 3, 2⟩
def VYN_STATUS_version : Fld := ⟨.VYN_STATUS, 5, 4⟩
def VYN_STATUS_payload : Fld := ⟨.VYN_STATUS, 9, 2⟩
def VYN_STATUS_retrains : Fld := ⟨.VYN_STATUS, 32, 16⟩
def VYN_ERR_crc_errors : Fld := ⟨.VYN_ERR, 0, 16⟩
def VYN_ERR_replays : Fld := ⟨.VYN_ERR, 16, 16⟩
def VYN_ERR_credit_errors : Fld := ⟨.VYN_ERR, 32, 16⟩
def VYN_ERR_frame_errors : Fld := ⟨.VYN_ERR, 48, 16⟩
def HRT_EXP_CMD_handle : Fld := ⟨.HRT_EXP_CMD, 0, 16⟩
def HRT_EXP_CMD_recipient : Fld := ⟨.HRT_EXP_CMD, 16, 8⟩
def HRT_EXP_CMD_recode : Fld := ⟨.HRT_EXP_CMD, 24, 1⟩
def HRT_EXP_CMD_verify : Fld := ⟨.HRT_EXP_CMD, 25, 1⟩
def HRT_EXP_CMD_limit_mib : Fld := ⟨.HRT_EXP_CMD, 32, 32⟩
def HRT_EXP_DEST_addr : Fld := ⟨.HRT_EXP_DEST, 0, 64⟩
def HRT_EXP_STATUS_status : Fld := ⟨.HRT_EXP_STATUS, 0, 16⟩
def HRT_EXP_STATUS_state : Fld := ⟨.HRT_EXP_STATUS, 16, 2⟩
def HRT_EXP_STATUS_check_fail : Fld := ⟨.HRT_EXP_STATUS, 18, 14⟩
def HRT_EXP_STATUS_done_mib : Fld := ⟨.HRT_EXP_STATUS, 32, 32⟩
def HRT_NOTIFY_fm_eid_0 : Fld := ⟨.HRT_NOTIFY, 0, 8⟩
def HRT_NOTIFY_fm_eid_1 : Fld := ⟨.HRT_NOTIFY, 8, 8⟩
def HRT_NOTIFY_fm_i3c_0 : Fld := ⟨.HRT_NOTIFY, 16, 1⟩
def HRT_NOTIFY_fm_i3c_1 : Fld := ⟨.HRT_NOTIFY, 17, 1⟩
def HRT_NOTIFY_bmc_eid : Fld := ⟨.HRT_NOTIFY, 24, 8⟩
def HRT_ALERT_cause : Fld := ⟨.HRT_ALERT, 0, 8⟩
def HRT_ALERT_enable : Fld := ⟨.HRT_ALERT, 8, 8⟩
def SPK_SOCK_desc : Fld := ⟨.SPK_SOCK, 0, 64⟩
def SPK_SOCK_STATUS_valid : Fld := ⟨.SPK_SOCK_STATUS, 0, 1⟩
def SPK_SOCK_STATUS_fault : Fld := ⟨.SPK_SOCK_STATUS, 1, 3⟩
def SPK_SOCK_STATUS_version : Fld := ⟨.SPK_SOCK_STATUS, 8, 8⟩
def SPK_SOCK_STATUS_ev_drops : Fld := ⟨.SPK_SOCK_STATUS, 16, 16⟩
def SPK_SOCK_STATUS_ta_refused : Fld := ⟨.SPK_SOCK_STATUS, 32, 16⟩
def HRT_RESET_CAUSE_last_kind : Fld := ⟨.HRT_RESET_CAUSE, 0, 4⟩
def HRT_RESET_CAUSE_restart_cause : Fld := ⟨.HRT_RESET_CAUSE, 4, 4⟩
def HRT_RESET_CAUSE_warm_count : Fld := ⟨.HRT_RESET_CAUSE, 16, 16⟩
def HRT_RESET_CAUSE_hearth_restarts : Fld := ⟨.HRT_RESET_CAUSE, 32, 16⟩
def HRT_BOOT_STATUS_stage : Fld := ⟨.HRT_BOOT_STATUS, 0, 4⟩
def HRT_BOOT_STATUS_boot_hearth : Fld := ⟨.HRT_BOOT_STATUS, 4, 1⟩
def HRT_BOOT_STATUS_fallback : Fld := ⟨.HRT_BOOT_STATUS, 5, 1⟩
def HRT_BOOT_STATUS_form : Fld := ⟨.HRT_BOOT_STATUS, 6, 2⟩
def HRT_BOOT_STATUS_slot_a_result : Fld := ⟨.HRT_BOOT_STATUS, 8, 4⟩
def HRT_BOOT_STATUS_slot_b_result : Fld := ⟨.HRT_BOOT_STATUS, 12, 4⟩
def HRT_BOOT_STATUS_swage_bad : Fld := ⟨.HRT_BOOT_STATUS, 16, 8⟩
def HRT_BOOT_STATUS_image_version : Fld := ⟨.HRT_BOOT_STATUS, 32, 32⟩
def HRT_BOOT_TIME_done : Fld := ⟨.HRT_BOOT_TIME, 0, 64⟩
def HRT_RESET_CMD_op : Fld := ⟨.HRT_RESET_CMD, 0, 2⟩
def HRT_EMBER_CMD_op : Fld := ⟨.HRT_EMBER_CMD, 0, 1⟩
def HRT_EMBER_CFG_striker_gap_ns : Fld := ⟨.HRT_EMBER_CFG, 0, 8⟩
def HRT_EMBER_CFG_phy_off : Fld := ⟨.HRT_EMBER_CFG, 8, 1⟩
def HRT_EMBER_STATUS_phase : Fld := ⟨.HRT_EMBER_STATUS, 0, 2⟩
def HRT_EMBER_STATUS_groups_off : Fld := ⟨.HRT_EMBER_STATUS, 2, 7⟩
def HRT_EMBER_STATUS_last_exit_cause : Fld := ⟨.HRT_EMBER_STATUS, 9, 2⟩
def HRT_EMBER_STATUS_last_exit_us : Fld := ⟨.HRT_EMBER_STATUS, 32, 16⟩
def HRT_EMBER_STATUS_entries : Fld := ⟨.HRT_EMBER_STATUS, 48, 16⟩
def HRT_PWR_DOM_on : Fld := ⟨.HRT_PWR_DOM, 0, 64⟩
def HRT_PWR_FAULT_fault : Fld := ⟨.HRT_PWR_FAULT, 0, 64⟩

end Sys2Proof.Machine.F
end

