-- ==== Sys2Proof/Machine/Status.lean ====
section
/-! DEFINITION. The status codes of R104, the exception causes of R129 and the unit run states of R68. -/

namespace Sys2Proof.Machine

open Sys2Proof

/-- The status codes of R104. -/
inductive Status where
  | ok | broken | partialResult | staged | viaScan | holding | swgNofit | swgNeedbuf | pending | deadline
  | reserved | noUnit | align | unmapped | poweredOff | mappedOut | readOnly | standby | busy | retired
  | noSpace | role | auth | sideEffect | held | notHeld | gated | resetting | fenced | unresponsive
  | timeout | queueFull | noPath | cancelled | locked | notOwner | empty | txnFull | txnLead | txnAborted
  | noTxn
  deriving DecidableEq, Repr

/-- The numbers of R104. -/
def Status.code : Status → Nat
  | .ok => 0x0000 | .broken => 0x0001 | .partialResult => 0x0002 | .staged => 0x0003 | .viaScan => 0x0004
  | .holding => 0x0005 | .swgNofit => 0x0006 | .swgNeedbuf => 0x0007 | .pending => 0x0008 | .deadline => 0x0009
  | .reserved => 0x0100 | .noUnit => 0x0101 | .align => 0x0102 | .unmapped => 0x0103 | .poweredOff => 0x0104
  | .mappedOut => 0x0105 | .readOnly => 0x0106 | .standby => 0x0107 | .busy => 0x0108 | .retired => 0x0109
  | .noSpace => 0x010A | .role => 0x010B | .auth => 0x010C | .sideEffect => 0x0110 | .held => 0x0111
  | .notHeld => 0x0112 | .gated => 0x0113 | .resetting => 0x0114 | .fenced => 0x0115 | .unresponsive => 0x0116
  | .timeout => 0x0117 | .queueFull => 0x0118 | .noPath => 0x0119 | .cancelled => 0x011A | .locked => 0x0120
  | .notOwner => 0x0121 | .empty => 0x0122 | .txnFull => 0x0128 | .txnLead => 0x0129 | .txnAborted => 0x012A
  | .noTxn => 0x012B

/-- A status below 0x0100 says that the action took place (R90). -/
def Status.took (s : Status) : Bool := decide (s.code < 0x100)

/-- The refusals that R567 places before AUTH. -/
def Status.beforeAuth : Status → Bool
  | .reserved | .unmapped | .noUnit | .align => true
  | _ => false

/-- Every status code. -/
def Status.all : List Status :=
  [.ok, .broken, .partialResult, .staged, .viaScan, .holding, .swgNofit, .swgNeedbuf,
   .pending, .deadline, .reserved, .noUnit, .align, .unmapped, .poweredOff, .mappedOut,
   .readOnly, .standby, .busy, .retired, .noSpace, .role, .auth, .sideEffect,
   .held, .notHeld, .gated, .resetting, .fenced, .unresponsive, .timeout, .queueFull,
   .noPath, .cancelled, .locked, .notOwner, .empty, .txnFull, .txnLead, .txnAborted,
   .noTxn]
/-- The status of a number. -/
def Status.ofCode (n : Nat) : Status := (Status.all.find? fun s => s.code == n).getD .ok

/-- The exception causes of R129. -/
inductive Cause where
  | illegal | illegalSpr | fetchRange | localRange | localAlign | breakpoint | watchdog
  deriving DecidableEq, Repr

/-- The numbers of R129. -/
def Cause.code : Cause → Nat
  | .illegal => 1 | .illegalSpr => 2 | .fetchRange => 3 | .localRange => 4 | .localAlign => 5 | .breakpoint => 6
  | .watchdog => 7

/-- The unit run states. -/
inductive RunState where
  | running | haltPending | halted | haltedHolding | quenched | gated | resetting | fenced | unresponsive
  deriving DecidableEq, Repr

/-- The codes of R68. -/
def RunState.code : RunState → Nat
  | .running => 0 | .haltPending => 1 | .halted => 2 | .haltedHolding => 3 | .quenched => 4 | .gated => 5
  | .resetting => 6 | .fenced => 7 | .unresponsive => 8

/-- The run state of a code; the reserved codes, which no spoke writes, read as UNRESPONSIVE. -/
def RunState.ofCode : Nat → RunState
  | 0 => .running | 1 => .haltPending | 2 => .halted | 3 => .haltedHolding | 4 => .quenched | 5 => .gated
  | 6 => .resetting | 7 => .fenced | _ => .unresponsive

end Sys2Proof.Machine
end

