-- ==== Sys2Proof/Machine/State.lean ====
section
/-! DEFINITION. The state of the hub as plain data, why a command can stop, and the state right after reset.
A register's value stands in `Hub.regs`; what the spec gives the hub beside its registers (queues, deadlines, jobs in
progress, memories) stands in the records below, one kind of record for each kind of part. -/

namespace Sys2Proof.Machine

open Sys2Proof

/-! ### Trace and time (Chip Time, event stamping and trace) -/

/-- The Chip Time unit: the count (R47), whether it has started, and the ticks since a slew last withheld or inserted one
(R49). -/
structure Clock where
  chipTime : Nat := 0
  started : Bool := false
  phase : Nat := 0
  deriving DecidableEq, Repr

/-- The count reaches an instant, if it has not passed it; it has 64 bits (R47). -/
def Clock.reach (k : Clock) (d : Nat) : Clock := { k with chipTime := max k.chipTime d % 2 ^ 64 }
/-- The count goes on by some ticks; it has 64 bits (R47). -/
def Clock.add (k : Clock) (n : Nat) : Clock := { k with chipTime := (k.chipTime + n) % 2 ^ 64 }

/-- A trace record (R65): stamp, unit or hub-source ID, class, context and payload. -/
structure Rec where
  time : Nat
  src : Nat
  cls : Nat
  ctx : Nat
  pay : Nat
  deriving DecidableEq, Repr

/-- What a trigger matrix is offered (R160): a record, or a rising edge of XTRIG_IN. -/
inductive Offer where
  | record (r : Rec)
  | xtrig (time : Nat)
  deriving DecidableEq, Repr

/-- The unreported drops of one level at a collector (R75): their count and when their loss record falls due. -/
structure Loss where
  count : Nat := 0
  due : Nat := 0
  deriving DecidableEq, Repr

/-- An entry of a pending-poke queue (R115). -/
structure PendingPoke where
  unit : Nat
  off13 : Nat
  stager : Nat
  data : Word
  deriving DecidableEq, Repr

/-- A spoke, by die index: the lag that its replica of Chip Time has without its trim, and the count it holds (R48, R52);
a trim change that is still to be slewed, what the slew moves in all, and its last tick (R53); its collector's FIFO, the
level 7 records whose sources wait for it, and its unreported drops (R74, R75); and its pending-poke queue (R115). -/
structure SpokeX where
  lag : Int := 0
  floor : Nat := 0
  trimLeft : Int := 0
  trimTotal : Int := 0
  trimAt : Nat := 0
  fifo : List Rec := []
  held : List Rec := []
  loss : List (Nat × Loss) := []
  ppq : List PendingPoke := []
  deriving DecidableEq, Repr

/-- What the follower's alignment keeps between exchanges (R55 to R57): the rate in ppm, the last exchange, the runs of
good and bad offsets, and the entry to HOLDOVER; and the count of trace starts (R79), and that a full segment has
asked for the quench since the last (R77). -/
structure TimeX where
  rate : Int := 0
  heard : Nat := 0
  goodRun : Nat := 0
  badRun : Nat := 0
  holdoverAt : Nat := 0
  startCount : Nat := 0
  filled : Bool := false
  deriving DecidableEq, Repr

/-- An anvil node: its trace writer's FIFO, the level 7 records that wait for it, and its unreported drops (R74, R75);
whether the writer accepts records (R80), a stop that has reached it and not yet taken effect (R77), whether its fill
threshold was crossed since the last start (R78), and when its timer wheel last ticked (R342). -/
structure NodeX where
  fifo : List Rec := []
  held : List Rec := []
  loss : List (Nat × Loss) := []
  accept : Bool := false
  stopDue : Option Nat := none
  stopCause : Nat := 0
  crossed : Bool := false
  tickAt : Nat := 0
  deriving DecidableEq, Repr

/-! ### Striker cores -/

/-- An armed event slot (R149): its descriptor, its FIFO of payloads, and when a TIMER slot expires next. -/
structure Slot where
  desc : Nat
  fifo : List Word := []
  due : Option Nat := none
  deriving DecidableEq, Repr

/-- A posted HST the core has issued and the hub has not completed (R97): its issue stamp (R83) and the level it was issued
at (R100). -/
structure Posted where
  issued : Nat
  level : Nat
  addr : Nat
  width : Nat
  value : Word
  deriving DecidableEq, Repr

/-- An instruction that needs the Hearth, held while the hub is in FAILOVER (R110), with its operands as read. -/
inductive HearthOp where
  | lck (rd : RegNo) (lock limit : Word)
  | ulk (lock flags : Word)
  | lgrRead (rd : RegNo) (account : Word)
  | lgrOpen (arg : Word)
  | lgrClose (arg : Word)
  | lgrSeal (rd : RegNo)
  | txb (rd : RegNo)
  | txc (rd : RegNo) (id at_ : Word)
  | txa (id : Word)
  | capt (rd : RegNo) (plan : Word)
  | hld (rd : RegNo) (addr : Nat)
  | hst (addr : Nat) (value : Word)
  deriving DecidableEq, Repr

/-- What a core waits in: nothing, or the instruction its PC names, with what that instruction needs to finish. -/
inductive Wait where
  | idle
  | waitev (rd : RegNo) (mask deadline : Nat)
  | recv (rd : RegNo) (deadline : Nat)
  | twait (till : Nat)
  | cwait (rd : RegNo) (handle deadline : Nat)
  | lck (rd : RegNo) (lock : Nat)
  | fence (rd : RegNo)
  | hld (rd : RegNo) (addr : Nat)
  | quench (rd : RegNo)
  | reheat (rd : RegNo)
  | runControl (rd : RegNo) (cmd : Nat)
  | txc (rd : RegNo) (txn : Nat)
  | hearth (op : HearthOp)
  deriving DecidableEq, Repr

/-- A recipe as it was loaded (R146): its entry, its header's vector, level, watchdog reload and ID, its sections as
local address and bytes, its SLOTS entries, and its signature block. -/
structure ImageX where
  entry : Nat
  evec : Nat
  level : Nat
  wdog : Nat
  id : Nat
  sections : List (Nat × List Byte)
  slots : List (Nat × Nat)
  sig : List Byte
  deriving DecidableEq, Repr

/-- A Striker core beside its registers: what it waits in, its slots and inbox, its posted writes and their refusals
since the last FENCE (R99), an exception exit that waits for its JALR (R130), the watchdog's expiry while it counts
(R132), a WATCHDOG exception that the running instruction holds off (R133), the breakpoint a resume steps over (R463), a debug halt asked for while an instruction completes (R462), the
handles it was issued, the recipe it was loaded with, and whether a load has released it from reset (R146). -/
structure CoreX where
  released : Bool := false
  haltAsked : Bool := false
  wait : Wait := .idle
  slots : List (Nat × Slot) := []
  inbox : List (Nat × Word) := []
  posted : List Posted := []
  refused : Nat := 0
  firstFail : Option (Nat × Nat) := none
  exitArmed : Bool := false
  wdogDue : Option Nat := none
  wdogRaised : Bool := false
  bpSkip : Bool := false
  jobs : List Nat := []
  image : Option ImageX := none
  deriving DecidableEq, Repr

/-- What an RCV_CMD still runs for its master (R383, R384). -/
inductive RcvWait where
  | unit (u : Nat)
  | link (l : Nat)
  deriving DecidableEq, Repr

/-- A master's side of its register accesses: the status its last write ended with (R566), the word its last read
returned, a waiting acquire (R159), a run-control command (R199) and an HRT_QCH_CMD command (R209) that has not
finished, the estimator it selected (R349), and its recovery command that has not finished (R383, R384). -/
structure MasterX where
  wstat : Status := .ok
  rdata : Word := 0
  lckWaiting : Bool := false
  rcCmd : Option Nat := none
  qchBusy : Bool := false
  estSel : Option (Nat × Nat) := none
  rcv : Option RcvWait := none
  deriving DecidableEq, Repr

/-- A limit that counts Chip Time except while the quench line is asserted (R183, R187): the instant it falls due, or
what is left of it. -/
inductive Countdown where
  | runs (due : Nat)
  | paused (left : Nat)
  deriving DecidableEq, Repr

/-- A halt request a unit has not yet resolved: its cause (R177), when it reached the socket, whether the change to
HALT_PENDING has its record (R176), and the deferral once `lock_held` was reported (R182). -/
structure HaltX where
  cause : Nat
  since : Nat
  recorded : Bool := false
  defer : Option Countdown := none
  deriving DecidableEq, Repr

/-- A step in progress (R185 to R187): its count, the quanta it has completed, its cause, its limit, whether the halt
that ends it was requested, when and why (its count, its limit, or a HALT), and the deferral of that halt. -/
structure StepX where
  count : Nat
  cause : Nat
  limit : Countdown
  done : Nat := 0
  halting : Bool := false
  since : Nat := 0
  limited : Bool := false
  cancelled : Bool := false
  defer : Option Countdown := none
  deriving DecidableEq, Repr

/-- What the hub keeps about a unit beside its registers: the context of its last event, the sync object it last
reported, a halt and a step under way, the window words known while its clock stands still, the handshakes it still
answers before it meets the hub with silence (R114), when a probe and a reset must be answered, and a quench
acknowledgement still awaited, a stop record still owed and the stop time (R211 to R213). -/
structure UnitX where
  evCtx : Option Nat := none
  sync : Nat := 0
  halt : Option HaltX := none
  step : Option StepX := none
  win : List (Nat × Option Word) := []
  mute : Option Nat := none
  probeDue : Option Nat := none
  resetDue : Option Nat := none
  partReset : Bool := false
  ackDue : Option Nat := none
  stopDue : Bool := false
  stopAt : Nat := 0
  noAck : Bool := false
  deriving DecidableEq, Repr

/-- Where the outcome of a run-control command goes (R120, R199, R164, R438): a core's registers, a master's result
register, the trigger entry that fired, a transaction's report, or nowhere. -/
inductive Reply where
  | core (c : Nat) (rd : RegNo)
  | reg (m : Master)
  | fired (matrix entry : Nat)
  | txn (id index : Nat)
  | nobody
  deriving DecidableEq, Repr

/-- The run-control operations. -/
inductive RunOp where
  | halt | run | step
  deriving DecidableEq, Repr

/-- A unit a command targets: its outcome once it has one, and whether it has given its first answer (R119). -/
structure CmdUnit where
  unit : Nat
  status : Option Status := none
  first : Bool := false
  deriving DecidableEq, Repr

/-- A run-control command that has not finished (R119, R120). -/
structure RunCmd where
  op : RunOp
  nowait : Bool
  group : Bool
  reply : Reply
  units : List CmdUnit
  deriving DecidableEq, Repr

/-- An action a transaction holds until its commit instant (R430). -/
inductive StagedAct where
  | write (addr : Nat) (value : Word)
  | poke (target : Nat) (group : Bool) (word : Nat) (data : Word) (force : Bool)
  | pokep (target : Nat) (group : Bool) (word : Nat) (data : Word)
  | run (op : RunOp) (target : Nat) (group : Bool) (count : Nat)
  | quench (mask : Nat)
  | reheat (mask : Nat)
  deriving DecidableEq, Repr

/-- A failing part of a committed transaction (R438): the action's index, the unit or 0xFFFF, and the status. -/
structure TxnFail where
  index : Nat
  unit : Nat
  status : Status
  deriving DecidableEq, Repr

/-- A transaction beside TXN_STATE_t, TXN_TIME_t and TXN_OWNER_t: its actions in staging order, the report buffer
copied at the open (R438), the outcomes that are not OK, how many actions are without a final outcome, and when it
ended. -/
structure TxnX where
  acts : List StagedAct := []
  rptAddr : Nat := 0
  rptCap : Nat := 0
  fails : List TxnFail := []
  waiting : List Nat := []
  endedAt : Nat := 0
  viaReg : Bool := false
  deriving DecidableEq, Repr

/-- A waiting acquire of a hub lock (R124): who waits, when its limit passes, and whether it came through LCK_REQ. -/
structure LockWaiter where
  who : Master
  limit : Nat
  viaReg : Bool
  deriving DecidableEq, Repr

/-- A hub lock beside LCK_STATE: when its lease lapses, and its waiters, oldest first. -/
structure LockX where
  due : Nat := 0
  waiters : List LockWaiter := []
  deriving DecidableEq, Repr

/-- A recipe load in progress (R146): the image, the target, the master's level and what the check found. -/
structure LoadX where
  image : Nat
  target : Nat
  level : Nat
  deriving DecidableEq, Repr

/-! ### Links, notices and the outside -/

/-- A fabric link's banker beside BNK_LINK_k: when the link was banked, when a banking under way must be done (R224),
when the next keep-alive is due (R223), the flits it holds, and a return under way (R228). -/
structure LinkX where
  bankedAt : Nat := 0
  bankDue : Option Nat := none
  keepDue : Nat := 0
  rx : List Word := []
  returning : Bool := false
  deriving DecidableEq, Repr

/-- Where a notice goes (R507). -/
inductive NoticeTo where
  | mailbox (agent : Nat)
  | endpoint (eid : Nat) (i3c : Bool)
  | session (s : Nat)
  deriving DecidableEq, Repr

/-- The control flits of a banked link (R222, R223). -/
inductive FlitKind where
  | hold | keepAlive | noCredits | credits
  deriving DecidableEq, Repr

/-! ### Quench, Reheat and Bellows -/

/-- A request the quench root has received and not yet asserted (R204): its source code, the hub source that asked,
its die mask, and who hears of its outcome. -/
structure QuenchReq where
  source : Nat
  unit : Nat
  mask : Nat
  reply : Option Reply := none
  deriving DecidableEq, Repr

/-- A rail in a ramp: its number in the channel, its clock-tree model as the ramp began, the notch it began from,
the ballast code it ends at, and whether its settle was cut short (R220). Of a down-ramp: the sample just before its first
notch with the ballast code then, whether it has taken its last, the clock-phase drop in 0.25 A units once the sample after
that has come, and the sum and count of the settle's samples (R217, R220). -/
structure RailRamp where
  k : Nat
  clk : Rat
  start : Nat
  target : Nat := 0
  cut : Bool := false
  first : Option (Nat × Nat) := none
  stopped : Bool := false
  drop : Option Rat := none
  sum : Nat := 0
  count : Nat := 0
  deriving DecidableEq, Repr

/-- A Bellows channel in a ramp (R217): its rails, when its next step falls due, how long one unit of current takes at
its share of the rate, and the rail it stepped last. -/
structure ChanRamp where
  node : Nat
  rails : List RailRamp
  due : Rat
  pace : Rat := 0
  last : Nat := 0
  deriving DecidableEq, Repr

/-- A ramp, down for one assertion or up for a Reheat: when it began, the dies named, what it moves in 0.25 A units, the part
that leaves unramped (R216), its channels, and the start and the end of its settle. -/
structure RampX where
  up : Bool
  began : Nat
  mask : Nat
  removed : Rat := 0
  uncovered : Rat := 0
  clipped : Bool := false
  chans : List ChanRamp := []
  settleAt : Nat := 0
  settleDue : Option Nat := none
  deriving DecidableEq, Repr

/-- A Reheat between its acceptance and its release (R232): its dies, its acceptance, whether it has started, who
hears of its start, and whether it waits for the handover instant. -/
structure ReheatX where
  mask : Nat
  accepted : Nat
  started : Option Nat := none
  reply : Option Reply := none
  deriving DecidableEq, Repr

/-- The Bellows model of a rail (R220), exact, once it has been adapted, and the insertion code of its last quench. -/
structure RailX where
  leak : Option Rat := none
  clk : Option Rat := none
  code : Nat := 0
  deriving DecidableEq, Repr

/-- An overhead interval of a die (R403): its reason, and for a commanded one its core and its 60 s limit. -/
structure OvhX where
  reason : Nat
  owner : Option Nat := none
  due : Nat := 0
  deriving DecidableEq, Repr

/-- The operations of a unit socket's run-control group (R517, R523). -/
inductive SocketOp where
  | halt | run | step | probe | force
  deriving DecidableEq, Repr

/-- The SPDM errors the hub answers with (R483, R484, R487), and those of the SPDM standard for a request out of order
or of a message that does not verify. -/
inductive SpdmError where
  | invalidRequest | unsupportedRequest | sessionLimitExceeded | unexpectedRequest | decryptError
  deriving DecidableEq, Repr

/-- An SPDM response (R484 to R487), with what the hub chooses in it. -/
inductive SpdmRsp where
  | version (versions : List Nat)
  | capabilities
  | algorithms
  | digests (slots : Nat)
  | certificate (slot : Nat)
  | challengeAuth (slot : Nat)
  | measurements (index : Nat) (value : List Byte)
  | keyExchange (session : Nat) (mutualAuth : Bool) (heartbeat : Nat)
  | finish
  | encapsulatedRequest
  | encapsulatedAck
  | heartbeatAck
  | keyUpdateAck
  | endSessionAck
  | error (e : SpdmError)
  deriving DecidableEq, Repr

/-- An inner frame from the hub (R495), the status that answers an unknown opcode, or an SPDM response of a session
(R484). -/
inductive Inner where
  | spdm (r : SpdmRsp)
  | aut (st : Status) (level : Nat)
  | read (st : Status) (done : Nat) (data : List Byte)
  | write (st : Status) (done : Nat)
  | opened (st : Status) (id : Nat) (size : Nat)
  | data (id : Nat) (st : Status) (offset : Nat) (bytes : List Byte) (last : Bool)
  | notice (entry : List Byte)
  | unknown (st : Status)
  deriving DecidableEq, Repr

/-- The payload of a Vynuond frame from the hub (R489 to R495). -/
inductive VynBody where
  | helloAck (versions payload : Nat) (credits : VynCredits)
  | credit (c : VynCredits)
  | nak (expected : Nat)
  | spdm (r : SpdmRsp)
  | secured (session tag : Nat) (x : Inner)
  deriving DecidableEq, Repr

/-- A Vynuond frame from the hub: its class, link sequence and ack, and its payload. -/
structure VynFrame where
  cls : Nat
  seq : Nat
  ack : Nat
  body : VynBody
  deriving DecidableEq, Repr

/-- What leaves the hub, in the order it is sent. -/
inductive Msg where
  | notice (dest : NoticeTo) (entry : List Byte)
  | flit (link : Nat) (kind : FlitKind)
  | delivered (link : Nat) (flits : List Word)
  | runControl (unit : Nat) (op : SocketOp) (count : Nat)
  | write (unit word : Nat) (data : Word)
  | spine (dest src : SpinePort) (beats : Nat)
  | selfRefresh (stack : Nat) (enter : Bool)
  | partitionReset (p : Nat) (asserted : Bool)
  | unitReset (unit : Nat)
  | chipReset (asserted : Bool)
  | fenced (p : Nat) (work : NewWork)
  | alertAddress
  | pmbusRead (address page : Nat) (eout : Bool)
  | frame (jtag : Bool) (f : VynFrame)
  | spdm (ch : Chan) (r : SpdmRsp)
  | inner (session tag : Nat) (x : Inner)
  | mctp (tr : McTransport) (cmd completion : Nat) (data : List Byte)
  | i3c (ccc : Nat) (data : List Byte)
  | inBandInterrupt
  | jtag (dr : List Byte)
  | requester (ch : Chan)
  deriving DecidableEq, Repr

/-- A host mailbox channel (R509). -/
structure MailX where
  rspLength : Nat := 0
  rspReady : Bool := false
  rspStatus : Nat := 0
  asked : Bool := false
  ntfBase : Nat := 0
  ntfEntries : Nat := 16
  ntfEnable : Bool := false
  ntfOverflow : Nat := 0
  ntfHead : Nat := 0
  ntfPhase : Bool := false
  deriving DecidableEq, Repr

/-- What the notices of a hold keep (R229, R230): the sequence number, whether a PEER_HOLD is out, the set of banked links
last announced, and the links returned since the first; and the sequence numbers of R507 per destination. -/
structure NoticeX where
  seq : Nat := 0
  holding : Bool := false
  announced : Nat := 0
  returned : Nat := 0
  destSeq : List (Nat × Nat) := []
  deriving DecidableEq, Repr

/-- A notice held back while the hub is in FAILOVER (R442): its type, its body, and the exporting agent it is for. -/
structure HeldNotice where
  type : Nat
  body : List Byte
  agent : Option Nat
  deriving DecidableEq, Repr

/-- A block of a region (R268, R277): its status, its stored size and place in KiB, how it was read, whether it lies in
the spill buffer, and a raw original that has no space yet (R257). -/
structure BlockX where
  status : Nat
  size : Nat := 0
  loc : Nat := 0
  viaScan : Bool := false
  host : Bool := false
  kept : Option (List Byte) := none
  deriving DecidableEq, Repr

/-- A region of a plan (R247) and what a capture makes of it: its coder as applied, whether it was raised (R254), its
slots, its overflow reserve and its share of the spill buffer with what each holds, its omission and first reason
(R276), its blocks, whether it has been read with the Chip Times of its reads (R265), the scans that have failed once (the
banks of an SRAM region, 0 for a SCAN region), whether its scan was valid (R261), and the state its unit entered while it
was unread (R265); and the SRAM blocks that scan reads singly (R528). -/
structure RegionX where
  kind : Nat
  coder : Nat
  unit : Nat
  dest : Nat
  off : Nat
  len : Nat
  blocks : Nat
  node : Nat := 0
  raised : Bool := false
  area : List (Nat × Nat) := []
  tail : Nat := 0
  ovf : List (Nat × Nat) := []
  ovfUsed : Nat := 0
  spill : List (Nat × Nat) := []
  spillUsed : Nat := 0
  omitted : Option Nat := none
  reason : Nat := 0
  blk : List (Nat × BlockX) := []
  begun : Bool := false
  first : Nat := 0
  last : Nat := 0
  retried : List Nat := []
  scanOk : Bool := false
  queued : List Nat := []
  stopped : Option RunState := none
  deriving DecidableEq, Repr

/-- A capture plan as read (R246). -/
structure PlanX where
  addr : Nat
  flags : Nat
  raiseMax : Nat
  recipient : Nat
  fallbackMs : Nat
  dieMask : Nat
  tag : Nat
  regions : List RegionX
  deriving DecidableEq, Repr

/-- A capture, by handle (R249 to R276): its job slot, plan, plan number and starter (R152), its state as CRU_JOB_s
shows it, its status, its times, its extents, block indexes and manifest, the units' states at its start, the SRAM
banks whose ports fell silent (R263), a cancel (R271), the exports that read it, and a release that waits for them
(R272). -/
structure CaptureX where
  slot : Nat
  plan : PlanX
  number : Nat := 0xFF
  starter : Nat := 3
  state : Nat := 1
  status : Nat := 0
  startedAt : Nat := 0
  closedAt : Nat := 0
  q : Nat := 0
  extents : List (Nat × Nat) := []
  idx : List (Nat × (Nat × Nat)) := []
  manifest : Nat := 0
  unitsAtStart : List (Nat × (Nat × Nat)) := []
  silentBanks : List (Nat × Nat) := []
  cancelled : Bool := false
  exports : Nat := 0
  releaseAsked : Bool := false
  deriving DecidableEq, Repr

/-- A Swage job's descriptor (R307). -/
structure SwgDesc where
  op : Nat
  coder : Nat
  policy : Nat
  left : Bool
  pitch : Nat
  source : Nat
  length : Nat
  chain : Nat
  outLimit : Nat
  list : Nat
  listCap : Nat
  deriving DecidableEq, Repr

/-- An output buffer a job has reached (R309): its descriptor, its place and size, and what it holds. -/
structure SwgBuf where
  desc : Nat
  addr : Nat
  size : Nat
  next : Nat
  used : Nat := 0
  blocks : Nat := 0
  closed : Bool := false
  deriving DecidableEq, Repr

/-- A Swage job, by engine and job slot (R307 to R316): its handle, issuer and descriptor, how much source it has
taken, its blocks and output, its buffers in chain order, the appended descriptors that wait (R311), its blocks that
did not fit, and a cancel (R314). -/
structure SwgJob where
  handle : Nat
  issuer : Nat
  desc : SwgDesc
  pos : Nat := 0
  blocks : Nat := 0
  out : Nat := 0
  nofit : Nat := 0
  bufs : List SwgBuf := []
  queue : List Nat := []
  cancelled : Bool := false
  deriving DecidableEq, Repr

/-- A transfer in a requester's queue at an arbiter (R319 to R324): its requester there, where it came from, what is
left of it, whether it has been granted there, its age stamp once it has reached the head of its first queue, and the
class it carries from another node. -/
structure Waiting where
  tr : Transfer
  req : Nat
  src : SpinePort
  left : Nat
  begun : Bool := false
  stamp : Option Nat := none
  cls : Option Nat := none
  deriving DecidableEq, Repr

/-- The arbiter of a spine output, beside SPN_OUT, or of a Tongs uplink (R323 to R334): its queues in arrival order, the
beats left of the holder's grant, the requester last granted, the beats of a requester in a row against others, the
allocation each requester has used in this quota window, the requester a hog cut leaves out of the next decision, the
window's number, and an uplink's holder and count of URGENT beats, for which it has no registers. -/
structure OutX where
  waiting : List Waiting := []
  grantLeft : Nat := 0
  last : Nat := 47
  run : Nat := 0
  allocUsed : List (Nat × Nat) := []
  skip : Option Nat := none
  window : Nat := 0
  upHolder : Option Nat := none
  upUrgent : Nat := 0
  deriving DecidableEq, Repr

/-! ### Hang watch and the wait-for engine -/

/-- An in-flight command of a context (R341): its sequence number, class, queue and engine, the context's counter at
its dispatch (none until the first tick after it), its budget (none: it never expires), its dispatch, the tick at
which it reached its budget, and whether the wheel has carried out its expiry (R346). -/
structure Inflight where
  seq : Nat
  cls : Nat
  queue : Nat
  engine : Nat
  time : Nat
  budget : Option Nat
  u0 : Option Nat := none
  due : Option Nat := none
  expired : Bool := false
  deriving DecidableEq, Repr

/-- The step marks (R381). -/
inductive Mark where
  | stepBegin | updateBegin | stepEnd
  deriving DecidableEq, Repr

/-- A notice or mark on the hang-watch path (R339, R380). -/
inductive WheelNote where
  | dispatch (seq cls queue engine : Nat)
  | leave (seq : Nat) (aborted : Bool)
  | mark (kind : Mark) (step : Nat)
  deriving DecidableEq, Repr

/-- A context: its unheld-time counter, whether it was held at an instant since the last tick (R342), its in-flight
entries in dispatch order, whether a unit fault carrying it arrived since its last completion (R353), and its
estimators by class: q and n (R348). -/
structure CtxX where
  u : Nat := 0
  held : Bool := false
  inflight : List Inflight := []
  faulted : Bool := false
  ests : List (Nat × (Nat × Nat)) := []
  deriving DecidableEq, Repr

/-- A tracked wait (R352): its context, unit, awaited value and begin, and its orphan reason (R355). -/
structure Waiter where
  ctx : Nat
  unit : Nat
  value : Nat
  began : Nat
  orphan : Nat := 0
  deriving DecidableEq, Repr

/-- A sync object (R351, R352): its kind, its declared producer and that of its most recent signal (a chip or a
context, by number), its value, its last signal, the last signal of each remote chip, its sync engine, its STALE mark
and the partition whose reset set it (R360), and its waiters, oldest first. -/
structure ObjX where
  semaphore : Bool := false
  declared : Option (Bool × Nat) := none
  lastBy : Option (Bool × Nat) := none
  value : Nat := 0
  lastSig : Option Nat := none
  chipSig : List (Nat × Nat) := []
  engine : Option Nat := none
  stale : Bool := false
  resetOf : Option Nat := none
  waiters : List Waiter := []
  deriving DecidableEq, Repr

/-- An analysis that has been started and has not ended (R358): the context of the expiry that started it, and the
dumps it makes (R359). -/
structure Analysis where
  trigger : Nat := 0
  dumps : List (Nat × Nat) := []
  deriving DecidableEq, Repr

/-- The wait-for engine: its objects, an analysis under way, the one further that follows it (R358), and the sequence
of its orphan reports (R356). -/
structure WfgX where
  objs : List (Nat × ObjX) := []
  wanted : Option Analysis := none
  further : Option Analysis := none
  seq : Nat := 0
  deriving DecidableEq, Repr

/-! ### Recovery -/

/-- A move of a recovery lane that a handover holds back (R388): a fence with its reason, FENCE_ONLY or not; CONTINUE and
UNFENCE of a HELD lane; and RETIRE. -/
inductive LaneMove where
  | fence (p reason : Nat) (fenceOnly : Bool)
  | resume (p : Nat)
  | unfence (p : Nat)
  | retire
  deriving DecidableEq, Repr

/-- A partition's recovery lane beside ANV_RCV_STATUS, ANV_RCV_TIME and ANV_RCV_CLASS (R363 to R377): whether it holds
after the drain; the end of the drain, and that it has ended; the incident capture it waits for; the end of HOLD, that
its stacks have been told, and that it has passed; the release of the reset and its check, and that it was repeated;
the end of R376's limit; the channel groups and links still training, with their failed attempts; that the resume has
ended; the root context at F; the resets in the window; and an escalation that a handover holds back (R388). -/
structure LaneX where
  fenceOnly : Bool := false
  drain : Option Countdown := none
  drained : Bool := false
  incident : Option Nat := none
  hold : Option Countdown := none
  asked : Bool := false
  holdOver : Bool := false
  release : Option Nat := none
  check : Option Nat := none
  repeated : Bool := false
  limit : Option Nat := none
  mem : List (Nat × Nat) := []
  links : List (Nat × Nat) := []
  resumed : Bool := false
  root : Nat := 0
  resets : Nat := 0
  escalate : Option Nat := none
  deriving DecidableEq, Repr

/-! ### The energy ledger -/

/-- The ledger's checkpoint (R422): the chain, the last signed sequence and that record's hash. -/
structure Checkpoint where
  chain : Nat := 0
  seq : Nat := 0
  hash : List Byte := []
  deriving DecidableEq, Repr

/-- An accumulator (R401, R412): energy in 1/16 nJ since its last record, with the residue that record left, and the
parts of it that came through merged classes, through fixed classes and from replaced rails (R414); its occupancy in
1/64 unit-µs; the start of its next record (none: the chain's start); and the flags SPANS and OVH_LIMIT that record
will carry. -/
structure AccX where
  energy : Nat := 0
  merged : Nat := 0
  fixed : Nat := 0
  subst : Nat := 0
  occ : Nat := 0
  since : Option Nat := none
  spans : Bool := false
  limit : Bool := false
  deriving DecidableEq, Repr

/-- An accumulator that a tag change closed (R399): its account, its tag, what it held, and when. -/
structure ClosedX where
  account : Nat
  tag : Nat
  acc : AccX
  at_ : Nat
  deriving DecidableEq, Repr

/-- A row of an attribution table (R398): its class counts and its occupancy in 1/64 unit-µs that are not yet
attributed, and the counts of the interval that are (R392). -/
structure RowX where
  counts : List (Nat × Nat) := []
  occ : Nat := 0
  past : List (Nat × Nat) := []
  deriving DecidableEq, Repr

/-- A closed batch (R415, R416): the slots of its first record and of its BATCH entry, its records, the sequence of
the first, the hash of the last, that record's epoch and sequence, its close, and whether it is signed. -/
structure BatchX where
  start : Nat
  entry : Nat
  count : Nat
  firstSeq : Nat
  lastHash : List Byte
  epoch : Nat
  lastSeq : Nat
  time : Nat
  signed : Bool := false
  deriving DecidableEq, Repr

/-- A coefficient set (R406, R455): the 72 values in the units of LDG_COEF_j, for each its state and partner, the
class mask, and the epochs of its window. -/
structure FitX where
  values : List Nat
  states : List (Nat × Nat) := []
  mask : Nat := 0
  first : Nat := 0xFFFFFFFF
  last : Nat := 0xFFFFFFFF
  deriving DecidableEq, Repr

/-- What a record says (R411). -/
structure RecordX where
  kind : Nat
  flags : Nat := 0
  start : Nat
  stop : Nat
  account : Nat := 0
  tag : Nat := 0
  energy : Nat := 0
  unc : Nat := 0
  occ : Nat := 0
  a : Nat := 0
  b : Nat := 0
  version : Option Nat := none
  epoch : Option Nat := none
  deriving DecidableEq, Repr

/-- The sums of a calibration window (R406): g by index pair 72i + j, h by index, in counts, milliseconds and nJ. -/
structure SumsX where
  g : List (Nat × Nat) := []
  h : List (Nat × Nat) := []
  deriving DecidableEq, Repr

/-- An entry of the regulator check (R393 to R395): its disagreements and agreements in a row, each rail's share of
its last agreeing checks, what replaces each rail's energy for a millisecond, a transaction that was abandoned in this
one (R513), and the energy accumulator read in the last one (R393). -/
structure PmbX where
  bad : Nat := 0
  good : Nat := 0
  shares : List (List (Nat × Rat)) := []
  subst : List (Nat × Rat) := []
  abandoned : Bool := false
  lastEout : Option Nat := none
  deriving DecidableEq, Repr

/-- What a rail's samples of one overhead reason gave (R392): their energy in 1/16 nJ, the part of it that replaces a
sensor's (R394), and how many they were. -/
structure PartX where
  energy : Nat := 0
  subst : Nat := 0
  samples : Nat := 0
  deriving DecidableEq, Repr

/-- A rail in its interval: the parts not yet charged, by overhead reason (0 for none); for the calibration its energy
outside overhead intervals, in nJ; and whether some sample of it keeps the interval out of the window (R406). -/
structure IntervalX where
  parts : List (Nat × PartX) := []
  clean : Nat := 0
  tainted : Bool := false
  deriving DecidableEq, Repr

/-- The ledger beside its registers: the chain's start; the last sample, interval and regulator boundaries; each
rail in its interval, and its sensor's energy since the last check; the attribution tables; the
accumulators, the package total and the closed ones; the pending tag changes; the batches, the open one and one whose
entry has no room yet; the hash and the end of the last record; the regulators; the calibration; the records that go
before any other, and whether the Hearth that writes them has restarted and not resumed (R421). -/
structure LedgerX where
  started : Bool := false
  chainStart : Nat := 0
  sampleAt : Nat := 0
  intervalAt : List (Nat × Nat) := []
  checkAt : Nat := 0
  rails : List (Nat × IntervalX) := []
  msEnergy : List (Nat × Nat) := []
  rows : List (Nat × RowX) := []
  accs : List (Nat × AccX) := []
  total : AccX := {}
  closed : List ClosedX := []
  tagDue : List (Nat × (Nat × Nat)) := []
  batches : List BatchX := []
  openAt : Nat := 0
  openCount : Nat := 0
  openSeq : Nat := 0
  sealWait : Bool := false
  prevHash : List Byte := []
  lastEnd : Nat := 0
  lastEpoch : Nat := 0
  pmb : List (Nat × PmbX) := []
  sums : SumsX := {}
  windowEpochs : Nat := 0
  windowFirst : Nat := 0
  solving : Option (SumsX × Nat × Nat) := none
  solved : Option FitX := none
  loaded : Option FitX := none
  owed : List RecordX := []
  rests : Bool := false
  seedCoefs : List Nat := []
  lastSigned : Nat := 0
  lastHash : List Byte := []
  ckpt : Checkpoint := {}
  ckptTurn : Nat := 0
  deriving DecidableEq, Repr

/-! ### Groups, failover, update and start-up -/

/-- An ARM of a package-scope group that has not yet taken effect (R428): its instant (none: when the group commands
issued before it have completed, R171), the shadow values it applies, and where it places the trace segments (R72). -/
structure ArmX where
  due : Option Nat := none
  vals : List (Nat × Option Word) := []
  cmds : List Nat := []
  segments : List (Nat × Nat) := []
  deriving DecidableEq, Repr

/-- A takeover and what follows it (R442, R444): the handover instant, when the old Hearth must be ready, and that the
standby restarts by command (R448). -/
structure FailX where
  handover : Option Nat := none
  peerDue : Option Nat := none
  restandby : Bool := false
  deriving DecidableEq, Repr

/-- An operation of the update engine (R446): 0 ERASE, 1 WRITE, 2 VERIFY, 3 ACTIVATE, its slot, and its offset and length
in bytes, and the source of a WRITE. -/
structure UpdX where
  op : Nat
  slot : Nat
  offset : Nat := 0
  length : Nat := 0
  src : Nat := 0
  deriving DecidableEq, Repr

/-- A map operation (R450, R452): its bank group 8p + g. -/
structure MapX where
  mapIn : Bool
  group : Nat
  deriving DecidableEq, Repr

/-- Start-up (R545): the stages that have finished, the image slot that was booted, and that no image verified
(R553), with the slot the standby booted from (R448) and whether this is a Hearth restart (R541). -/
structure BootX where
  restart : Bool := false
  done : List Nat := []
  slot : Option Nat := none
  peerSlot : Option Nat := none
  failed : Bool := false
  deriving DecidableEq, Repr

/-- The chip reset sequence (R555, R556): its start, that its completion ends RETIRED (R42), the channel groups and links
still training with their failed attempts, when the compute dies are released, and that its last step has ended. -/
structure SeqX where
  began : Nat
  unretires : Bool := false
  mem : List (Nat × Nat) := []
  links : List (Nat × Nat) := []
  release : Option Nat := none
  last : Bool := false
  deriving DecidableEq, Repr

/-! ### Ports -/

/-- A channel's SPDM connection (R483, R484): how many of GET_VERSION, GET_CAPABILITIES and NEGOTIATE_ALGORITHMS it has
behind it, and the session whose handshake is under way. -/
structure SpdmX where
  done : Nat := 0
  handshake : Option Nat := none
  deriving DecidableEq, Repr

/-- A session, by AUT_SESS number: its channel and SPDM session ID, how far its handshake is (0 KEY_EXCHANGE, 1 the
requester's chain asked for, 2 delivered, 3 finished), the requester's anchor and that anchor's highest level, and the
session's last valid secured message. -/
structure SessX where
  chan : Chan
  id : Nat
  phase : Nat := 0
  anchor : Nat := 0
  maxLevel : Nat := 0
  lastAt : Nat := 0
  deriving DecidableEq, Repr

/-- A sent frame in the replay buffer (R491): when it was last sent, and how often it was replayed. -/
structure SentX where
  frame : VynFrame
  at_ : Nat
  replays : Nat := 0
  deriving DecidableEq, Repr

/-- A Vynuond link (R490 to R493), the port's or the JTAG mailbox's: its state as VYN_STATUS codes it, the negotiated
version and payload code, the next sequence to receive and to send, the credits each side holds, the replay buffer,
the frames that wait for credit, and for the mailbox the words from and to JTAG (R512). -/
structure VynX where
  state : Nat := 0
  version : Nat := 0
  payload : Nat := 0
  rxNext : Nat := 0
  txNext : Nat := 0
  held : VynCredits := { control := 0, access := 0, stream := 0 }
  given : VynCredits := { control := 0, access := 0, stream := 0 }
  replay : List SentX := []
  waiting : List (Nat × VynBody) := []
  words : List (BitVec 32) := []
  deriving DecidableEq, Repr

/-- An EXPORT_READ under way (R501). -/
structure ReadX where
  tag : Nat
  offset : Nat
  stop : Nat
  deriving DecidableEq, Repr

/-- An export instance (R497 to R503): its capture, owner, request tag, recipient slot (none: PLAIN) with the public key it
wraps to, flags, the draw its own key comes from, its host destination with the limit, whether its layout is fixed, the blocks that failed VERIFY, its
image once laid out, and the reads it serves. -/
structure ExportX where
  capture : Nat
  owner : Master
  tag : Nat := 0
  recipient : Option Nat
  key : List Byte := []
  recode : Bool
  verify : Bool
  draw : Nat
  dest : Option (Nat × Nat) := none
  ready : Bool := false
  image : List Byte := []
  reads : List ReadX := []
  deriving DecidableEq, Repr

/-- An MCTP transport's endpoint ID, and on PCIe whether the endpoint has been discovered (R505, R506). -/
structure MctpX where
  eid : Nat := 0
  discovered : Bool := false
  deriving DecidableEq, Repr

/-- The I3C target (R505): its dynamic address, its enabled events, its maximum read and write lengths. -/
structure I3cX where
  addr : Option Nat := none
  events : Nat := 0
  mrl : Nat := 0
  mwl : Nat := 0
  deriving DecidableEq, Repr

/-- The JTAG TAP (R510, R511): its instruction, and the segment SIBs that are open, by scan segment. -/
structure TapX where
  ir : Byte := 0
  sibs : List Nat := []
  deriving DecidableEq, Repr

/-- What the registers hold beyond their reset values, and everything the hub keeps beside its registers. -/
structure Hub where
  regs : List (Nat × Word) := []
  shadow : List (Nat × Option Word) := []
  mem : List Host.Cell := []
  fresh : Nat := 0
  owedStep : Nat := 0
  powered : Bool := false
  cut : List Nat := []
  booting : Bool := true
  failover : Bool := false
  retired : Bool := false
  time : TimeX := {}
  spokes : List (Nat × SpokeX) := []
  nodes : List (Nat × NodeX) := []
  quenchReqs : List QuenchReq := []
  ramps : List RampX := []
  reheat : Option ReheatX := none
  rails : List (Nat × RailX) := []
  ovh : List (Nat × List OvhX) := []
  chipReset : Option Nat := none
  captures : List (Nat × CaptureX) := []
  captureSeq : Nat := 0
  plans : List (Nat × PlanX) := []
  doneJobs : List (Nat × Nat) := []
  heldJobs : List (Nat × Status) := []
  swg : List (Nat × SwgJob) := []
  swgSeq : Nat := 0
  swgTurn : List (Nat × Nat) := []
  hostPath : Bool := true
  xtrigUntil : Nat := 0
  spine : List (Nat × OutX) := []
  emberExitAt : Nat := 0
  ctxs : List (Nat × CtxX) := []
  wheelNotes : List (Nat × WheelNote) := []
  wfg : WfgX := {}
  lanes : List (Nat × LaneX) := []
  resetStarts : List Nat := []
  seeds : List (Nat × List Byte) := []
  retrains : List (Nat × Nat) := []
  emberActs : List (Nat × Nat × Bool) := []
  laneMoves : List LaneMove := []
  warmReq : Option Nat := none
  ledger : LedgerX := {}
  failoverAt : Nat := 0
  units : List (Nat × UnitX) := []
  cmds : List (Nat × RunCmd) := []
  nextCmd : Nat := 0
  txns : List (Nat × TxnX) := []
  cores : List (Nat × CoreX) := []
  masters : List (Nat × MasterX) := []
  locks : List (Nat × LockX) := []
  links : List (Nat × LinkX) := []
  mail : List (Nat × MailX) := []
  notices : NoticeX := {}
  heldNotices : List HeldNotice := []
  heldEvents : List (Nat × Nat) := []
  out : List Msg := []
  load : Option LoadX := none
  offers : List (Nat × List (Nat × Offer)) := []
  arms : List (Nat × ArmX) := []
  fail : FailX := {}
  upd : Option UpdX := none
  mapOp : Option MapX := none
  recal : List Nat := []
  boot : BootX := {}
  seq : Option SeqX := none
  spdm : List (Nat × SpdmX) := []
  sess : List (Nat × SessX) := []
  vyn : List (Nat × VynX) := []
  exports : List (Nat × ExportX) := []
  rcptKeys : List (Nat × List Byte) := []
  mctp : List (Nat × MctpX) := []
  i3c : I3cX := {}
  tap : TapX := {}
  deriving DecidableEq, Repr

/-- The machine: its Chip Time, the hub, and the commands that wait, first in, first out. -/
structure State where
  clk : Clock
  hub : Hub
  pending : List Instr
  deriving DecidableEq, Repr

/-- Why the machine stops: nothing stops the hub. -/
inductive Fault where
  deriving DecidableEq, Repr

/-- Why a command has no effect at all. -/
inductive Refusal where
  /-- The dispatch of a command whose meaning is not written. Safe. -/
  | notModelled (mnemonic : String)
  /-- A command that names a part the hub does not have (a core, spoke, link, lock or slot beyond the last): no such
  command can reach the hub. Raised by every meaning that names a part by number. Safe. -/
  | illFormed
  deriving DecidableEq, Repr

/-- The outcome of a command. -/
abbrev Out := Host.Outcome State Fault Refusal

/-- The machine right after reset: every register at its reset value, every memory byte as an unwritten one reads,
Chip Time at zero and not started, and no command waiting. -/
def State.reset : State := { clk := {}, hub := {}, pending := [] }

end Sys2Proof.Machine
end

