-- ==== Sys2Proof/Machine/Ops.lean ====
section
/-! DEFINITION. The operations every meaning is written over: the topology of the package, register and memory access,
the records of the hub's parts, trace records, and the ways a command acts on the state. -/

namespace Sys2Proof.Machine

open Sys2Proof

/-! ### Units of time: Chip Time ticks of 0.25 ns (R11) -/

/-- Ticks in `n` nanoseconds. -/
def ns (n : Nat) : Nat := 4 * n
/-- Ticks in `n` microseconds. -/
def us (n : Nat) : Nat := 4000 * n
/-- Ticks in `n` milliseconds. -/
def ms (n : Nat) : Nat := 4000000 * n
/-- Ticks in `n` seconds. -/
def secs (n : Nat) : Nat := 4000000000 * n

/-! ### Topology (R3, R4, R7, R20, R64) -/

/-- The die index of a unit or hub-source ID (R4). -/
def dieOf (u : Nat) : Nat := u / 2048
/-- The local index of a unit or hub-source ID (R4). -/
def localOf (u : Nat) : Nat := u % 2048
/-- How many units a die populates. -/
def unitsOnDie (d : Nat) : Nat := if d < 8 then 0x14 else 0x9D
/-- The unit exists (R5). -/
def unitOk (u : Nat) : Bool := decide (dieOf u < 32) && decide (localOf u < unitsOnDie (dieOf u))
/-- The anvil node that serves a die (R7): its own on a base die, its base die's on a compute die. -/
def nodeOf (d : Nat) : Nat := if d < 8 then d else (d - 8) / 3
/-- The dies of partition p (R7). -/
def partitionDies (p : Nat) : List Nat := [p, 8 + 3 * p, 9 + 3 * p, 10 + 3 * p]
/-- The unit IDs of a die, in ascending order. -/
def unitsOf (d : Nat) : List Nat := (List.range (unitsOnDie d)).map (d * 2048 + ·)
/-- The fabric link that link engine `u` drives, if `u` is a link engine (R201). -/
def linkOfUnit (u : Nat) : Option Nat :=
  if dieOf u < 8 ∧ 8 ≤ localOf u ∧ localOf u < 14 then some (6 * dieOf u + (localOf u - 8)) else none
/-- The link engine of a fabric link (R201). -/
def unitOfLink (l : Nat) : Nat := l / 6 * 2048 + 8 + l % 6
/-- The unit is a matrix engine. -/
def isMatrixEngine (u : Nat) : Bool := decide (8 ≤ dieOf u) && decide (localOf u < 16)

/-- The hub-source ID is that of a Striker core that exists (R148). -/
def coreOk (c : Nat) : Bool :=
  let d := dieOf c
  let l := localOf c
  if d = 0 ∨ d = 4 then decide (0x7F0 ≤ l) && decide (l ≤ 0x7F9)
  else if d < 8 then l == 0x7F8 || l == 0x7F9
  else decide (d < 32) && l == 0x7F8
/-- The core belongs to a Hearth cluster. -/
def isHearthCore (c : Nat) : Bool := decide (localOf c < 0x7F8)
/-- The number of a core's copy of each Striker register: 16 for each die. -/
def coreIdx (c : Nat) : Nat := dieOf c * 16 + (localOf c - 0x7F0)
/-- Every Striker core, by hub-source ID. -/
def allCores : List Nat :=
  (List.range 32).flatMap fun d => ((List.range 10).map (d * 2048 + 0x7F0 + ·)).filter coreOk
/-- A core's local memory in bytes (R92). -/
def localSize (c : Nat) : Nat := if isHearthCore c then 0x40000 else 0x10000

end Sys2Proof.Machine

namespace Sys2Proof

open Sys2Proof.Machine

/-- The number of a master's copy of each per-master register. -/
def Master.idx : Master → Nat
  | .host n => n
  | .sess n => 16 + n
  | .core c => 64 + coreIdx c
/-- The master exists (R158). -/
def Master.ok : Master → Bool
  | .host n => decide (n < 16)
  | .sess n => decide (n < 4)
  | .core c => coreOk c
/-- The owner kind of R158. -/
def Master.kind : Master → Nat
  | .core _ => 0
  | .host _ => 1
  | .sess _ => 2
/-- The owner ID of R158. -/
def Master.id : Master → Nat
  | .core c => c
  | .host n => n
  | .sess n => n
/-- The master that a kind and an ID name. -/
def Master.ofKind (kind id : Nat) : Master :=
  if kind = 1 then .host id else if kind = 2 then .sess id else .core id

end Sys2Proof

namespace Sys2Proof.Machine

open Sys2Proof

/-! ### Registers -/

/-- The sum of a table's reset fields. -/
def RegDesc.resetValue (d : RegDesc) : Nat := d.fields.foldl (fun n f => n + f.reset * 2 ^ f.lo) 0

/-- Requester r exists on spine node p (R320). -/
def spnPresent (p r : Nat) : Bool :=
  decide (r < 37) && (p == 0 || decide (r < 24) || (p == 4 && r != 34 && r != 35))
/-- The row of requester r on node p at reset (R320): its class, and the trace writer's allocation. Ring inbound rows
and absent requesters read 0. -/
def spnReset (p r : Nat) : Nat :=
  if !spnPresent p r then 0
  else if (6 ≤ r ∧ r ≤ 8) ∨ r = 11 ∨ (24 ≤ r ∧ r ≤ 32) then 1
  else if r = 12 then 2 + 0x267 * 2 ^ 8
  else 0

/-- What the register tables give as a reset value that differs from copy to copy: the cores' identities (R64), the
spine classes (R320), and the seeds that the D3 boot images carry (R565). -/
def Reg.resetExtra (r : Reg) (i : Nat) : Nat :=
  match r with
  | .STK_ID =>
    let c := i / 16 * 2048 + 0x7F0 + i % 16
    if coreOk c then
      c + (if isHearthCore c then 0 else if dieOf c < 8 then 1 else 2) * 2 ^ 16
        + (localSize c / 1024) * 2 ^ 32
    else 0
  | .SPN_REQ => spnReset (i / 48) (i % 48)
  | .BLW_RAIL => if i % 4 = 0 then 12 * 2 ^ 8 + 5 * 2 ^ 18 else 92 * 2 ^ 8 + 100 * 2 ^ 18
  | _ => 0

/-- Copy `i` of register `r` right after a cold reset (R19). -/
def Reg.init (r : Reg) (i : Nat) : Word := BitVec.ofNat 64 (r.desc.resetValue + r.resetExtra i)

/-- The key of copy `i` of a register in the hub's stores: there are fewer than 256 registers. -/
def Reg.key (r : Reg) (i : Nat) : Nat := i * 256 + r.ctorIdx

/-- What an unlisted register reads as: its reset value. -/
def regDefault (k : Nat) : Word :=
  match Reg.all[k % 256]? with
  | some r => r.init (k / 256)
  | none => 0

/-- The value of copy `i` of a register. -/
def Hub.reg (h : Hub) (r : Reg) (i : Nat) : Word := aGet regDefault h.regs (r.key i)
/-- Write copy `i` of a register, whole. -/
def Hub.setReg (r : Reg) (i : Nat) (v : Word) (h : Hub) : Hub :=
  { h with regs := aPut regDefault (r.key i) v h.regs }
/-- The shadow copy of a register (R16 RWS): the last value written and not yet applied, or the value in force. -/
def Hub.shadowReg (h : Hub) (r : Reg) (i : Nat) : Word := (aGet (fun _ => none) h.shadow (r.key i)).getD (h.reg r i)

/-- The value of a field of copy `i` of its register. -/
def Hub.get (h : Hub) (f : Fld) (i : Nat := 0) : Nat := bits (h.reg f.reg i).toNat f.lo f.len
/-- A one-bit field as a truth value. -/
def Hub.flag (h : Hub) (f : Fld) (i : Nat := 0) : Bool := h.get f i == 1
/-- Write a field of copy `i` of its register. -/
def Hub.put (f : Fld) (i : Nat) (v : Nat) (h : Hub) : Hub :=
  h.setReg f.reg i (BitVec.ofNat 64 (setBits (h.reg f.reg i).toNat f.lo f.len v))
/-- Set or clear a one-bit field. -/
def Hub.putB (f : Fld) (i : Nat) (b : Bool) (h : Hub) : Hub := h.put f i (b2n b)
/-- Add to a saturating counter. -/
def Hub.bump (f : Fld) (i : Nat) (n : Nat) (h : Hub) : Hub := h.put f i (sat f.len (h.get f i + n))
/-- Add one to a wrapping counter. -/
def Hub.incr (f : Fld) (i : Nat) (h : Hub) : Hub := h.put f i (h.get f i + 1)

/-- How many copies of a register each spoke or core holds. -/
def RegDesc.perBlock (d : RegDesc) : Nat := d.n1 * d.n2
/-- Copy `k` of a spoke register on spoke `n`. -/
def spokeInst (r : Reg) (n k : Nat) : Nat := n * r.desc.perBlock + k
/-- The field `f` of copy `k` on spoke `n`. -/
def Hub.sget (h : Hub) (f : Fld) (n : Nat) (k : Nat := 0) : Nat := h.get f (spokeInst f.reg n k)
/-- Write the field `f` of copy `k` on spoke `n`. -/
def Hub.sput (f : Fld) (n k v : Nat) (h : Hub) : Hub := h.put f (spokeInst f.reg n k) v
/-- Add to a saturating counter on spoke `n`. -/
def Hub.sbump (f : Fld) (n k v : Nat) (h : Hub) : Hub := h.bump f (spokeInst f.reg n k) v

/-- Bring the shadow copies of copies `is` of register `r` into force (R16). -/
def Hub.applyShadow (r : Reg) (is : List Nat) (h : Hub) : Hub :=
  is.foldl (fun h i =>
    match aGet (fun _ => none) h.shadow (r.key i) with
    | some v => { h.setReg r i v with shadow := aPut (fun _ => none) (r.key i) none h.shadow }
    | none => h) h
/-- Write a shadow copy. -/
def Hub.setShadow (r : Reg) (i : Nat) (v : Word) (h : Hub) : Hub :=
  { h with shadow := aPut (fun _ => none) (r.key i) (some v) h.shadow }
/-- A field of the shadow copy. -/
def Hub.shGet (h : Hub) (f : Fld) (i : Nat := 0) : Nat := bits (h.shadowReg f.reg i).toNat f.lo f.len

/-! ### The hub's parts -/

/-- Spoke `n`. -/
def Hub.spoke (h : Hub) (n : Nat) : SpokeX := aGet (fun _ => {}) h.spokes n
/-- Change spoke `n`. -/
def Hub.modSpoke (n : Nat) (f : SpokeX → SpokeX) (h : Hub) : Hub :=
  { h with spokes := aPut (fun _ => {}) n (f (h.spoke n)) h.spokes }
/-- Anvil node `p`. -/
def Hub.node (h : Hub) (p : Nat) : NodeX := aGet (fun _ => {}) h.nodes p
/-- Change anvil node `p`. -/
def Hub.modNode (p : Nat) (f : NodeX → NodeX) (h : Hub) : Hub :=
  { h with nodes := aPut (fun _ => {}) p (f (h.node p)) h.nodes }
/-- Unit `u`. -/
def Hub.unit (h : Hub) (u : Nat) : UnitX := aGet (fun _ => {}) h.units u
/-- Change unit `u`. -/
def Hub.modUnit (u : Nat) (f : UnitX → UnitX) (h : Hub) : Hub :=
  { h with units := aPut (fun _ => {}) u (f (h.unit u)) h.units }
/-- A unit's run state (R173). -/
def Hub.runState (h : Hub) (u : Nat) : RunState :=
  RunState.ofCode (h.sget F.SPK_UNIT_STATE_state (dieOf u) (localOf u))
/-- A field of a unit's state register. -/
def Hub.uget (h : Hub) (f : Fld) (u : Nat) : Nat := h.sget f (dieOf u) (localOf u)
/-- Write a field of a unit's registers. -/
def Hub.uput (f : Fld) (u v : Nat) (h : Hub) : Hub := h.sput f (dieOf u) (localOf u) v
/-- Core `c`, by hub-source ID. -/
def Hub.core (h : Hub) (c : Nat) : CoreX := aGet (fun _ => {}) h.cores c
/-- Change core `c`. -/
def Hub.modCore (c : Nat) (f : CoreX → CoreX) (h : Hub) : Hub :=
  { h with cores := aPut (fun _ => {}) c (f (h.core c)) h.cores }
/-- Master `m`'s side of its command registers. -/
def Hub.master (h : Hub) (m : Master) : MasterX := aGet (fun _ => {}) h.masters m.idx
/-- Change master `m`'s side. -/
def Hub.modMaster (m : Master) (f : MasterX → MasterX) (h : Hub) : Hub :=
  { h with masters := aPut (fun _ => {}) m.idx (f (h.master m)) h.masters }
/-- Hub lock `l`. -/
def Hub.lock (h : Hub) (l : Nat) : LockX := aGet (fun _ => {}) h.locks l
/-- Change hub lock `l`. -/
def Hub.modLock (l : Nat) (f : LockX → LockX) (h : Hub) : Hub :=
  { h with locks := aPut (fun _ => {}) l (f (h.lock l)) h.locks }

/-- A field of a fabric link's register. -/
def Hub.lget (h : Hub) (f : Fld) (l : Nat) : Nat := h.sget f (l / 6) (l % 6)
/-- Write a field of a link's register. -/
def Hub.lput (f : Fld) (l v : Nat) (h : Hub) : Hub := h.sput f (l / 6) (l % 6) v
/-- A halted run state (R173). -/
def RunState.isHalted : RunState → Bool
  | .halted | .haltedHolding => true
  | _ => false

/-- The state of a link (R222): 0 DOWN, 1 TRAINING, 2 ACTIVE, 3 LOW_POWER, 4 BANKED, 5 FAILED. -/
def Hub.linkState (h : Hub) (l : Nat) : Nat := h.lget F.BNK_LINK_state l
/-- The link counts as banked (R222, R225). -/
def Hub.isBanked (h : Hub) (l : Nat) : Bool := bitAt (h.get F.BNK_STATUS_banked) l
/-- Fabric link `l`. -/
def Hub.link (h : Hub) (l : Nat) : LinkX := aGet (fun _ => {}) h.links l
/-- Change fabric link `l`. -/
def Hub.modLink (l : Nat) (f : LinkX → LinkX) (h : Hub) : Hub :=
  { h with links := aPut (fun _ => {}) l (f (h.link l)) h.links }
/-- Mailbox channel `c`. -/
def Hub.mailbox (h : Hub) (c : Nat) : MailX := aGet (fun _ => {}) h.mail c
/-- Change mailbox channel `c`. -/
def Hub.modMail (c : Nat) (f : MailX → MailX) (h : Hub) : Hub :=
  { h with mail := aPut (fun _ => {}) c (f (h.mailbox c)) h.mail }
/-- Context `c`. -/
def Hub.ctx (h : Hub) (c : Nat) : CtxX := aGet (fun _ => {}) h.ctxs c
/-- Change context `c`. -/
def Hub.modCtx (c : Nat) (f : CtxX → CtxX) (h : Hub) : Hub :=
  { h with ctxs := aPut (fun _ => {}) c (f (h.ctx c)) h.ctxs }
/-- The engines that carry a context's commands. -/
def CtxX.engines (x : CtxX) : List Nat := x.inflight.map Inflight.engine
/-- The contexts with a tracked wait of unit `u`. -/
def Hub.waitsOf (h : Hub) (u : Nat) : List Nat :=
  h.wfg.objs.flatMap fun o => (o.2.waiters.filter fun w => w.unit = u).map Waiter.ctx
/-- The units that carry a context's work: the engines of its in-flight commands and the units in its tracked waits
(R342, R353). DEDUCED (assumption 22). -/
def Hub.carriers (h : Hub) (c : Nat) : List Nat :=
  (h.ctx c).engines ++ h.wfg.objs.flatMap fun o => (o.2.waiters.filter fun w => w.ctx = c).map Waiter.unit
/-- Unit `u` becomes held: the contexts whose work it carries are held at this instant (R342). -/
def Hub.holdContexts (u : Nat) (h : Hub) : Hub :=
  ((h.ctxs.filter fun e => e.2.engines.contains u).map Prod.fst ++ h.waitsOf u).foldl (fun h c =>
    h.modCtx c fun x => { x with held := true }) h
/-- Send a message to the outside. -/
def Hub.say (m : Msg) (h : Hub) : Hub := { h with out := h.out ++ [m] }

/-- Draw a value the spec leaves open. -/
def Hub.freeWord (h : Hub) : Word := Config.freeWord h.fresh
/-- Count a draw. -/
def Hub.drew (h : Hub) : Hub := { h with fresh := h.fresh + 1 }

/-! ### Memory

One store of bytes holds every memory of the hub. Hub addresses stand for themselves (Hearth scratch, the Crucible,
the boot flash); a core's local memory, which is not in the hub address space (R92), and the host's memory, which the
hub reaches as bus master, stand above 2⁵². -/

/-- What a byte that nothing has written reads as: erased flash in the flash window, zero elsewhere. DESIGN CHOICE
(assumption 3): the spec gives no power-on contents. -/
def memDefault (a : Nat) : Byte := if 0x2000000000 ≤ a ∧ a < 0x2004000000 then 0xFF else 0
/-- The memory is in its canonical form. -/
def Memory.wf (m : List Host.Cell) : Bool := canonical memDefault m
/-- The byte at an address. -/
def Hub.byte (h : Hub) (a : Nat) : Byte := aGet memDefault h.mem a
/-- Write one byte. -/
def Hub.setByte (a : Nat) (b : Byte) (h : Hub) : Hub := { h with mem := aPut memDefault a b h.mem }
/-- `n` bytes from an address up. -/
def Hub.bytes (h : Hub) (a n : Nat) : List Byte := (List.range n).map fun i => h.byte (a + i)
/-- Write bytes from an address up. -/
def Hub.setBytes (a : Nat) (bs : List Byte) (h : Hub) : Hub := { h with mem := aPutList memDefault a bs h.mem }
/-- The little-endian number of `n` bytes at an address (R9). -/
def Hub.rd (h : Hub) (a n : Nat) : Nat := ofBytesLE (h.bytes a n)
/-- Store a number as `n` little-endian bytes (R9). -/
def Hub.wr (a n v : Nat) (h : Hub) : Hub := h.setBytes a (bytesLE n v)
/-- Where a core's local memory stands in the store. -/
def localBase (c : Nat) : Nat := 2 ^ 52 + coreIdx c * 2 ^ 20
/-- Where the host's memory stands in the store. -/
def hostBase : Nat := 2 ^ 56

/-! ### Trace records (R65 to R69) -/

/-- The level of a class (R67). -/
def classLevel (cls : Nat) : Nat := cls / 32
/-- The classes that always carry a context (R67). -/
def ctxAlways : List Nat :=
  [0x20, 0x21, 0x22, 0x40, 0x41, 0x42, 0x60, 0x61, 0x62, 0x80, 0x81, 0x82, 0xA0, 0xA1, 0xA2, 0xA8, 0xA9, 0xAA, 0xAB,
   0xAC, 0xAD, 0xC4]
/-- The classes whose context is optional (R66). -/
def ctxOptional : List Nat := [0x00, 0x01, 0x02, 0xC0, 0xC1, 0xE5, 0xE6]
/-- The classes that carry no context. -/
def ctxNever : List Nat :=
  [0x23, 0x43, 0xB0, 0xC2, 0xC3, 0xC5, 0xC6, 0xE0, 0xE1, 0xE2, 0xE3, 0xE4, 0xE7, 0xE8, 0xE9, 0xEA]
/-- The class code is listed in R67. -/
def classKnown (cls : Nat) : Bool := ctxAlways.contains cls || ctxOptional.contains cls || ctxNever.contains cls

/-- A record of a class, with its context placed as R65 and R66 say. -/
def mkRec (t src cls : Nat) (ctx : Option Nat) (pay : Nat) : Rec :=
  if ctxOptional.contains cls then
    match ctx with
    | some c => { time := t, src, cls, ctx := c % 2048, pay := setBits pay 27 1 1 }
    | none => { time := t, src, cls, ctx := 0, pay := setBits (pay % 2 ^ 28) 27 1 0 }
  else if ctxAlways.contains cls then
    { time := t, src, cls, ctx := (ctx.getD 0) % 2048, pay := pay % 2 ^ 28 }
  else { time := t, src, cls, ctx := 0, pay := pay % 2 ^ 28 }

/-- The record carries a context (R66, R163). -/
def Rec.hasCtx (r : Rec) : Bool :=
  ctxAlways.contains r.cls || (ctxOptional.contains r.cls && bitAt r.pay 27)

/-- Bits [63:0] of a record (R65). -/
def Rec.low (r : Rec) : Nat :=
  r.pay % 2 ^ 28 + r.ctx % 2 ^ 11 * 2 ^ 28 + r.cls % 2 ^ 8 * 2 ^ 40 + r.src % 2 ^ 16 * 2 ^ 48

/-- The 16 bytes of a record (R65). -/
def Rec.toBytes (r : Rec) : List Byte := bytesLE 8 r.low ++ bytesLE 8 r.time

/-- The trace filter of spoke `n` passes the record (R85). -/
def Hub.filterPasses (h : Hub) (n : Nat) (r : Rec) : Bool :=
  let lv := classLevel r.cls
  let l := localOf r.src
  let unitPass := decide (0x7E0 ≤ l) ||
    (decide (h.sget F.TRC_FILTER_unit_lo n ≤ l) && decide (l ≤ h.sget F.TRC_FILTER_unit_hi n))
  let levelPass := lv == 7 || bitAt (h.sget F.TRC_FILTER_level_en n) lv
  let mask := h.sget F.TRC_FILTER_ctx_mask n
  let ctxPass := !(bitAt (h.sget F.TRC_FILTER_ctx_levels n) lv && r.hasCtx) ||
    (r.ctx &&& mask) == (h.sget F.TRC_FILTER_ctx_value n &&& mask)
  unitPass && levelPass && ctxPass

/-- The unreported drops of level `lv` on spoke `n`. -/
def Hub.loss (h : Hub) (n lv : Nat) : Loss := aGet (fun _ => {}) (h.spoke n).loss lv

/-- A record of level `lv` is dropped by a FIFO of 512 records that holds `occ` (R74). -/
def dropsAt (lv occ : Nat) : Bool := decide (lv < 7) && decide ((lv + 1) * 64 ≤ occ)
/-- A drop of a level is counted; the first since the last report is due to be reported in 10 µs (R75). -/
def countLoss (t lv : Nat) (l : List (Nat × Loss)) : List (Nat × Loss) :=
  let x := aGet (fun _ => {}) l lv
  aPut (fun _ => {}) lv { count := sat 25 (x.count + 1), due := if x.count = 0 then t + us 10 else x.due } l
/-- A record joins a queue of records in stamp order, behind those of its own stamp (R62). -/
def insertRec (r : Rec) : List Rec → List Rec
  | [] => [r]
  | x :: l => if r.time < x.time then r :: x :: l else x :: insertRec r l

/-- A record reaches the collector's FIFO on spoke `n`: it is dropped at its level's threshold, its source waits while the
FIFO is full, or it is queued (R62, R74). -/
def Hub.fifoPush (t n : Nat) (r : Rec) (h : Hub) : Hub :=
  let lv := classLevel r.cls
  let occ := (h.spoke n).fifo.length
  if dropsAt lv occ then
    (h.modSpoke n fun s => { s with loss := countLoss t lv s.loss }).sbump F.TRC_LOSS_TOTAL_dropped n lv 1
  else if 512 ≤ occ then h.modSpoke n fun s => { s with held := s.held ++ [r] }
  else
    let h := h.modSpoke n fun s => { s with fifo := insertRec r s.fifo }
    h.sput F.TRC_COLLECT_fifo_peak n 0 (max (h.sget F.TRC_COLLECT_fifo_peak n) (min 512 (occ + 1)))

/-- When an offer was made. -/
def Offer.time : Offer → Nat
  | .record r => r.time
  | .xtrig t => t
/-- An offer joins a matrix's queue, its port's offers in stamp order (R62). -/
def insertOffer (e : Nat × Offer) : List (Nat × Offer) → List (Nat × Offer)
  | [] => [e]
  | x :: l => if x.1 = e.1 ∧ e.2.time < x.2.time then e :: x :: l else x :: insertOffer e l

/-- Offer a record to matrix `m` (0–7 the anvil nodes', 8 the Hearth's) on input port `port`, dropping level 0–5
records while the port's backlog is 32 (R168). -/
def Hub.offer (m port : Nat) (o : Offer) (lv : Nat) (h : Hub) : Hub :=
  let q := aGet (fun _ => []) h.offers m
  if lv ≤ 5 ∧ 32 ≤ (q.filter fun e => e.1 = port).length then
    if m < 8 then h.sbump F.TRG_STATUS_eval_drops m 0 1 else h.bump F.HTRG_STATUS_eval_drops 0 1
  else { h with offers := aPut (fun _ => []) m (insertOffer (port, o) q) h.offers }

/-- A trigger joins a further analysis. DESIGN CHOICE (assumption 72): WFG_ROOT.trigger of an analysis that several
triggers share is the context of the first expiry among them. -/
def Analysis.joined (trigger : Nat) (dump : Option (Nat × Nat)) (a : Analysis) : Analysis :=
  { trigger := if a.trigger = 0 then trigger else a.trigger, dumps := a.dumps ++ dump.toList }
/-- An analysis starts; the triggers that arrive while one runs collapse into one further analysis (R358). -/
def Hub.wantAnalysis (trigger : Nat) (dump : Option (Nat × Nat)) (h : Hub) : Hub :=
  let a : Analysis → Analysis := Analysis.joined trigger dump
  { h with wfg :=
      if h.wfg.wanted.isNone then { h.wfg with wanted := some (a {}) }
      else { h.wfg with further := some (a (h.wfg.further.getD {})) } }
/-- What the wait-for engine sees of a record: a unit fault marks its context FAULTED (R353), an expiry starts an
analysis (R358). -/
def Hub.wfgSees (r : Rec) (h : Hub) : Hub :=
  if r.cls = 0xC1 ∧ r.hasCtx then h.modCtx r.ctx fun x => { x with faulted := true }
  else if r.cls = 0xC4 then h.wantAnalysis r.ctx none
  else h

/-- Spoke `n`'s collector takes a record: the matrices see it (R160), then the filter and the FIFO (R85, R74). -/
def Hub.collect (t n : Nat) (r : Rec) (h : Hub) : Hub :=
  let lv := classLevel r.cls
  let h := h.wfgSees r
  let h := h.offer (nodeOf n) n (.record r) lv
  let h := if 6 ≤ lv then h.offer 8 32 (.record r) lv else h
  if h.filterPasses n r then h.fifoPush t n r else h

/-- A hub source, or a spoke on a unit's behalf, writes a record stamped `t` into the collector of its die (R65). -/
def Hub.emit (t src cls : Nat) (ctx : Option Nat) (pay : Nat) (h : Hub) : Hub :=
  h.collect t (dieOf src) (mkRec t src cls ctx pay)

/-! ### The quench root's and the Hearth's place (R64, R204) -/

/-- The die of the active Hearth. -/
def Hub.hearthDie (h : Hub) : Nat := if h.flag F.HRT_STATE_active_hearth then 4 else 0

/-! ### How a command acts on the state -/

/-- Act on the hub at the present Chip Time. -/
def State.lift (s : State) (f : Nat → Hub → Hub) : Out := .next { s with hub := f s.clk.chipTime s.hub }
/-- Act on the hub, where the command names parts that exist. -/
def State.liftIf (s : State) (ok : Bool) (f : Nat → Hub → Hub) : Out :=
  if ok then s.lift f else .refused .illFormed
/-- A timed event: Chip Time comes forward to the instant it falls due, and it acts; with nothing due, nothing
happens. DESIGN CHOICE (assumption 5). -/
def State.liftAt (s : State) (due : Option Nat) (f : Nat → Hub → Hub) : Out :=
  match due with
  | none => .next s
  | some d => .next { s with clk := s.clk.reach d, hub := f (s.clk.reach d).chipTime s.hub }
/-- Act on the hub and its Chip Time unit. -/
def State.liftClk (s : State) (f : Clock → Hub → Clock × Hub) : Out :=
  .next { s with clk := (f s.clk s.hub).1, hub := (f s.clk s.hub).2 }

end Sys2Proof.Machine
end

