-- ==== Sys2Proof/Machine/CoreOps.lean ====
section
/-! DEFINITION. The Striker cores' shared operations: general registers and PC, completing an instruction, the
watchdog, debug halt, slot deliveries and hub events, taking an exception, and the frame every instruction runs in. -/

namespace Sys2Proof.Machine

open Sys2Proof

/-! ### Registers of a core (R86 to R88) -/

/-- General register `r` of core `c`; h0 reads zero (R87). -/
def Hub.gpr (h : Hub) (c : Nat) (r : RegNo) : Word :=
  if r = 0 then 0 else h.reg .STK_DBG_GPR (coreIdx c * 32 + r.toNat)
/-- Write a general register; a write of h0 is discarded (R87). -/
def Hub.setGpr (c : Nat) (r : RegNo) (v : Word) (h : Hub) : Hub :=
  if r = 0 then h else h.setReg .STK_DBG_GPR (coreIdx c * 32 + r.toNat) v
/-- The program counter of core `c`. -/
def Hub.pc (h : Hub) (c : Nat) : Word := h.reg .STK_DBG_PC (coreIdx c)
/-- Write the program counter. -/
def Hub.setPc (c : Nat) (v : Word) (h : Hub) : Hub := h.setReg .STK_DBG_PC (coreIdx c) v
/-- h31, the status register. -/
def statusReg : RegNo := 31
/-- Write a status code, zero-extended, into h31 (R88). -/
def Hub.setStatus (c : Nat) (st : Status) (h : Hub) : Hub := h.setGpr c statusReg (BitVec.ofNat 64 st.code)
/-- A field of a Striker special or debug register of core `c`. -/
def Hub.cget (h : Hub) (f : Fld) (c : Nat) : Nat := h.get f (coreIdx c)
/-- Write a field of a Striker special or debug register of core `c`. -/
def Hub.cput (f : Fld) (c v : Nat) (h : Hub) : Hub := h.put f (coreIdx c) v

/-- The debug state of a core (R459): 0 RUNNING, 1 HALTED, 2 STOPPED, 3 RESET. -/
def Hub.coreState (h : Hub) (c : Nat) : Nat :=
  if (h.core c).released then h.cget F.STK_DBG_STATUS_core_state c else 3
/-- A debugger is attached (R460). -/
def Hub.attached (h : Hub) (c : Nat) : Bool := h.cget F.STK_DBG_CTL_attach c == 1

/-! ### The watchdog (R132, R134) -/

/-- The watchdog counts from `n` µs. -/
def Hub.wdogLoad (t c n : Nat) (h : Hub) : Hub :=
  let h := h.cput F.STK_WDOG_COUNT_remaining_us c n
  h.modCore c fun x => { x with
    wdogDue := if h.cget F.STK_WDOG_enable c = 1 ∧ h.coreState c = 0 then some (t + us n) else none }
/-- What is left of the count, in whole µs rounded up. -/
def Hub.wdogLeft (h : Hub) (t c : Nat) : Nat :=
  match (h.core c).wdogDue with
  | some d => (d - t + 3999) / 4000
  | none => h.cget F.STK_WDOG_COUNT_remaining_us c
/-- The watchdog stops and keeps its count. -/
def Hub.wdogStop (t c : Nat) (h : Hub) : Hub :=
  (h.cput F.STK_WDOG_COUNT_remaining_us c (h.wdogLeft t c)).modCore c fun x => { x with wdogDue := none }

/-! ### Debug halt (R462 to R466) -/

/-- A wait that a watchdog exception or a debug halt interrupts (R133, R462). An LCK that waits for the Hearth alone
(R110) is none. DESIGN CHOICE (assumption 64): R133 speaks of a waiting LCK and not of this wait. -/
def Wait.interruptible : Wait → Bool
  | .waitev .. | .recv .. | .twait .. | .cwait .. | .lck .. => true
  | _ => false

/-- LCK_STATE.waiters follows the waiter queue; it saturates at 255. -/
def Hub.countWaiters (l : Nat) (h : Hub) : Hub :=
  h.put F.LCK_STATE_waiters l (min 255 (h.lock l).waiters.length)

/-- An interrupted instruction has no effect: the core waits in nothing, its PC still names the instruction, and an
LCK leaves the waiter queue (R133). -/
def Hub.interrupt (c : Nat) (h : Hub) : Hub :=
  match (h.core c).wait with
  | .lck _ l =>
    (h.modLock l fun x => { x with waiters := x.waiters.filter fun w => w.who ≠ .core c })
      |>.countWaiters l
      |>.modCore c fun x => { x with wait := .idle }
  | _ => h.modCore c fun x => { x with wait := .idle }

/-- The core enters HALTED with a cause; its watchdog stops (R134). -/
def Hub.enterHalt (t c cause : Nat) (h : Hub) : Hub :=
  (h.wdogStop t c).cput F.STK_DBG_STATUS_core_state c 1
    |>.cput F.STK_DBG_STATUS_cause c cause
    |>.cput F.STK_DBG_STATUS_steps_left c 0
    |>.modCore c fun x => { x with haltAsked := false }

/-- A halt request reaches a RUNNING core (R462): at an instruction boundary, or in a wait it interrupts, the core
halts; in any other instruction it halts when the instruction completes. -/
def Hub.askHalt (t c : Nat) (h : Hub) : Hub :=
  if h.coreState c ≠ 0 then h
  else if (h.core c).wait = .idle ∨ (h.core c).wait.interruptible then (h.interrupt c).enterHalt t c 1
  else h.modCore c fun x => { x with haltAsked := true }

/-- A core of a halt set has entered HALTED: every other RUNNING member receives a halt request (R466). -/
def Hub.haltSet (t c : Nat) (h : Hub) : Hub :=
  if h.cget F.STK_DBG_CTL_xhalt c = 1 then
    allCores.foldl (fun h d => if d ≠ c ∧ h.cget F.STK_DBG_CTL_xhalt d = 1 then h.askHalt t d else h) h
  else h
/-- The core enters debug halt, and with it its halt set, for any cause but RESET_HALT (R466). -/
def Hub.debugHalt (t c cause : Nat) (h : Hub) : Hub :=
  let h := h.enterHalt t c cause
  if cause ≠ 5 then h.haltSet t c else h
/-- A debugger asks for a halt (R462): a core that halts at once takes its halt set with it. -/
def Hub.requestDebugHalt (t c : Nat) (h : Hub) : Hub :=
  let h' := h.askHalt t c
  if h.coreState c = 0 ∧ h'.coreState c = 1 then h'.haltSet t c else h'

/-- An instruction, or an exception entry, has finished: a step counts it (R467), and a halt asked for meanwhile takes
effect. -/
def Hub.boundary (t c : Nat) (h : Hub) : Hub :=
  let left := h.cget F.STK_DBG_STATUS_steps_left c
  let h := if left = 0 then h else h.cput F.STK_DBG_STATUS_steps_left c (left - 1)
  if left = 1 then h.debugHalt t c 4
  else if (h.core c).haltAsked then h.debugHalt t c 1
  else h

/-- Core `c` enters an exception (R130). -/
def Hub.enterException (c : Nat) (k : Cause) (bad : Nat) (h : Hub) : Hub :=
  h.setReg .STK_EPC (coreIdx c) (h.pc c)
    |>.cput F.STK_CAUSE_cause c k.code
    |>.cput F.STK_CAUSE_active c 1
    |>.setReg .STK_BADADDR (coreIdx c) (BitVec.ofNat 64 bad)
    |>.setPc c (BitVec.ofNat 64 (h.cget F.STK_EVEC_vector c * 4))
    |>.modCore c (fun x => { x with wait := .idle })

/-- A WATCHDOG exception that an instruction held off is taken between instructions of a running core (R133). -/
def Hub.takeWatchdog (c : Nat) (h : Hub) : Hub :=
  if (h.core c).wdogRaised ∧ h.coreState c = 0 ∧ h.cget F.STK_CAUSE_active c = 0 then
    (h.modCore c fun x => { x with wdogRaised := false }).enterException c .watchdog 0
  else h

/-- The core's instruction completes and its PC moves on (R91); STK_INSTRET counts it. -/
def Hub.retire (t c : Nat) (pc' : Word) (h : Hub) : Hub :=
  (h.setPc c pc').modCore c (fun x => { x with wait := .idle })
    |>.setReg .STK_INSTRET (coreIdx c) (h.reg .STK_INSTRET (coreIdx c) + 1)
    |>.boundary t c
    |>.takeWatchdog c

/-- An S instruction of core `c` ends with a status; rd is written when the action took place (R90), and h31 last
(R88). -/
def Hub.endS (c : Nat) (rd : RegNo) (v : Word) (st : Status) (h : Hub) : Hub :=
  (if st.took then h.setGpr c rd v else h).setStatus c st

/-- A wait of core `c` ends: its instruction completes with a result and a status. -/
def Hub.endWait (t c : Nat) (rd : RegNo) (v : Word) (st : Status) (h : Hub) : Hub :=
  (h.endS c rd v st).retire t c (h.pc c + 4)

/-! ### Slots and hub events (R149 to R153) -/

/-- Slot `n` of core `c`, while armed. -/
def Hub.slot (h : Hub) (c n : Nat) : Option Slot := aFind n (h.core c).slots
/-- Put or remove a slot. -/
def putSlot (n : Nat) (v : Option Slot) (m : List (Nat × Slot)) : List (Nat × Slot) :=
  match v with
  | some s => aPut (fun _ => { desc := 2 ^ 64 }) n s m
  | none => aKeep (· ≠ n) m
/-- Change slot `n` of core `c`. -/
def Hub.setSlot (c n : Nat) (v : Option Slot) (h : Hub) : Hub :=
  h.modCore c fun x => { x with slots := putSlot n v x.slots }
/-- The slots of a core whose FIFO holds a payload, as a mask (STK_SLOTPEND). -/
def Hub.slotPend (h : Hub) (c : Nat) : Nat :=
  maskOf (((h.core c).slots.filter fun e => !e.2.fifo.isEmpty).map Prod.fst)
/-- The armed slots of a core, as a mask (STK_SLOTARMED). -/
def Hub.slotArmed (h : Hub) (c : Nat) : Nat := maskOf (aKeys (h.core c).slots)

/-- The lowest pending slot of a mask (R154). -/
def Hub.pendingIn (h : Hub) (c mask : Nat) : Option Nat := lowestBit 64 (h.slotPend c &&& mask)

/-- A waiting WAITEV of core `c` returns when a slot of its mask is pending (R154). -/
def Hub.wakeWaitev (t c : Nat) (h : Hub) : Hub :=
  match (h.core c).wait with
  | .waitev rd mask _ =>
    match h.pendingIn c mask with
    | some n => h.endWait t c rd (BitVec.ofNat 64 n) .ok
    | none => h
  | _ => h

/-- A delivery to slot `n` of core `c`: it queues, or is discarded at a full FIFO (R153). -/
def Hub.deliver (t c n : Nat) (payload : Word) (h : Hub) : Hub :=
  match h.slot c n with
  | none => h
  | some s =>
    if 8 ≤ s.fifo.length then
      h.setReg .STK_SLOTOVF (coreIdx c)
        (BitVec.ofNat 64 (setBits (h.reg .STK_SLOTOVF (coreIdx c)).toNat n 1 1))
    else (h.setSlot c n (some { s with fifo := s.fifo ++ [payload] })).wakeWaitev t c

/-- The kind of an armed slot (R149). -/
def Slot.kind (s : Slot) : Nat := bits s.desc 0 4

/-- The slots of a core that satisfy a test. -/
def Hub.slotsOf (h : Hub) (c : Nat) (p : Slot → Bool) : List Nat :=
  ((h.core c).slots.filter fun e => p e.2).map Prod.fst

/-- The hub posts an event to every slot of every core armed HUB with its code (R152). -/
def Hub.hubEvent (t code payload : Nat) (h : Hub) : Hub :=
  allCores.foldl (fun h c =>
    (h.slotsOf c fun s => s.kind == 4 && bitAt s.desc (4 + code)).foldl
      (fun h n => h.deliver t c n (BitVec.ofNat 64 (code + payload))) h) h

/-- A job of handle `w` reaches a final status, or suspends: JOB slots of the core that was issued it deliver
(R150). -/
def Hub.jobEvent (t handle : Nat) (st : Status) (h : Hub) : Hub :=
  allCores.foldl (fun h c =>
    (h.slotsOf c fun s => s.kind == 3 && bits s.desc 4 16 == handle && (h.core c).jobs.contains handle).foldl
      (fun h n => h.deliver t c n (BitVec.ofNat 64 (handle + st.code * 2 ^ 16))) h) h

/-! ### Exceptions (R129 to R131) -/

/-- The core stops (R131): a class 0xC1 record, the core-stopped event, and the STOPPED state. -/
def Hub.stopCore (t c : Nat) (k : Cause) (h : Hub) : Hub :=
  (h.wdogStop t c).cput F.STK_DBG_STATUS_core_state c 2
    |>.cput F.STK_DBG_STATUS_steps_left c 0
    |>.modCore c (fun x => { x with haltAsked := false, wait := .idle })
    |>.emit t c 0xC1 none (0x100 + k.code)
    |>.hubEvent t 0 (c * 2 ^ 8 + k.code * 2 ^ 24)

/-- An instruction of core `c` raises an exception (R130), which counts as one instruction of a step (R467), or stops the
core when one is active (R131). -/
def Hub.takeException (t c : Nat) (k : Cause) (bad : Nat) (h : Hub) : Hub :=
  if h.cget F.STK_CAUSE_active c = 1 then h.stopCore t c k else (h.enterException c k bad).boundary t c

/-! ### The frame of an instruction -/

/-- What an instruction does: it completes and the PC moves on, it completes with a jump, it raises an exception
with a faulting local address, or it stays in the instruction (a wait, or a debug halt). -/
inductive Effect where
  | done (h : Hub)
  | jump (h : Hub) (pc : Word)
  | raise (k : Cause) (bad : Nat)
  | stay (h : Hub)

/-- What an instruction of core `c` leaves; one that raises an exception has no effect on the hub `h` it began in
(R130). -/
def Effect.finish (e : Effect) (t c : Nat) (h : Hub) : Hub :=
  match e with
  | .done h' => h'.retire t c (h'.pc c + 4)
  | .jump h' p => h'.retire t c p
  | .raise k bad => h.takeException t c k bad
  | .stay h' => h'

/-- An enabled breakpoint names the address, and its owner is attached (R464). -/
def Hub.breakpointHit (h : Hub) (c pc : Nat) : Bool :=
  h.attached c && [0, 1].any fun k =>
    h.get F.STK_DBG_BP_enable (coreIdx c * 2 + k) == 1 && h.get F.STK_DBG_BP_addr (coreIdx c * 2 + k) * 4 == pc

/-- Core `c` is between instructions and executes (R91). -/
def Hub.ready (h : Hub) (c : Nat) : Bool := h.coreState c == 0 && (h.core c).wait == .idle

/-- One instruction of core `c` at Chip Time `t`. Outside local memory the fetch raises FETCH_RANGE (R94); a
breakpoint halts the core first (R464); a core that is not between instructions does nothing. -/
def Hub.instr (t c : Nat) (f : Hub → Effect) (h : Hub) : Hub :=
  if !h.ready c then h
  else if localSize c ≤ (h.pc c).toNat then h.takeException t c .fetchRange (h.pc c).toNat
  else if h.breakpointHit c (h.pc c).toNat && !(h.core c).bpSkip then h.debugHalt t c 3
  else
    (f (h.modCore c fun x => { x with bpSkip := false })).finish t c (h.modCore c fun x => { x with bpSkip := false })

/-- An S instruction may not name h31 as rd (R89). -/
def sEffect (rd : RegNo) (e : Effect) : Effect := if rd = statusReg then .raise .illegal 0 else e

/-- A command that is an instruction of core `c`. -/
def State.instr (s : State) (c : Nat) (f : Nat → Hub → Effect) : Out :=
  s.liftIf (coreOk c) fun t h => h.instr t c (f t)

/-- The core's level (R100). -/
def Hub.coreLevel (h : Hub) (c : Nat) : Nat := h.cget F.STK_AUTH_level c

end Sys2Proof.Machine
end

