-- ==== Sys2Proof/Machine/Operands.lean ====
section
/-! DEFINITION. The operand forms of the Striker instructions: immediates (R103), local addresses (R93), hub addresses
(R95) and unit-access targets (R107). -/

namespace Sys2Proof.Machine

open Sys2Proof

/-- imm16 sign-extended (R103). -/
def sext16 (i : Imm16) : Word := i.signExtend 64
/-- imm16 zero-extended (R103). -/
def zext16 (i : Imm16) : Word := i.zeroExtend 64
/-- off16 in words, sign-extended and multiplied by 4 (R103). -/
def branchOffset (off : Imm16) : Word := off.signExtend 64 * 4
/-- off21 in words, sign-extended and multiplied by 4 (R103). -/
def jumpOffset (off : BitVec 21) : Word := off.signExtend 64 * 4
/-- Base register plus sign-extended offset (R93, R95). -/
def Hub.effAddr (h : Hub) (c : Nat) (rs1 : RegNo) (imm : Imm16) : Nat := (h.gpr c rs1 + sext16 imm).toNat

/-- The exception of a local access of `n` bytes, if it raises one: LOCAL_RANGE before LOCAL_ALIGN (R93). -/
def localCheck (c a n : Nat) : Option Cause :=
  if localSize c < a + n then some .localRange else if a % n ≠ 0 then some .localAlign else none

/-- A local load of `n` bytes (R93), extended by `ext`. -/
def effLoad (c : Nat) (rd rs1 : RegNo) (imm : Imm16) (n : Nat) (ext : Nat → Word) (h : Hub) : Effect :=
  match localCheck c (h.effAddr c rs1 imm) n with
  | some k => .raise k (h.effAddr c rs1 imm)
  | none => .done (h.setGpr c rd (ext (h.rd (localBase c + h.effAddr c rs1 imm) n)))

/-- A local store of `n` bytes (R93). -/
def effStore (c : Nat) (rs2 rs1 : RegNo) (imm : Imm16) (n : Nat) (h : Hub) : Effect :=
  match localCheck c (h.effAddr c rs1 imm) n with
  | some k => .raise k (h.effAddr c rs1 imm)
  | none => .done (h.wr (localBase c + h.effAddr c rs1 imm) n (h.gpr c rs2).toNat)

/-- A value of `8n` bits, sign-extended. -/
def sextBytes (n v : Nat) : Word := BitVec.ofInt 64 (signedOf (8 * n) v)
/-- A value, zero-extended. -/
def zextBytes (v : Nat) : Word := BitVec.ofNat 64 v

/-- The target of a unit access (R107): the unit or halt group, the window word, and whether a reserved bit is set. -/
structure UnitTarget where
  target : Nat
  word : Nat
  reservedSet : Bool
  deriving DecidableEq, Repr

/-- The target that rs1 and off13 name (R107). -/
def unitTarget (rs1 : Word) (off : BitVec 13) (group : Bool) : UnitTarget :=
  let n := rs1.toNat
  { target := if group then bits n 0 8 else bits n 0 16
    word := (bits n 16 13 + off.toNat) % 8192
    reservedSet := bits n 29 35 != 0 || (group && bits n 8 8 != 0) }

end Sys2Proof.Machine
end

