-- ==== Sys2Proof/Machine/Flags.lean ====
section
/-! DEFINITION. The arithmetic of R105 and its comparisons. A Striker core has no condition flags: a comparison writes a
register or decides a branch, and the status register h31 is written by the S instructions (R88). -/

namespace Sys2Proof.Machine

open Sys2Proof

/-- Signed comparison of two words. -/
def ltS (a b : Word) : Bool := decide (a.toInt < b.toInt)
/-- Unsigned comparison of two words. -/
def ltU (a b : Word) : Bool := decide (a.toNat < b.toNat)

/-- The register-register operations of R105. -/
inductive AluOp where
  | add | sub | and | or | xor | shl | shr | sar | mul | mulh | min | max | slt | sltu
  deriving DecidableEq, Repr

/-- The result of a register-register operation (R105): shifts take rs2[5:0], MULH the high half of the signed
product. -/
def alu (op : AluOp) (a b : Word) : Word :=
  match op with
  | .add => a + b
  | .sub => a - b
  | .and => a &&& b
  | .or => a ||| b
  | .xor => a ^^^ b
  | .shl => a <<< (b.toNat % 64)
  | .shr => a >>> (b.toNat % 64)
  | .sar => a.sshiftRight (b.toNat % 64)
  | .mul => a * b
  | .mulh => BitVec.ofInt 64 (a.toInt * b.toInt / (2 ^ 64 : Nat))
  | .min => if ltS a b then a else b
  | .max => if ltS a b then b else a
  | .slt => if ltS a b then 1 else 0
  | .sltu => if ltU a b then 1 else 0

/-- The branch conditions of R105. -/
inductive Cond where
  | eq | ne | lt | ge | ltu | geu
  deriving DecidableEq, Repr

/-- The comparison holds of rs1 and rs2 (R105). -/
def Cond.holds (k : Cond) (a b : Word) : Bool :=
  match k with
  | .eq => a == b
  | .ne => a != b
  | .lt => ltS a b
  | .ge => !ltS a b
  | .ltu => ltU a b
  | .geu => !ltU a b

/-- rd = rs1 op rs2. -/
def effAlu (op : AluOp) (c : Nat) (rd rs1 rs2 : RegNo) (h : Hub) : Effect :=
  .done (h.setGpr c rd (alu op (h.gpr c rs1) (h.gpr c rs2)))
/-- rd = rs1 op an extended immediate. -/
def effAluImm (op : AluOp) (c : Nat) (rd rs1 : RegNo) (imm : Word) (h : Hub) : Effect :=
  .done (h.setGpr c rd (alu op (h.gpr c rs1) imm))
/-- PC = PC + off16 × 4 when the comparison holds, else PC + 4. -/
def effBranch (k : Cond) (c : Nat) (rs1 rs2 : RegNo) (off : Imm16) (h : Hub) : Effect :=
  if k.holds (h.gpr c rs1) (h.gpr c rs2) then .jump h (h.pc c + branchOffset off) else .done h

end Sys2Proof.Machine
end

