-- ==== Sys2Proof/Machine/Alu.lean ====
section
/-! DEFINITION. The arithmetic and logic instructions of R105. -/

namespace Sys2Proof.Machine

open Sys2Proof

/-- ADD: Adds two registers modulo 2⁶⁴ (R105). -/
def execAdd (c : Nat) (rd rs1 rs2 : RegNo) (s : State) : Out :=
  s.instr c fun _ h => effAlu .add c rd rs1 rs2 h

/-- SUB: Subtracts two registers modulo 2⁶⁴ (R105). -/
def execSub (c : Nat) (rd rs1 rs2 : RegNo) (s : State) : Out :=
  s.instr c fun _ h => effAlu .sub c rd rs1 rs2 h

/-- AND: Bitwise AND (R105). -/
def execAnd (c : Nat) (rd rs1 rs2 : RegNo) (s : State) : Out :=
  s.instr c fun _ h => effAlu .and c rd rs1 rs2 h

/-- OR: Bitwise OR (R105). -/
def execOr (c : Nat) (rd rs1 rs2 : RegNo) (s : State) : Out :=
  s.instr c fun _ h => effAlu .or c rd rs1 rs2 h

/-- XOR: Bitwise exclusive OR (R105). -/
def execXor (c : Nat) (rd rs1 rs2 : RegNo) (s : State) : Out :=
  s.instr c fun _ h => effAlu .xor c rd rs1 rs2 h

/-- SHL: Shifts rs1 left by rs2[5:0] (R105). -/
def execShl (c : Nat) (rd rs1 rs2 : RegNo) (s : State) : Out :=
  s.instr c fun _ h => effAlu .shl c rd rs1 rs2 h

/-- SHR: Shifts rs1 right logically by rs2[5:0] (R105). -/
def execShr (c : Nat) (rd rs1 rs2 : RegNo) (s : State) : Out :=
  s.instr c fun _ h => effAlu .shr c rd rs1 rs2 h

/-- SAR: Shifts rs1 right arithmetically by rs2[5:0] (R105). -/
def execSar (c : Nat) (rd rs1 rs2 : RegNo) (s : State) : Out :=
  s.instr c fun _ h => effAlu .sar c rd rs1 rs2 h

/-- MUL: The low 64 bits of the product (R105). -/
def execMul (c : Nat) (rd rs1 rs2 : RegNo) (s : State) : Out :=
  s.instr c fun _ h => effAlu .mul c rd rs1 rs2 h

/-- MULH: The high 64 bits of the signed 128-bit product (R105). -/
def execMulh (c : Nat) (rd rs1 rs2 : RegNo) (s : State) : Out :=
  s.instr c fun _ h => effAlu .mulh c rd rs1 rs2 h

/-- MIN: The signed minimum (R105). -/
def execMin (c : Nat) (rd rs1 rs2 : RegNo) (s : State) : Out :=
  s.instr c fun _ h => effAlu .min c rd rs1 rs2 h

/-- MAX: The signed maximum (R105). -/
def execMax (c : Nat) (rd rs1 rs2 : RegNo) (s : State) : Out :=
  s.instr c fun _ h => effAlu .max c rd rs1 rs2 h

/-- SLT: 1 if rs1 is less than rs2, signed, else 0 (R105). -/
def execSlt (c : Nat) (rd rs1 rs2 : RegNo) (s : State) : Out :=
  s.instr c fun _ h => effAlu .slt c rd rs1 rs2 h

/-- SLTU: 1 if rs1 is less than rs2, unsigned, else 0 (R105). -/
def execSltu (c : Nat) (rd rs1 rs2 : RegNo) (s : State) : Out :=
  s.instr c fun _ h => effAlu .sltu c rd rs1 rs2 h

/-- ADDI adds the sign-extended immediate (R103, R105). -/
def execAddi (c : Nat) (rd rs1 : RegNo) (imm : Imm16) (s : State) : Out :=
  s.instr c fun _ h => effAluImm .add c rd rs1 (sext16 imm) h

/-- ANDI ANDs the zero-extended immediate (R103, R105). -/
def execAndi (c : Nat) (rd rs1 : RegNo) (imm : Imm16) (s : State) : Out :=
  s.instr c fun _ h => effAluImm .and c rd rs1 (zext16 imm) h

/-- ORI ORs the zero-extended immediate (R103, R105). -/
def execOri (c : Nat) (rd rs1 : RegNo) (imm : Imm16) (s : State) : Out :=
  s.instr c fun _ h => effAluImm .or c rd rs1 (zext16 imm) h

/-- XORI exclusive-ORs the zero-extended immediate (R103, R105). -/
def execXori (c : Nat) (rd rs1 : RegNo) (imm : Imm16) (s : State) : Out :=
  s.instr c fun _ h => effAluImm .xor c rd rs1 (zext16 imm) h

/-- SHLI shifts by imm16[5:0] (R105). -/
def execShli (c : Nat) (rd rs1 : RegNo) (sh : BitVec 6) (s : State) : Out :=
  s.instr c fun _ h => effAluImm .shl c rd rs1 (sh.zeroExtend 64) h

/-- SHRI shifts by imm16[5:0] (R105). -/
def execShri (c : Nat) (rd rs1 : RegNo) (sh : BitVec 6) (s : State) : Out :=
  s.instr c fun _ h => effAluImm .shr c rd rs1 (sh.zeroExtend 64) h

/-- LUI: rd = zext(imm19) << (16 × (hw + 1)), the whole of rd; hw 3 is reserved and illegal (R102, R105). -/
def effLui (c : Nat) (rd : RegNo) (hw : BitVec 2) (imm : BitVec 19) (h : Hub) : Effect :=
  if hw = 3 then .raise .illegal 0
  else .done (h.setGpr c rd (imm.zeroExtend 64 <<< (16 * (hw.toNat + 1))))

/-- LUI (R105). -/
def execLui (c : Nat) (rd : RegNo) (hw : BitVec 2) (imm : BitVec 19) (s : State) : Out :=
  s.instr c fun _ h => effLui c rd hw imm h

end Sys2Proof.Machine
end

