-- ==== Sys2Proof/Machine/Crypto.lean ====
section
/-! DEFINITION. The published algorithms the hub computes: SHA-384 (FIPS 180-4), HKDF (RFC 5869), AES-256 and GCM (FIPS
197, NIST SP 800-38D), AES key wrap (NIST SP 800-38F), and NIST P-384 with ECDH and ECDSA (SP 800-186, FIPS 186-5).
The spec names them (R143, R279, R411, R416, R504) and leaves their text to the standards. PRESUMED (assumption 11). -/

namespace Sys2Proof.Machine

open Sys2Proof

/-- The number that bytes hold, most significant first (R9 keeps a published standard's order). -/
def ofBytesBE (bs : List Byte) : Nat := bs.foldl (fun n b => 256 * n + b.toNat) 0
/-- A number as `k` bytes, most significant first. -/
def bytesBE (k n : Nat) : List Byte := (bytesLE k n).reverse
/-- Two byte lists, bit by bit. -/
def xorBytes (a b : List Byte) : List Byte := List.zipWith (· ^^^ ·) a b
/-- A list in pieces of `k`: `fuel` bounds their number. -/
def pieces {α : Type} (k : Nat) : Nat → List α → List (List α)
  | 0, _ => []
  | _, [] => []
  | fuel + 1, l => l.take k :: pieces k fuel (l.drop k)

/-! ### SHA-384 -/

/-- The largest number of at most 68 bits whose `k`-th power is at most `n`. -/
def rootOf68 (k n : Nat) : Nat :=
  (List.range 68).reverse.foldl (fun r i => if (r + 2 ^ i) ^ k ≤ n then r + 2 ^ i else r) 0
/-- The first 80 primes. -/
def primes80 : List Nat :=
  [2, 3, 5, 7, 11, 13, 17, 19, 23, 29, 31, 37, 41, 43, 47, 53, 59, 61, 67, 71, 73, 79, 83, 89, 97, 101, 103, 107, 109, 113,
   127, 131, 137, 139, 149, 151, 157, 163, 167, 173, 179, 181, 191, 193, 197, 199, 211, 223, 227, 229, 233, 239, 241, 251,
   257, 263, 269, 271, 277, 281, 283, 293, 307, 311, 313, 317, 331, 337, 347, 349, 353, 359, 367, 373, 379, 383, 389, 397,
   401, 409]
/-- The round constants: the first 64 bits of the fractions of the cube roots of the first 80 primes. -/
def shaK : List Word := primes80.map fun p => BitVec.ofNat 64 (rootOf68 3 (p * 2 ^ 192))
/-- The initial hash: the first 64 bits of the fractions of the square roots of the ninth to sixteenth primes. -/
def shaInit : List Word := ((primes80.drop 8).take 8).map fun p => BitVec.ofNat 64 (rootOf68 2 (p * 2 ^ 128))

/-- The message schedule of a block, latest word first. -/
def shaSchedule (block : List Word) : List Word :=
  (List.range 64).foldl (fun (w : List Word) _ =>
    let x := w.getD 1 0
    let y := w.getD 14 0
    let s1 := x.rotateRight 19 ^^^ x.rotateRight 61 ^^^ x >>> 6
    let s0 := y.rotateRight 1 ^^^ y.rotateRight 8 ^^^ y >>> 7
    (s1 + w.getD 6 0 + s0 + w.getD 15 0) :: w) block.reverse
/-- A round of the compression. -/
def shaRound (v : List Word) (kw : Word × Word) : List Word :=
  match v with
  | [a, b, c, d, e, f, g, h] =>
    let s1 := e.rotateRight 14 ^^^ e.rotateRight 18 ^^^ e.rotateRight 41
    let s0 := a.rotateRight 28 ^^^ a.rotateRight 34 ^^^ a.rotateRight 39
    let t := h + s1 + ((e &&& f) ^^^ (~~~e &&& g)) + kw.1 + kw.2
    [t + s0 + ((a &&& b) ^^^ (a &&& c) ^^^ (b &&& c)), a, b, c, d + t, e, f, g]
  | _ => v
/-- The hash of a message with its padding: 384 bits of the 512. -/
def sha384 (msg : List Byte) : List Byte :=
  let zeros := (239 - msg.length % 128) % 128
  let padded := msg ++ 0x80 :: List.replicate zeros 0 ++ bytesBE 16 (8 * msg.length)
  let blocks := pieces 128 (padded.length / 128) padded
  let hash := blocks.foldl (fun h b =>
    let w := (shaSchedule ((pieces 8 16 b).map fun x => BitVec.ofNat 64 (ofBytesBE x))).reverse
    List.zipWith (· + ·) h ((shaK.zip w).foldl shaRound h)) shaInit
  ((hash.take 6).flatMap fun w => bytesBE 8 w.toNat)

/-- HMAC-SHA-384. -/
def hmac (key msg : List Byte) : List Byte :=
  let k := if 128 < key.length then sha384 key else key
  let k := k ++ List.replicate (128 - k.length) 0
  sha384 (k.map (· ^^^ 0x5C) ++ sha384 (k.map (· ^^^ 0x36) ++ msg))
/-- HKDF-SHA-384 to 32 bytes. -/
def hkdf32 (salt ikm info : List Byte) : List Byte := (hmac (hmac salt ikm) (info ++ [1])).take 32

/-! ### AES-256 -/

/-- A byte times x in the field of AES. -/
def xtime (b : Byte) : Byte := (b <<< 1) ^^^ if b.msb then 0x1B else 0
/-- The product of two bytes in the field of AES. -/
def gmul (a b : Byte) : Byte :=
  ((List.range 8).foldl (fun (s : Byte × Byte) i => (if b.getLsbD i then s.1 ^^^ s.2 else s.1, xtime s.2)) (0, a)).1
/-- The S-box: the inverse, then the affine map. -/
def subByte (b : Byte) : Byte :=
  let i := (List.range 7).foldl (fun (s : Byte × Byte) _ =>
    let q := gmul s.2 s.2
    (gmul s.1 q, q)) (1, b) |>.1
  i ^^^ i.rotateLeft 1 ^^^ i.rotateLeft 2 ^^^ i.rotateLeft 3 ^^^ i.rotateLeft 4 ^^^ 0x63
/-- The key schedule of 60 words, latest first. -/
def aesSchedule (key : List Byte) : List (List Byte) :=
  (List.range 52).foldl (fun (w : List (List Byte)) j =>
    let i := j + 8
    let last := w.headD []
    let x :=
      if i % 8 = 0 then
        xorBytes ((last.drop 1 ++ last.take 1).map subByte) [(List.range (i / 8 - 1)).foldl (fun r _ => xtime r) 1, 0, 0, 0]
      else if i % 8 = 4 then last.map subByte
      else last
    xorBytes (w.getD 7 []) x :: w) (pieces 4 8 key).reverse
/-- The 15 round keys. -/
def aesRoundKeys (key : List Byte) : List (List Byte) := pieces 16 15 (aesSchedule key).reverse.flatten
/-- The rows of a state shift: byte `i` comes from column `i / 4 + i % 4`. -/
def shiftRows (s : List Byte) : List Byte := (List.range 16).map fun i => s.getD (4 * ((i / 4 + i % 4) % 4) + i % 4) 0
/-- A column is mixed. -/
def mixColumn : List Byte → List Byte
  | [a, b, c, d] =>
    [xtime a ^^^ xtime b ^^^ b ^^^ c ^^^ d, a ^^^ xtime b ^^^ xtime c ^^^ c ^^^ d, a ^^^ b ^^^ xtime c ^^^ xtime d ^^^ d,
      xtime a ^^^ a ^^^ b ^^^ c ^^^ xtime d]
  | l => l
/-- A block enciphered under round keys. -/
def aesBlock (keys : List (List Byte)) (block : List Byte) : List Byte :=
  let mid := ((keys.drop 1).take 13).foldl (fun s k =>
    xorBytes ((pieces 4 4 (shiftRows (s.map subByte))).flatMap mixColumn) k) (xorBytes block (keys.headD []))
  xorBytes (shiftRows (mid.map subByte)) (keys.getD 14 [])

/-- AES key wrap of a key of four semiblocks. -/
def aesKeyWrap (kek key : List Byte) : List Byte :=
  let ks := aesRoundKeys kek
  let out := (List.range 24).foldl (fun (x : List Byte × List (List Byte)) t =>
    match x.2 with
    | [] => x
    | r :: rest =>
      let b := aesBlock ks (x.1 ++ r)
      (xorBytes (b.take 8) (bytesBE 8 (t + 1)), rest ++ [b.drop 8])) (List.replicate 8 0xA6, pieces 8 4 key)
  out.1 ++ out.2.flatten

/-- The product of two blocks in the field of GCM, bit 0 of a block being its most significant. -/
def ghashMul (x y : Nat) : Nat :=
  ((List.range 128).foldl (fun (s : Nat × Nat) i =>
    (if x.testBit (127 - i) then s.1 ^^^ s.2 else s.1, if s.2 % 2 = 1 then (s.2 / 2) ^^^ 0xE1 * 2 ^ 120 else s.2 / 2))
    (0, y)).1
/-- The GHASH of some bytes, each of the lists padded to whole blocks. -/
def ghash (h : Nat) (parts : List (List Byte)) : Nat :=
  (parts.flatMap fun l => pieces 16 (l.length / 16 + 1) l).foldl
    (fun y b => ghashMul (y ^^^ ofBytesBE (b ++ List.replicate (16 - b.length) 0)) h) 0
/-- AES-256-GCM with a 96-bit nonce: the ciphertext and the 16-byte tag. -/
def aesGcm (key nonce aad plain : List Byte) : List Byte × List Byte :=
  let ks := aesRoundKeys key
  let stream := fun i => aesBlock ks (nonce ++ bytesBE 4 i)
  let cipher := ((pieces 16 (plain.length / 16 + 1) plain).zipIdx.map fun b => xorBytes b.1 (stream (b.2 + 2))).flatten
  let y := ghash (ofBytesBE (aesBlock ks (List.replicate 16 0)))
    [aad, cipher, bytesBE 8 (8 * aad.length) ++ bytesBE 8 (8 * cipher.length)]
  (cipher, xorBytes (bytesBE 16 y) (stream 1))

/-! ### P-384 -/

/-- The field's prime. -/
def p384P : Nat := 2 ^ 384 - 2 ^ 128 - 2 ^ 96 + 2 ^ 32 - 1
/-- The group's order. -/
def p384N : Nat := 0xffffffffffffffffffffffffffffffffffffffffffffffffc7634d81f4372ddf581a0db248b0a77aecec196accc52973
/-- The curve's constant. -/
def p384B : Nat := 0xb3312fa7e23ee7e4988e056be3f82d19181d9c6efe8141120314088f5013875ac656398d8a2ed19d2a85c8edd3ec2aef
/-- A point in Jacobian coordinates; z is 0 at infinity. -/
structure Point where
  x : Nat
  y : Nat
  z : Nat
/-- The point at infinity. -/
def Point.zero : Point := { x := 1, y := 1, z := 0 }
/-- The generator. -/
def p384G : Point :=
  { x := 0xaa87ca22be8b05378eb1c71ef320ad746e1d3b628ba79b9859f741e082542a385502f25dbf55296c3a545e3872760ab7
    y := 0x3617de4a96262c6f5d9e98bf9292dc29f8f41dbd289a147ce9da3113b5f0b8c00a60b1ce1d7e819d7a431d7c90ea0e5f
    z := 1 }
/-- The difference in the field. -/
def fsub (a b : Nat) : Nat := (a + (p384P - b % p384P)) % p384P
/-- A power modulo `m`, by the bits of the exponent. -/
def powMod (m a e : Nat) : Nat :=
  (List.range 384).reverse.foldl (fun r i => let r := r * r % m; if e.testBit i then r * a % m else r) 1
/-- The inverse modulo a prime. -/
def invMod (m a : Nat) : Nat := powMod m a (m - 2)
/-- Twice a point. -/
def Point.double (q : Point) : Point :=
  let yy := q.y * q.y % p384P
  let zz := q.z * q.z % p384P
  let s := 4 * q.x * yy % p384P
  let m := 3 * fsub q.x zz * (q.x + zz) % p384P
  let x := fsub (m * m) (2 * s)
  { x, y := fsub (m * fsub s x) (8 * yy * yy), z := 2 * q.y * q.z % p384P }
/-- The sum of two points. -/
def Point.add (a b : Point) : Point :=
  if a.z = 0 then b
  else if b.z = 0 then a
  else
    let za := a.z * a.z % p384P
    let zb := b.z * b.z % p384P
    let u := a.x * zb % p384P
    let s := a.y * zb * b.z % p384P
    let h := fsub (b.x * za) u
    let r := fsub (b.y * za * a.z) s
    if h = 0 then (if r = 0 then a.double else .zero)
    else
      let hh := h * h % p384P
      let hhh := hh * h % p384P
      let v := u * hh % p384P
      let x := fsub (fsub (r * r) hhh) (2 * v)
      { x, y := fsub (r * fsub v x) (s * hhh), z := h * a.z * b.z % p384P }
/-- A multiple of a point. -/
def Point.times (k : Nat) (q : Point) : Point :=
  (List.range 384).reverse.foldl (fun r i => let r := r.double; if k.testBit i then r.add q else r) .zero
/-- The affine coordinates of a point other than infinity. -/
def Point.affine (q : Point) : Nat × Nat :=
  let i := invMod p384P q.z
  (q.x * i * i % p384P, q.y * i * i * i % p384P)

/-- The point that a public key, x followed by y, names. -/
def keyPoint (key : List Byte) : Point := { x := ofBytesBE (key.take 48), y := ofBytesBE (key.drop 48), z := 1 }
/-- The 96 bytes are a point of the curve (R504). -/
def onP384 (key : List Byte) : Bool :=
  let q := keyPoint key
  decide (key.length = 96 ∧ q.x < p384P ∧ q.y < p384P) &&
    q.y * q.y % p384P == fsub (q.x * q.x * q.x + p384B) (3 * q.x)
/-- The scalar of a private key. -/
def scalarOf (n : Nat) : Nat := n % (p384N - 1) + 1
/-- The public key of a scalar, x followed by y. -/
def p384Public (d : Nat) : List Byte :=
  let q := (p384G.times d).affine
  bytesBE 48 q.1 ++ bytesBE 48 q.2
/-- The ECDH shared x-coordinate. -/
def ecdhX (d : Nat) (key : List Byte) : List Byte := bytesBE 48 ((keyPoint key).times d).affine.1

/-- The ECDSA signature, r then s, of a message by a scalar with a nonce. -/
def ecdsaSign (d nonce : Nat) (msg : List Byte) : List Byte :=
  let r := (p384G.times nonce).affine.1 % p384N
  bytesBE 48 r ++ bytesBE 48 (invMod p384N nonce * ((ofBytesBE (sha384 msg) + r * d) % p384N) % p384N)
/-- An ECDSA signature (r, s) by a public key over a message verifies (R143, R552). -/
def ecdsaVerify (key msg sig : List Byte) : Bool :=
  let r := ofBytesBE (sig.take 48)
  let s := ofBytesBE (sig.drop 48)
  let w := invMod p384N s
  let q := (p384G.times (ofBytesBE (sha384 msg) * w % p384N)).add ((keyPoint key).times (r * w % p384N))
  onP384 key && decide (0 < r ∧ r < p384N ∧ 0 < s ∧ s < p384N) && q.z != 0 && q.affine.1 % p384N == r

end Sys2Proof.Machine
end

