-- ==== Sys2Proof/Machine/AddrMap.lean ====
section
/-! DEFINITION. Where the registers stand in the hub address space (R35, R36, R136, R458), and the configuration
groups they belong to (R426). -/

namespace Sys2Proof.Machine

open Sys2Proof

/-- The offset of copy `j` of a register within its block. -/
def RegDesc.offset (d : RegDesc) (j : Nat) : Nat := d.base + j / d.n2 * d.s1 + j % d.n2 * d.s2
/-- The copy of a register at an offset of its block. -/
def RegDesc.copyAt (d : RegDesc) (off : Nat) : Option Nat :=
  let x := off - d.base
  let j := x / d.s1
  let k := x % d.s1 / d.s2
  if d.base ≤ off ∧ j < d.n1 ∧ k < d.n2 ∧ x = j * d.s1 + k * d.s2 then some (j * d.n2 + k) else none

/-- A copy of a register. -/
structure RegCopy where
  reg : Reg
  copy : Nat
  deriving DecidableEq, Repr

/-- The register of a class of blocks at an offset, with its copy within the block. -/
def regIn (p : Block → Bool) (off : Nat) : Option RegCopy :=
  Reg.all.findSome? fun r =>
    if p r.desc.block then (r.desc.copyAt off).map fun j => { reg := r, copy := j } else none

/-- The window of a core at an offset of it (R136): its SPRs by number, its debug registers from 0x7000 (R458). -/
def coreRegAt (c off : Nat) : Option RegCopy :=
  let x := if 0x7000 ≤ off then regIn (· == .dbg) (off - 0x7000) else regIn (· == .spr) off
  x.map fun r => { r with copy := coreIdx c * r.reg.desc.perBlock + r.copy }

/-- The register at an offset of a Hearth block, that of the Hearth on die `d`; a per-master register is the copy of
master copy `m`. -/
def hearthRegAt (d m off : Nat) : Option RegCopy :=
  if 0x40000 ≤ off ∧ off < 0x80000 then coreRegAt (d * 2048 + 0x7F0 + (off - 0x40000) / 0x8000) ((off - 0x40000) % 0x8000)
  else (regIn (· == .hearth) off).map fun r => if r.reg.desc.perMaster then { r with copy := m } else r

/-- The register at an offset of spoke `n`'s block. -/
def spokeRegAt (n off : Nat) : Option RegCopy :=
  if 0xC0000 ≤ off then
    let c := n * 2048 + 0x7F8 + (off - 0xC0000) / 0x8000
    if coreOk c then coreRegAt c ((off - 0xC0000) % 0x8000) else none
  else
    (regIn (fun b => b == .spoke || (b == .anvil && decide (n < 8))) off).map fun r =>
      { r with copy := spokeInst r.reg n r.copy }

/-- The register at a hub address (R35), for master copy `m`. -/
def Hub.regAt (h : Hub) (m a : Nat) : Option RegCopy :=
  if a < 0x80000 then hearthRegAt h.hearthDie m a
  else if a < 0x100000 then hearthRegAt (4 - h.hearthDie) m (a - 0x80000)
  else if a < 0x2100000 then spokeRegAt (a / 0x100000 - 1) (a % 0x100000)
  else none

/-- The hub address of a copy of a register (R35, R136, R458). -/
def Hub.regAddr (h : Hub) (r : Reg) (i : Nat) : Nat :=
  let d := r.desc
  let n := i / d.perBlock
  let j := i % d.perBlock
  let core := fun x =>
    let c := n / 16 * 2048 + 0x7F0 + n % 16
    if isHearthCore c then (if dieOf c = h.hearthDie then 0x40000 else 0xC0000) + n % 16 * 0x8000 + x
    else 0x100000 + dieOf c * 0x100000 + 0xC0000 + (n % 16 - 8) * 0x8000 + x
  match d.block with
  | .hearth => if d.perMaster then d.base else d.offset i
  | .spoke | .anvil => 0x100000 + n * 0x100000 + d.offset j
  | .spr => core (d.offset j)
  | .dbg => core (0x7000 + d.offset j)

/-! ### Configuration groups (R426) -/

/-- A configuration group: one of package scope, a trigger matrix's, one node's spine group, or the patch group. -/
inductive GroupId where
  | pkg (g : CfgGroup)
  | trg (matrix : Nat)
  | spn (node : Nat)
  | pat
  deriving DecidableEq, Repr

/-- The group of a copy of a register, if its configuration is one's (R426). -/
def Reg.group (r : Reg) (i : Nat) : Option GroupId :=
  match r with
  | .TRC_RING_CFG | .TRC_FILL | .TRC_FILTER => some (.pkg .trc)
  | .TIM_XCHIP_CFG => some (.pkg .tim)
  | .SPK_HGRP | .HRT_HGRP_CTL => some (.pkg .hgrp)
  | .BLW_CFG => some (.pkg .blw)
  | .BNK_CFG => some (.pkg .bnk)
  | .HWT_CTX_CFG | .HWT_CFG => some (.pkg .hwt)
  | .WFG_CFG => some (.pkg .wfg)
  | .RCV_CFG => some (.pkg .rcv)
  | .LDG_CFG | .LDG_PMB_MAP => some (.pkg .ldg)
  | .TRG_ENTRY => some (.trg (i / r.desc.perBlock))
  | .HTRG_ENTRY => some (.trg 8)
  | .SPN_REQ | .SPN_QUOTA => some (.spn (i / r.desc.perBlock))
  | .PAT_ADDR | .PAT_DATA => some .pat
  | _ => none

end Sys2Proof.Machine
end

