-- ==== Sys2Proof/Machine/Access.lean ====
section
/-! DEFINITION. Authorisation (R480) and the frame of a register write that starts a command (R566, R567). -/

namespace Sys2Proof.Machine

open Sys2Proof

/-- The level a master holds: a core that of its recipe (R100), any other master that of its session (R478). -/
def Hub.levelOf (h : Hub) (m : Master) : Nat :=
  match m with
  | .core c => h.coreLevel c
  | .host n => if h.flag F.AUT_SESS_open n then h.get F.AUT_SESS_level n else 0
  | .sess n => if h.flag F.AUT_SESS_open (16 + n) then h.get F.AUT_SESS_level (16 + n) else 0

/-- The level a read of a register needs (R480, R458). -/
def Reg.readLevel (r : Reg) : Nat :=
  match r with
  | .HRT_ARCH | .HRT_TOPOLOGY | .HRT_STATE | .AUT_STATUS | .AUT_IDENT | .VYN_STATUS => 0
  | .PAT_ADDR | .PAT_DATA | .PAT_ARM | .PAT_STATUS | .AUT_ANCHOR => 4
  | .STK_DBG_CTL | .STK_DBG_STATUS | .STK_DBG_BP | .STK_DBG_LADDR | .STK_DBG_LDATA | .STK_DBG_PC | .STK_DBG_GPR
  | .STK_VT_OUT | .STK_VT_IN | .STK_VT_STAT => 2
  | .WFG_CFG | .WFG_STATUS | .WFG_ROOT | .WFG_ROOT_AUX | .WFG_ROOT_TIME | .WFG_CMD | .WFG_OBJ_CMD | .WFG_OBJ
  | .WFG_OBJ_VAL | .WFG_OBJ_SIG | .WFG_PEER => 2
  | _ => 1

/-- The level a write of a register needs (R480, and the registers' own descriptions). -/
def Reg.writeLevel (r : Reg) : Nat :=
  match r with
  | .TRC_RING_CFG | .TRC_FILL | .TRC_ARM | .TRC_CTRL | .TRC_FILTER => 2
  | .CRU_START => 2
  | .LDG_ACK => 1
  | .PAT_ADDR | .PAT_DATA | .PAT_ARM | .VYN_CFG => 4
  | _ => 3

/-- The master's last write ended with a status (R566). -/
def Hub.wrote (m : Master) (st : Status) (h : Hub) : Hub := h.modMaster m fun x => { x with wstat := st }

/-- A read by master `m` returns a word (R566 leaves reads to their register's rule). -/
def Hub.gave (m : Master) (v : Word) (h : Hub) : Hub := h.modMaster m fun x => { x with rdata := v, wstat := .ok }

/-- An access is refused for its level: the refusal is counted (R480). -/
def Hub.authRefused (h : Hub) : Hub := h.bump F.AUT_STATUS_auth_refusals 0 1

/-! ### Transactions and claims, as a register write meets them (R430, R433) -/

/-- Transaction `x`. -/
def Hub.txn (h : Hub) (x : Nat) : TxnX := aGet (fun _ => {}) h.txns x
/-- Change transaction `x`. -/
def Hub.modTxn (x : Nat) (f : TxnX → TxnX) (h : Hub) : Hub :=
  { h with txns := aPut (fun _ => {}) x (f (h.txn x)) h.txns }
/-- The owner of transaction `x` is master `m` (R158). -/
def Hub.txnOwner (h : Hub) (x : Nat) (m : Master) : Bool :=
  h.get F.TXN_OWNER_kind x == m.kind && h.get F.TXN_OWNER_id x == m.id
/-- The transaction that master `m` has open. -/
def Hub.openTxn (h : Hub) (m : Master) : Option Nat :=
  (List.range 16).find? fun x => h.get F.TXN_STATE_state x == 1 && h.txnOwner x m

/-- An action joins transaction `x` (R430); the 4,097th is refused with TXN_FULL (R109). -/
def Hub.stage (x : Nat) (a : StagedAct) (h : Hub) : Status × Hub :=
  let n := (h.txn x).acts.length
  if 4096 ≤ n then (.txnFull, h)
  else (.staged, (h.modTxn x fun y => { y with acts := y.acts ++ [a] }).put F.TXN_STATE_actions x (n + 1))

/-- How a write meets transactions (R430, R433): it is carried out at once, it is refused while its master has a
transaction open, it is staged as an action, or it is the ARM of a group. -/
inductive TxnWay where
  | now
  | refuse
  | act (a : StagedAct)
  | arm (g : GroupId)
  deriving DecidableEq, Repr

/-- The group of a register copy. -/
def RegCopy.group (x : RegCopy) : Option GroupId := x.reg.group x.copy

/-- A claim of a prepared transaction that a test selects covers a write of master `m` (R433): its register, its group, or
the group the ARM names. -/
def Hub.claimedBy (h : Hub) (p : Nat → Bool) (m : Master) (w : TxnWay) : Bool :=
  (List.range 16).any fun y =>
    h.get F.TXN_STATE_state y == 3 && p y && (h.txn y).acts.any fun a =>
      match a with
      | .write addr _ =>
        let owner := Master.ofKind (h.get F.TXN_OWNER_kind y) (h.get F.TXN_OWNER_id y)
        match h.regAt owner.idx addr, w with
        | some c, .act (.write b _) =>
          h.regAt m.idx b == some c || ((h.regAt m.idx b).bind RegCopy.group).any fun g => c.group == some g
        | some c, .arm g => c.group == some g
        | _, _ => false
      | _ => false

/-- A claim of another master's prepared transaction covers the write (R433). -/
def Hub.claimed (h : Hub) (m : Master) (w : TxnWay) : Bool := h.claimedBy (fun y => !h.txnOwner y m) m w

/-- A register write: the refusals that come before the level in R567's order, those of the target's state that come
after it, how it meets transactions, and what it does otherwise, with the status the write ends with. -/
structure RegCmd where
  pre : Hub → Option Status := fun _ => none
  gate : Hub → Option Status := fun _ => none
  txn : TxnWay := .now
  body : Nat → Hub → Status × Hub

/-- Master `m`, which has transaction `own` open, writes a register that needs `level`: a write that an open transaction
refuses (R430), the refusals before the level, the level, staging (R430), the target's state, a claim (R433), then its
effect. -/
def Hub.runCmdIn (own : Option Nat) (t : Nat) (m : Master) (level : Nat) (k : RegCmd) (h : Hub) : Status × Hub :=
  let barred := match k.txn with
    | .refuse | .arm _ => own.isSome
    | _ => false
  if barred then (.reserved, h)
  else
    match k.pre h with
    | some st => (st, h)
    | none =>
      if h.levelOf m < level then (.auth, h.authRefused)
      else
        match k.txn, own with
        | .act a, some x => h.stage x a
        | _, _ =>
          match k.gate h with
          | some st => (st, h)
          | none => if h.claimed m k.txn then (.busy, h) else k.body t h

/-- The write in the transaction that master `m` has open, if any. -/
def Hub.runCmd (t : Nat) (m : Master) (level : Nat) (k : RegCmd) (h : Hub) : Status × Hub :=
  h.runCmdIn (h.openTxn m) t m level k

/-- A command that is a register write by master `m` (R566): the write ends with a status. -/
def State.cmd (s : State) (m : Master) (level : Nat) (k : RegCmd) : Out :=
  s.liftIf m.ok fun t h => ((h.runCmd t m level k).2).wrote m (h.runCmd t m level k).1

/-- A register write that is refused for a reserved encoding, or is carried out and ends with OK. -/
def plainCmd (bad : Bool) (f : Nat → Hub → Hub) : RegCmd :=
  { pre := fun _ => if bad then some .reserved else none, body := fun t h => (.ok, f t h) }
/-- The same write, to a register copy, as a transaction stages it (R430). -/
def RegCmd.at (h : Hub) (r : Reg) (i : Nat) (v : Word) (k : RegCmd) : RegCmd := { k with txn := .act (.write (h.regAddr r i) v) }
/-- The same write, refused while its master has a transaction open (R430). -/
def RegCmd.alone (k : RegCmd) : RegCmd := { k with txn := .refuse }

/-- The conditions of R42 that hold, as the state R41 shows: the highest in precedence. -/
def Hub.stateCode (h : Hub) : Nat :=
  if h.retired then 6
  else if h.booting then 0
  else if h.failover then 4
  else if h.flag F.HRT_STATE_quench_held then 2
  else if h.get F.HRT_STATE_partitions_recovering ≠ 0 then 3
  else if h.flag F.HRT_STATE_ember then 5
  else 1

/-- HRT_STATE.state follows the conditions, and a change posts HUB_STATE (R41, R152); through a chip warm reset it keeps
its value (R543). -/
def Hub.refreshState (t : Nat) (h : Hub) : Hub :=
  let old := h.get F.HRT_STATE_state
  let new := h.stateCode
  if old = new ∨ (h.chipReset.isSome ∧ h.get F.HRT_BOOT_STATUS_form = 1) then h
  else (h.put F.HRT_STATE_state 0 new).hubEvent t 1 (new * 2 ^ 8 + old * 2 ^ 12)

/-- An alert cause is raised (R516). -/
def Hub.alert (n : Nat) (h : Hub) : Hub :=
  h.put F.HRT_ALERT_cause 0 (setBits (h.get F.HRT_ALERT_cause) n 1 1)

/-- HUB_ALERT_N is asserted: some enabled cause is set; causes 0–4 are always enabled (R516). -/
def Hub.alertAsserted (h : Hub) : Bool := (h.get F.HRT_ALERT_cause &&& (h.get F.HRT_ALERT_enable ||| 0x1F)) != 0

end Sys2Proof.Machine
end

