-- ==== Sys2Proof/Machine/VynLink.lean ====
section
/-! DEFINITION. Sending on the Vynuond port and the JTAG mailbox instrument (R489 to R491, R512), and to sessions
(R494, R509). -/

namespace Sys2Proof.Machine

open Sys2Proof

/-! ### A Vynuond link: the port is link 0, the JTAG mailbox link 1 -/

/-- A link. -/
def Hub.vlink (h : Hub) (k : Nat) : VynX := aGet (fun _ => {}) h.vyn k
/-- Change a link. -/
def Hub.modVlink (k : Nat) (f : VynX → VynX) (h : Hub) : Hub :=
  { h with vyn := aPut (fun _ => {}) k (f (h.vlink k)) h.vyn }
/-- A link enters a state (0 DOWN, 1 TRAINING, 2 NEGOTIATE, 3 UP); VYN_STATUS shows the port's. -/
def Hub.setVlink (k st : Nat) (h : Hub) : Hub :=
  let h := h.modVlink k fun x => { x with state := st }
  if k = 0 then h.put F.VYN_STATUS_link_state 0 st else h

/-- The credits of a class. -/
def creditOf (c : VynCredits) (cls : Nat) : Nat := if cls = 0 then c.control else if cls = 1 then c.access else c.stream
/-- Change the credits of a class. -/
def creditMod (f : Nat → Nat) (cls : Nat) (c : VynCredits) : VynCredits :=
  if cls = 0 then { c with control := f c.control }
  else if cls = 1 then { c with access := f c.access }
  else { c with stream := f c.stream }
/-- A frame of the kind needs a credit of its class (R490); HELLO_ACK comes before the credits it advertises (DEDUCED,
assumption 40). -/
def VynBody.needsCredit : VynBody → Bool
  | .spdm _ => true
  | .secured .. => true
  | _ => false

/-- A frame goes out with the next link sequence and enters the replay buffer (R489, R491). -/
def Hub.emitFrame (t k cls : Nat) (b : VynBody) (h : Hub) : Hub :=
  let x := h.vlink k
  let f : VynFrame := { cls, seq := x.txNext, ack := (x.rxNext + 65535) % 65536, body := b }
  let h := h.modVlink k fun x => { x with
    txNext := (x.txNext + 1) % 65536
    held := if b.needsCredit then creditMod (· - 1) cls x.held else x.held
    replay := x.replay ++ [{ frame := f, at_ := t, replays := 0 }] }
  h.say (.frame (k == 1) f)
/-- Link `k` can send a frame of a class now: it is UP, a credit is held, and the replay buffer has room (R490, R491). -/
def VynX.canSend (x : VynX) (cls : Nat) (b : VynBody) : Bool :=
  x.state == 3 && decide (x.replay.length < 128) && (!b.needsCredit || decide (0 < creditOf x.held cls))
/-- Send the waiting frames that can go, each class in its order. -/
def Hub.pump (t k : Nat) (h : Hub) : Hub :=
  let ws := (h.vlink k).waiting
  ws.foldl (fun h w =>
    let x := h.vlink k
    if x.canSend w.1 w.2 && !x.waiting.any (fun v => v.1 == w.1) then h.emitFrame t k w.1 w.2
    else h.modVlink k fun x => { x with waiting := x.waiting ++ [w] }) (h.modVlink k fun x => { x with waiting := [] })
/-- A frame is sent, or waits for a credit of its class and for the link. -/
def Hub.sendFrame (t k cls : Nat) (b : VynBody) (h : Hub) : Hub :=
  (h.modVlink k fun x => { x with waiting := x.waiting ++ [(cls, b)] }).pump t k
/-- The link negotiates its sequences afresh, and the messages not yet acknowledged wait to be sent again. DESIGN CHOICE
(assumption 78): R491 and R493 do not say what becomes of them, and R501 has no data dropped. -/
def Hub.requeue (k : Nat) (h : Hub) : Hub :=
  h.modVlink k fun x => { x with
    replay := []
    waiting := ((x.replay.filter fun f => f.frame.body.needsCredit).map fun f => (f.frame.cls, f.frame.body)) ++ x.waiting }
/-- NAK: it carries the expected sequence, and takes neither a sequence nor a credit (R489, R491). -/
def Hub.sendNak (k : Nat) (h : Hub) : Hub :=
  let x := h.vlink k
  h.say (.frame (k == 1) { cls := 0, seq := x.txNext, ack := (x.rxNext + 65535) % 65536, body := .nak x.rxNext })

/-! ### To sessions -/

/-- The bytes of an inner frame's body (R495). -/
def Inner.size : Inner → Nat
  | .spdm _ => 4
  | .aut .. => 4
  | .read _ _ bs => 8 + bs.length
  | .write .. => 8
  | .opened .. => 12
  | .data _ _ _ bs _ => 12 + bs.length
  | .notice bs => bs.length
  | .unknown _ => 2
/-- The bytes of the secured message that carries an inner frame (R494). -/
def Inner.secured (x : Inner) : Nat := alignUp (6 + 8 + x.size + 16) 4
/-- A frame with it is STREAM: it carries EXPORT_DATA or NOTICE (R490). -/
def Inner.stream : Inner → Bool
  | .data .. => true
  | .notice _ => true
  | _ => false

/-- The Vynuond link of a channel. -/
def chanLink : Chan → Option Nat
  | .vyn => some 0
  | .jtag => some 1
  | _ => none
/-- A session's record. -/
def Hub.session (h : Hub) (s : Nat) : Option SessX := aFind s h.sess

/-- What announces a message on a transport (R505): on I3C an in-band interrupt, where the target has its address and the
controller has enabled interrupts (bit 0 of ENEC's byte, as the I3C standard numbers it: PRESUMED, assumption 45). -/
def Hub.interrupts (h : Hub) (onI3c : Bool) : List Msg :=
  if onI3c && h.i3c.addr.isSome && bitAt h.i3c.events 0 then [.inBandInterrupt] else []
/-- A message goes out on an MCTP transport (R505). -/
def Hub.sayMctp (onI3c : Bool) (m : Msg) (h : Hub) : Hub := { h with out := h.out ++ h.interrupts onI3c ++ [m] }

/-- An inner frame goes to session `s`: in a SECURED frame on its Vynuond link, or, for a host agent, in a secured
message, which answers a request that waits in its mailbox channel (R494, R509). -/
def Hub.sendInner (t s tag : Nat) (x : Inner) (h : Hub) : Hub :=
  match h.session s with
  | none => h
  | some y =>
    match chanLink y.chan with
    | some k => h.sendFrame t k (if x.stream then 2 else 1) (.secured y.id tag x)
    | none =>
      let h := h.sayMctp (y.chan == .i3c) (.inner y.id tag x)
      let answers := match x with
        | .notice _ => false
        | _ => (h.mailbox s).asked
      if answers then
        h.modMail s fun m => { m with asked := false, rspReady := true, rspLength := x.secured, rspStatus := 0 }
      else h
/-- An SPDM response on a channel: in an SPDM frame on a Vynuond link, else in an MCTP message (R494, R506). -/
def Hub.sendSpdm (t : Nat) (ch : Chan) (r : SpdmRsp) (h : Hub) : Hub :=
  match chanLink ch with
  | some k => h.sendFrame t k 0 (.spdm r)
  | none => h.sayMctp (ch == .i3c) (.spdm ch r)

end Sys2Proof.Machine
end

