-- ==== Sys2Proof/Machine/Notices.lean ====
section
/-! DEFINITION. Notices to the host, the fabric manager and the board controller (R229, R230, R507 to R509). -/

namespace Sys2Proof.Machine

open Sys2Proof

/-- The number under which a destination's sequence is kept. -/
def NoticeTo.idx : NoticeTo → Nat
  | .mailbox a => a
  | .session s => 32 + s
  | .endpoint e i3c => 64 + 2 * e + b2n i3c

/-- The 64-byte notice entry of R507. -/
def noticeEntry (type phase seq : Nat) (body : List Byte) : List Byte :=
  bytesLE 1 type ++ bytesLE 1 phase ++ bytesLE 2 seq ++ bytesLE 4 0 ++
    (body ++ List.replicate (32 - body.length) 0) ++ List.replicate 24 0

/-- The next sequence number of a destination. -/
def Hub.nextSeq (d : NoticeTo) (h : Hub) : Nat × Hub :=
  let n := aGet (fun _ => 0) h.notices.destSeq d.idx
  (n, { h with notices :=
    { h.notices with destSeq := aPut (fun _ => 0) d.idx ((n + 1) % 2 ^ 16) h.notices.destSeq } })

/-- The session with an MCTP endpoint (R507): on PCIe that of its endpoint ID, on I3C that of the BMC. -/
def Hub.endpointSession (h : Hub) (e : Nat) (i3c : Bool) : Option Nat :=
  (h.sess.find? fun x => x.2.phase == 3 &&
    if i3c then x.2.chan == .i3c && h.get F.HRT_NOTIFY_bmc_eid == e else x.2.chan == .pcie e).map Prod.fst
/-- A notice to one destination other than a mailbox: to an MCTP endpoint in a vendor-defined message, or in a secured one
where a session with it exists (R507). -/
def Hub.sendNotice (t type : Nat) (body : List Byte) (d : NoticeTo) (h : Hub) : Hub :=
  let (n, h) := h.nextSeq d
  let e := noticeEntry type 0 n body
  match d with
  | .session s => h.sendInner t s 0 (.notice e)
  | .endpoint x i3c =>
    match h.endpointSession x i3c with
    | some s => h.sendInner t s 0 (.notice e)
    | none => h.sayMctp i3c (.notice d e)
  | .mailbox _ => h.say (.notice d e)

/-- A notice into the ring of mailbox channel `a` (R509): counted as an overflow and dropped while the ring is full. -/
def Hub.ringNotice (type : Nat) (body : List Byte) (a : Nat) (h : Hub) : Hub :=
  let x := h.mailbox a
  if !x.ntfEnable then h
  else if Config.noticeRingFull a x.ntfHead then
    (h.modMail a fun x => { x with ntfOverflow := min (2 ^ 32 - 1) (x.ntfOverflow + 1) }).alert 7
  else
    let (n, h) := h.nextSeq (.mailbox a)
    let h := h.setBytes (hostBase + x.ntfBase + x.ntfHead * 64) (noticeEntry type (b2n x.ntfPhase) n body)
    h.modMail a fun x =>
      if x.ntfHead + 1 = x.ntfEntries then { x with ntfHead := 0, ntfPhase := !x.ntfPhase }
      else { x with ntfHead := x.ntfHead + 1 }

/-- The fabric-manager endpoints that HRT_NOTIFY names (R508). -/
def Hub.fmEndpoints (h : Hub) : List NoticeTo :=
  [(h.get F.HRT_NOTIFY_fm_eid_0, h.flag F.HRT_NOTIFY_fm_i3c_0),
   (h.get F.HRT_NOTIFY_fm_eid_1, h.flag F.HRT_NOTIFY_fm_i3c_1)].filterMap fun e =>
    if e.1 = 0 then none else some (.endpoint e.1 e.2)

/-- The sessions that subscribed to notices (R507). -/
def Hub.subscribed (h : Hub) : List NoticeTo :=
  ((List.range 20).filter fun s => h.flag F.AUT_SESS_open s && h.flag F.AUT_SESS_notices s).map .session

/-- A notice goes to every destination of its type (R507); EXPORT_DONE only to the exporting agent's mailbox. A hub that
no image has booted serves neither mailboxes nor MCTP endpoints (R45). -/
def Hub.deliverNotice (t : Nat) (n : HeldNotice) (h : Hub) : Hub :=
  if h.boot.failed then
    if n.type = 4 ∨ n.type = 5 then h else h.subscribed.foldl (fun h d => h.sendNotice t n.type n.body d) h
  else match n.type with
  | 4 => match n.agent with
    | some a => h.ringNotice 4 n.body a
    | none => h
  | 5 => if h.get F.HRT_NOTIFY_bmc_eid = 0 then h
         else h.sendNotice t 5 n.body (.endpoint (h.get F.HRT_NOTIFY_bmc_eid) true)
  | ty =>
    let h := (List.range 16).foldl (fun h a => h.ringNotice ty n.body a) h
    let h := if ty = 3 then h else h.fmEndpoints.foldl (fun h d => h.sendNotice t ty n.body d) h
    h.subscribed.foldl (fun h d => h.sendNotice t ty n.body d) h

/-- A notice is sent; during a handover it is held until the handover instant (R442). -/
def Hub.notify (t : Nat) (n : HeldNotice) (h : Hub) : Hub :=
  if h.failover then { h with heldNotices := h.heldNotices ++ [n] } else h.deliverNotice t n

/-- A fabric-manager notice of R230: kind, Chip Time, and its last 16 bytes. -/
def Hub.fmNotice (t kind links deadline : Nat) (h : Hub) : Hub :=
  let n := h.notices.seq
  { h with notices := { h.notices with seq := (n + 1) % 2 ^ 16 } }.notify t
    { type := 1, agent := none
      body := bytesLE 1 1 ++ bytesLE 1 kind ++ bytesLE 2 n ++ bytesLE 4 0 ++ bytesLE 8 t ++ bytesLE 8 links
        ++ bytesLE 8 deadline }

/-- A hub event that a handover holds until the handover instant (R442), or that is delivered at once. -/
def Hub.heldEvent (t code payload : Nat) (h : Hub) : Hub :=
  if h.failover then { h with heldEvents := h.heldEvents ++ [(code, payload)] } else h.hubEvent t code payload

end Sys2Proof.Machine
end

