-- ==== Sys2Proof/Machine/Placement.lean ====
section
/-! DEFINITION. Where the planner places things in the Crucible (R29, R240 to R243). -/

namespace Sys2Proof.Machine

open Sys2Proof

/-- The first Crucible address of anvil node `p` (R29). -/
def nodeBase (p : Nat) : Nat := 0x100000000 + p * 0x20000000
/-- The first address of bank group `g` of node `p` (R29). -/
def groupBase (p g : Nat) : Nat := nodeBase p + g * 0x4000000
/-- Bank group `g` of node `p` is mapped in. -/
def Hub.mappedIn (h : Hub) (p g : Nat) : Bool := h.get F.CRU_GROUPS_mapped_in / 2 ^ (8 * p + g) % 2 == 1
/-- The mapped-in bank groups of node `p`, lowest first. -/
def Hub.groupsOf (h : Hub) (p : Nat) : List Nat := (List.range 8).filter (h.mappedIn p)
/-- The bank group that holds the reserved shares (R240): the highest-numbered when they were placed. -/
def Hub.shareGroup (h : Hub) (p : Nat) : Nat := h.sget F.CRU_NODE_reserved_group p
/-- The ledger share of node `p`: 8 MiB at group offset 40 MiB (R240). -/
def Hub.ledgerShare (h : Hub) (p : Nat) : Nat := groupBase p (h.shareGroup p) + 0x2800000
/-- The incident share of node `p`: 16 MiB at group offset 48 MiB (R240). -/
def Hub.incidentShare (h : Hub) (p : Nat) : Nat := groupBase p (h.shareGroup p) + 0x3000000
/-- 1 MiB. -/
def mib : Nat := 0x100000

/-- The extents of running or unreleased captures that stand in node `p`'s share (R242). -/
def Hub.heldExtents (h : Hub) (p : Nat) : List (Nat × Nat) :=
  (h.captures.flatMap fun e => e.2.extents).filter fun x => nodeBase p ≤ x.1 ∧ x.1 < nodeBase (p + 1)
/-- Two address ranges overlap. -/
def overlaps (a b : Nat × Nat) : Bool := decide (a.1 < b.1 + b.2) && decide (b.1 < a.1 + a.2)

/-- The range lies in mapped-in groups of node `p`, clear of the reserved shares and of held extents. -/
def Hub.rangeFree (h : Hub) (p : Nat) (r : Nat × Nat) : Bool :=
  ((List.range 8).all fun g => h.mappedIn p g || !overlaps r (groupBase p g, 64 * mib)) &&
  decide (nodeBase p ≤ r.1) && decide (r.1 + r.2 ≤ nodeBase (p + 1)) &&
  !overlaps r (h.ledgerShare p, 24 * mib) &&
  !(h.heldExtents p).any (overlaps r)

/-- Where a segment of `size` bytes goes on node `p`: the lowest address of the first run of consecutive mapped-in
groups that can hold it (R241). -/
def Hub.placeSegment (h : Hub) (p size : Nat) : Option Nat :=
  ((h.groupsOf p).map (groupBase p)).find? fun a => h.rangeFree p (a, size)

/-- The die a region reads, if it reads one (R247). -/
def RegionX.die (r : RegionX) : Option Nat :=
  match r.kind with
  | 0 | 1 | 2 => some (dieOf r.unit)
  | _ => none
/-- The dies a plan names, in its die_mask or in a region (R249, R266). -/
def PlanX.dies (p : PlanX) : Nat := maskOf (maskList 32 p.dieMask ++ p.regions.filterMap RegionX.die)

/-- The segment size in force, in bytes (R71). -/
def Hub.segSize (h : Hub) : Nat := h.get F.TRC_RING_CFG_seg_size * (16 * mib)
/-- The first address of node `p`'s trace segment; 0 while none is placed. -/
def Hub.segBase (h : Hub) (p : Nat) : Nat := h.sget F.TRC_SEG_BASE_base p

/-- Place every node's segment of `size` bytes, or none of them (R72). -/
def Hub.placements (h : Hub) (size : Nat) : Option (List Nat) := (List.range 8).mapM fun p => h.placeSegment p size

/-! ### A map-out under way (R450) -/

/-- The group 8p + g is mapped in or out. -/
def Hub.setMapped (b : Bool) (g : Nat) (h : Hub) : Hub :=
  h.put F.CRU_GROUPS_mapped_in 0 (setBits (h.get F.CRU_GROUPS_mapped_in) g 1 (b2n b))
/-- A running capture has an extent in group 8p + g. -/
def Hub.groupInUse (h : Hub) (g : Nat) : Bool :=
  h.captures.any fun e => decide (e.2.state < 4) && e.2.extents.any (overlaps (groupBase (g / 8) (g % 8), 64 * mib))
/-- Steps 1 and 2 of a map-out: the group's bit clears once no running capture writes to it. -/
def Hub.mapOutWaits (h : Hub) : Hub :=
  match h.mapOp with
  | some x => if x.mapIn || h.groupInUse x.group then h else h.setMapped false x.group
  | none => h

end Sys2Proof.Machine
end

