-- ==== Sys2Proof/Machine/Staging.lean ====
section
/-! DEFINITION. The power domains (R558). -/

namespace Sys2Proof.Machine

open Sys2Proof

/-- Power domain `d` is powered (R558). -/
def Hub.domainOn (h : Hub) (d : Nat) : Bool := bitAt (h.get F.HRT_PWR_DOM_on (d / 64)) (d % 64)
/-- Power domain `d` is switched on or off (R558). -/
def Hub.setDomain (d : Nat) (b : Bool) (h : Hub) : Hub :=
  h.put F.HRT_PWR_DOM_on (d / 64) (setBits (h.get F.HRT_PWR_DOM_on (d / 64)) (d % 64) 1 (b2n b))
/-- Power domains `d` to `d + n - 1` are switched on. -/
def Hub.powerUp (d n : Nat) (h : Hub) : Hub := (List.range n).foldl (fun h k => h.setDomain (d + k) true) h
/-- Power domain `d` was isolated, and stays off until cold reset (R559); a cleared fault bit does not power it. -/
def Hub.isolated (h : Hub) (d : Nat) : Bool := h.cut.contains d
/-- The power domain of spoke `n` (R558): the anvil aggregator or the Tongs. -/
def spokeDomain (n : Nat) : Nat := if n < 8 then 88 + n else 56 + n
/-- Spoke `n` is powered (R38, R559). -/
def Hub.spokeOn (h : Hub) (n : Nat) : Bool := h.domainOn (spokeDomain n)

end Sys2Proof.Machine
end

