-- ==== Sys2Proof/Machine/TimeTrace.lean ====
section
/-! DEFINITION. Chip Time, its distribution and alignment (R47 to R60), event stamping (R61 to R64), and the trace ring
(R71 to R81). -/

namespace Sys2Proof.Machine

open Sys2Proof

/-! ### The Chip Time unit -/

/-- The Chip Time unit's hub-source ID (R64). -/
def timeUnit : Nat := 0x7FA

/-- A time-alignment record (R69). -/
def Hub.timeRecord (t src kind mag : Nat) (h : Hub) : Hub :=
  h.emit t src 0xE2 none (kind * 2 ^ 25 + sat 25 mag)

/-- Start-up leaves stage POWER_ON once Chip Time has started; both Hearths, and the Vynuond PHY while enabled, have their
power from here on (R558; DESIGN CHOICE, assumption 46). -/
def Hub.timeStarted (h : Hub) : Hub :=
  if h.get F.HRT_BOOT_STATUS_stage = 0 ∧ h.powered then
    ((h.put F.HRT_BOOT_STATUS_stage 0 1).powerUp 112 6).setDomain 118 (h.flag F.VYN_CFG_enable)
  else h

/-- The time PLL locks (R47): the first lock after a cold reset starts Chip Time at zero; a later lock sets pll_locked
without a step. -/
def pllLock (k : Clock) (h : Hub) : Clock × Hub :=
  if !h.powered then (k, h)
  else if k.started then (k, h.put F.TIM_STATUS_pll_locked 0 1)
  else ({ chipTime := 0, started := true }, (h.put F.TIM_STATUS_pll_locked 0 1).timeStarted)

/-- PLL_LOCK (R47). -/
def execPllLock (s : State) : Out := s.liftClk pllLock

/-- PLL_LOSS_OF_LOCK (R50): the counter free-runs, pll_locked clears, HUB_ALERT_N is asserted, and an UNLOCK record is
written. -/
def execPllLossOfLock (s : State) : Out :=
  s.lift fun t h =>
    if h.flag F.TIM_STATUS_pll_locked then
      ((h.put F.TIM_STATUS_pll_locked 0 0).alert 0).timeRecord t timeUnit 3 0
    else h

/-- POWER_ON_LOCK_TIMEOUT (R546): Chip Time starts from the free-running output, and PLL_UNLOCK is raised. -/
def lockTimeout (k : Clock) (h : Hub) : Clock × Hub :=
  if k.started || !h.powered then (k, h)
  else ({ chipTime := 0, started := true }, (h.alert 0).timeStarted)

/-- POWER_ON_LOCK_TIMEOUT (R546). -/
def execPowerOnLockTimeout (s : State) : Out := s.liftClk lockTimeout

/-- TIM_TRIM_n.trim, in ticks. -/
def Hub.trim (h : Hub) (n : Nat) : Int := signedOf 12 (h.get F.TIM_TRIM_trim n)
/-- What spoke `n`'s count is ahead of the Chip Time unit's: its trim as far as it is applied, less its lag (R51, R53). -/
def Hub.skew (h : Hub) (n : Nat) : Int := h.trim n - (h.spoke n).trimLeft - (h.spoke n).lag
/-- Chip Time at spoke `n`: its replica, which never decreases (R48, R52). -/
def Hub.replica (h : Hub) (t n : Nat) : Nat := max (h.spoke n).floor ((t : Int) + h.skew n).toNat
/-- A change to what a spoke's replica counts by: the replica holds the value it has reached (R48). -/
def Hub.holdReplica (t n : Nat) (h : Hub) : Hub := h.modSpoke n fun x => { x with floor := h.replica t n }

/-- The event collector or trace writer of a spoke (R64). -/
def collectorOf (n : Nat) : Nat := n * 2048 + 0x7FF

/-- A check word meets spoke `n`, whose count has gained `drift` ticks since the last one. What it disagrees by leaves out
the part of a trim change that is not yet applied (R53). Beyond one tick the spoke reloads its replica, which holds its
value while it is ahead (R48), counts and records (R54). DEDUCED (assumption 58). -/
def Hub.checkWord (t n : Nat) (drift : Int) (h : Hub) : Hub :=
  let h := (h.holdReplica t n).modSpoke n fun x => { x with lag := x.lag - drift }
  let off := h.skew n + (h.spoke n).trimLeft
  if off.natAbs ≤ 1 then h
  else
    ((h.holdReplica t n).modSpoke n fun x => { x with lag := x.lag + off })
      |>.bump F.TIM_TRIM_check_errors n 1
      |>.timeRecord t (collectorOf n) 1 off.natAbs

/-- CHECK_WORD (R54). -/
def execCheckWord (spoke : Nat) (drift : Int) (s : State) : Out :=
  s.liftIf (decide (spoke < 32)) fun t h => h.checkWord t spoke drift

/-- A trim slew ends: the spoke writes a TRIM record of the whole correction (R53, R69). -/
def Hub.trimEnds (t n : Nat) (h : Hub) : Hub :=
  (h.timeRecord t (collectorOf n) 5 (h.spoke n).trimTotal.natAbs).modSpoke n fun x => { x with trimTotal := 0 }

/-- A write of TIM_TRIM_n.trim (R53): the register takes the value, and the change, which makes up a lag of its own size
(assumption 58), is left to be slewed. A write that leaves a slew under way nothing to do ends it. -/
def Hub.trimWrite (t n : Nat) (trim : BitVec 12) (h : Hub) : Hub :=
  let d := trim.toInt - h.trim n
  let x := h.spoke n
  let h := ((h.holdReplica t n).put F.TIM_TRIM_trim n trim.toNat).modSpoke n fun x => { x with
    lag := x.lag + d, trimLeft := x.trimLeft + d, trimTotal := x.trimTotal + d
    trimAt := if x.trimLeft = 0 then t + us 1 else x.trimAt }
  if x.trimLeft ≠ 0 ∧ x.trimLeft + d = 0 then h.trimEnds t n else h

/-- A write of TIM_TRIM_n (R53). -/
def cmdTrim (n : Nat) (trim : BitVec 12) : RegCmd := plainCmd false fun t h => h.trimWrite t n trim

/-- TRIM_WRITE (R53). -/
def execTrimWrite (m : Master) (spoke : Nat) (trim : BitVec 12) (s : State) : Out :=
  if spoke < 32 then s.cmd m 3 (cmdTrim spoke trim |>.at s.hub .TIM_TRIM spoke (trim.zeroExtend 64)) else .refused .illFormed

/-- One tick of a trim slew (R53); at its end the spoke writes a TRIM record. -/
def Hub.trimTick (t n : Nat) (h : Hub) : Hub :=
  let x := h.spoke n
  let d := x.trimLeft.sign
  let h := (h.holdReplica t n).modSpoke n fun x => { x with trimLeft := x.trimLeft - d, trimAt := t + us 1 }
  if x.trimLeft = d then h.trimEnds t n else h

/-- When the next tick of a trim slew falls due: 1 µs after the last (R53). -/
def Hub.trimDue (h : Hub) (n : Nat) : Option Nat :=
  if (h.spoke n).trimLeft = 0 then none else some (h.spoke n).trimAt

/-- TRIM_SLEW_TICK (R53). -/
def execTrimSlewTick (spoke : Nat) (s : State) : Out :=
  if spoke < 32 then s.liftAt (s.hub.trimDue spoke) fun t h => h.trimTick t spoke else .refused .illFormed

/-! ### Alignment across chips (R56, R58) -/

/-- A forward step of Chip Time (R48, R58): the count, TIM_LAST_STEP, and a STEP record. A step that is no whole number
of microseconds is rounded down in the record. DESIGN CHOICE (assumption 60): R69 states no rounding. -/
def stepTime (ticks : Nat) (k : Clock) (h : Hub) : Clock × Hub :=
  if ticks = 0 then (k, h)
  else
    let k := k.add ticks
    (k, (h.put F.TIM_LAST_STEP_ticks 0 ticks).timeRecord k.chipTime timeUnit 0 (ticks / 4000))

/-- Set TIM_STATUS.xchip_state. -/
def Hub.xchip (n : Nat) (h : Hub) : Hub := h.put F.TIM_STATUS_xchip_state 0 n

/-- The rate at which Chip Time is slewed, in ppm (R49). -/
def Hub.setRate (r : Int) (h : Hub) : Hub := { h with time := { h.time with rate := r } }
/-- A locked follower's estimate of its rate (R56), within ±200 ppm (R49): a value the spec leaves open. -/
def Hub.estimateRate (h : Hub) : Hub := h.drew.setRate ((h.freeWord.toNat % 401 : Nat) - 200)

/-- The ACQUIRING rows of R56 for one exchange. A slew that goes on from AHEAD ends at LOCKED, from where the rate is the
follower's estimate. DESIGN CHOICE (assumption 60): no row names the end of that slew. -/
def acquire (offset : Int) (run : Nat) (k : Clock) (h : Hub) : Clock × Hub :=
  if 8 ≤ run then (k, ((h.xchip 2).timeRecord k.chipTime timeUnit 2 0).estimateRate)
  else if offset < -4000 then stepTime offset.natAbs k (h.xchip 1)
  else if 4000 < offset then (k, (h.xchip 4).setRate (-200))
  else (k, h.xchip 1)

/-- One two-way exchange of a follower with its parent, which finds this chip ahead by `offset` ticks (R56). A follower
that loses LOCKED goes on at the nominal rate. DESIGN CHOICE (assumption 60). -/
def timeExchange (offset : Int) (k : Clock) (h : Hub) : Clock × Hub :=
  let run := if offset.natAbs ≤ 40 then h.time.goodRun + 1 else 0
  let bad := if 40 < offset.natAbs then h.time.badRun + 1 else 0
  let h := { h.put F.TIM_XCHIP_OFFSET_last_offset 0 (unsignedOf 32 offset) with
    time := { h.time with goodRun := run, badRun := bad, heard := k.chipTime } }
  match h.get F.TIM_STATUS_xchip_state with
  | 1 => acquire offset run k h
  | 4 => if 8 ≤ run then acquire offset run k h
         else if offset.natAbs ≤ 4000 then (k, h.xchip 1) else (k, h)
  | 2 => if 3 ≤ bad then
           (k, { (h.xchip 1).timeRecord k.chipTime timeUnit 3 0 with time := { h.time with goodRun := 0, rate := 0 } })
         else (k, h.estimateRate)
  | 3 => acquire offset (min run 1) k { h with time := { h.time with goodRun := min run 1, rate := 0 } }
  | _ => (k, h)

/-- The chip is a follower (R55). -/
def Hub.follows (h : Hub) : Bool := h.get F.TIM_XCHIP_CFG_role == 2
/-- The interval of a follower's exchanges (R55). -/
def Hub.exchangeInterval (h : Hub) : Nat := us (2 ^ h.get F.TIM_XCHIP_CFG_interval_log2)
/-- The link to the parent carries time messages: it is up and not banked (R55, R56). -/
def Hub.parentUp (h : Hub) : Bool :=
  let l := h.get F.TIM_XCHIP_CFG_parent_link
  (h.linkState l == 2 || h.linkState l == 3) && !h.isBanked l
/-- When the next exchange falls due, while the link to the parent carries it (R55). -/
def Hub.exchangeDue (h : Hub) : Option Nat :=
  if h.follows ∧ h.parentUp then some (h.time.heard + h.exchangeInterval) else none

/-- TIME_EXCHANGE (R55, R56). -/
def execTimeExchange (offset : Int) (s : State) : Out :=
  match s.hub.exchangeDue with
  | none => .next s
  | some d =>
    let r := timeExchange offset (s.clk.reach d) s.hub
    .next { s with clk := r.1, hub := r.2 }

/-- A follower's link to its parent is banked, down or silent for 4 intervals (R56): in HOLDOVER the rate stays at the
last estimate, else it is nominal. -/
def Hub.parentLost (t : Nat) (h : Hub) : Hub :=
  let h := { h with time := { h.time with goodRun := 0, badRun := 0 } }
  match h.get F.TIM_STATUS_xchip_state with
  | 2 => { (h.xchip 3).timeRecord t timeUnit 4 0 with time := { h.time with holdoverAt := t } }
  | 1 => h.setRate 0
  | 4 => (h.xchip 1).setRate 0
  | _ => h
/-- Link `l` no longer carries messages. -/
def Hub.linkLost (t l : Nat) (h : Hub) : Hub :=
  if h.follows ∧ h.get F.TIM_XCHIP_CFG_parent_link = l then h.parentLost t else h

/-- PARENT_SILENT (R56): 4 intervals without an exchange. -/
def execParentSilent (s : State) : Out :=
  s.liftAt (if s.hub.follows then some (s.hub.time.heard + 4 * s.hub.exchangeInterval) else none) fun t h => h.parentLost t

/-- What TIM_XCHIP_OFFSET.holdover_bound_ns reads (R57): 10 ns plus 500 ns a second in HOLDOVER, else 0. -/
def Hub.holdoverBound (h : Hub) (t : Nat) : Nat :=
  if h.get F.TIM_STATUS_xchip_state = 3 then sat 32 (10 + 500 * (t - h.time.holdoverAt) / secs 1) else 0

/-- A write of TIM_STEP (R58): refused with ROLE on a follower; zero has no effect. The step is owed to Chip Time. -/
def cmdTimStep (ticks : Word) : RegCmd :=
  { txn := .refuse
    body := fun _ h =>
      if h.get F.TIM_XCHIP_CFG_role = 2 then (.role, h) else (.ok, { h with owedStep := h.owedStep + ticks.toNat }) }
/-- The step that is owed is taken. -/
def takeStep (k : Clock) (h : Hub) : Clock × Hub := stepTime h.owedStep k { h with owedStep := 0 }
/-- Act on the hub at the present Chip Time, where a write of TIM_STEP may be part of it. -/
def State.liftBus (s : State) (ok : Bool) (f : Nat → Hub → Hub) : Out :=
  if ok then s.liftClk fun k h => takeStep k (f k.chipTime h) else .refused .illFormed

/-- TIM_STEP (R58). -/
def execTimStep (m : Master) (ticks : Word) (s : State) : Out :=
  s.liftBus m.ok fun t h => ((h.runCmd t m 3 (cmdTimStep ticks)).2).wrote m (h.runCmd t m 3 (cmdTimStep ticks)).1

/-- The payload of a wall-offset record (R60): the change in µs, rounded toward zero and saturated. -/
def wallDelta (old new : Int) : Nat :=
  let d := (new - old).tdiv 1000
  unsignedOf 28 (max (-(2 ^ 27 - 1)) (min (2 ^ 27 - 1) d))

/-- A write of TIM_WALL_OFFSET (R60). -/
def Hub.wallWrite (t : Nat) (off : Word) (h : Hub) : Hub :=
  let old := (h.reg .TIM_WALL_OFFSET 0).toInt
  h.setReg .TIM_WALL_OFFSET 0 off
    |>.setReg .TIM_WALL_STAMP 0 (BitVec.ofNat 64 t)
    |>.put F.TIM_STATUS_wall_valid 0 1
    |>.emit t timeUnit 0xE3 none (wallDelta old off.toInt)

/-- A write of TIM_WALL_OFFSET (R60). -/
def cmdWall (off : Word) : RegCmd := plainCmd false fun t h => h.wallWrite t off

/-- WALL_OFFSET_WRITE (R60). -/
def execWallOffsetWrite (m : Master) (off : Word) (s : State) : Out :=
  s.cmd m 3 (cmdWall off |>.at s.hub .TIM_WALL_OFFSET 0 off)

/-! ### Stamping at source -/

/-- A unit presents events only while its clock runs. -/
def Hub.unitPresents (h : Hub) (u : Nat) : Bool :=
  match h.runState u with
  | .running | .haltPending | .fenced => true
  | .halted | .haltedHolding => h.uget F.SPK_UNIT_STATE_stepping u == 1
  | _ => false

/-- The events that unit `u`'s socket holds (R529): level 7 records that wait for the collector's FIFO (R74). -/
def Hub.socketHolds (h : Hub) (u : Nat) : Nat := ((h.spoke (dieOf u)).held.filter fun r => r.src = u).length
/-- A level 0–5 event finds three entries of its socket's FIFO occupied: it is discarded, and the collector counts it as a
drop of its level (R529, R75). -/
def Hub.socketDrop (t u lv : Nat) (h : Hub) : Hub :=
  (h.modSpoke (dieOf u) fun s => { s with loss := countLoss t lv s.loss }).sbump F.TRC_LOSS_TOTAL_dropped (dieOf u) lv 1
    |>.sbump F.SPK_SOCK_STATUS_ev_drops (dieOf u) (localOf u) 1
/-- A unit presents an event: its socket discards it (R529), or the collector stamps it with the spoke's replica (R61), or
discards a reserved class (R63). -/
def Hub.unitEvent (t u cls : Nat) (ctx : Option Nat) (pay : Nat) (h : Hub) : Hub :=
  if !h.unitPresents u then h
  else if classLevel cls ≤ 5 ∧ 3 ≤ h.socketHolds u then h.socketDrop t u (classLevel cls)
  else if !classKnown cls then h.sbump F.TRC_COLLECT_bad_class (dieOf u) 0 1
  else
    (h.modUnit u fun x => { x with evCtx := ctx }).collect t (dieOf u)
      (mkRec (h.replica t (dieOf u)) u cls ctx pay)

/-- UNIT_EVENT (R61, R63). -/
def execUnitEvent (unit : Nat) (cls : Byte) (ctx : Option (BitVec 11)) (payload : BitVec 28) (s : State) : Out :=
  s.liftIf (unitOk unit) fun t h => h.unitEvent t unit cls.toNat (ctx.map BitVec.toNat) payload.toNat

/-! ### The trace writers (R72 to R81) -/

/-- TRC_CTRL.running: some writer accepts records. -/
def Hub.refreshRunning (h : Hub) : Hub :=
  h.putB F.TRC_CTRL_running 0 ((List.range 8).any fun p => (h.node p).accept)

/-- The next slot of node `p`'s segment takes a record; WRAP goes on at its start (R76). -/
def Hub.segWrite (p : Nat) (r : Rec) (h : Hub) : Hub :=
  let size := h.segSize
  let w := h.sget F.TRC_SEG_STATUS_wptr p
  let h := h.setBytes (h.segBase p + w) r.toBytes
  let h := h.sput F.TRC_SEG_STATUS_fill p 0 (min size (h.sget F.TRC_SEG_STATUS_fill p + 16))
  if w + 16 < size then h.sput F.TRC_SEG_STATUS_wptr p 0 (w + 16)
  else (h.sput F.TRC_SEG_STATUS_wptr p 0 0).sbump F.TRC_SEG_WRAPS_wraps p 0 1

/-- A record that a writer itself writes as it stops: the matrices see it, and it goes straight to the segment. -/
def Hub.tailWrite (p : Nat) (r : Rec) (h : Hub) : Hub :=
  ((h.offer p p (.record r) 7).offer 8 32 (.record r) 7).segWrite p r

/-- The loss record of a level, from a collector or a trace writer (R75). -/
def lossRec (t n lv count : Nat) : Rec := mkRec t (collectorOf n) 0xE0 none (lv * 2 ^ 25 + sat 25 count)
/-- The loss record of a level on spoke `n` (R75). -/
def Hub.lossRecord (h : Hub) (t n lv : Nat) : Rec := lossRec t n lv (h.loss n lv).count
/-- The drops of a level have been reported (R75). -/
def Hub.clearLoss (n lv : Nat) (h : Hub) : Hub :=
  h.modSpoke n fun x => { x with loss := aPut (fun _ => {}) lv {} x.loss }
/-- Emit the loss record of a level, if drops are unreported (R75). -/
def Hub.emitLoss (t n lv : Nat) (h : Hub) : Hub :=
  if (h.loss n lv).count = 0 then h else (h.clearLoss n lv).collect t n (h.lossRecord t n lv)

/-- The unreported drops of a level at node `p`'s writer (R75). -/
def Hub.writerLoss (h : Hub) (p lv : Nat) : Loss := aGet (fun _ => {}) (h.node p).loss lv
/-- The writer's drops of a level have been reported (R75). -/
def Hub.clearWriterLoss (p lv : Nat) (h : Hub) : Hub :=
  h.modNode p fun x => { x with loss := aPut (fun _ => {}) lv {} x.loss }
/-- A record reaches the FIFO of node `p`'s writer (R74). -/
def Hub.writerPush (t p : Nat) (r : Rec) (h : Hub) : Hub :=
  let lv := classLevel r.cls
  let occ := (h.node p).fifo.length
  if dropsAt lv occ then
    (h.modNode p fun x => { x with loss := countLoss t lv x.loss }).sbump F.TRC_LOSS_TOTAL_dropped p lv 1
  else if 512 ≤ occ then h.modNode p fun x => { x with held := x.held ++ [r] }
  else h.modNode p fun x => { x with fifo := x.fifo ++ [r] }
/-- The writer emits the loss record of a level, if it has drops to report (R75). -/
def Hub.emitWriterLoss (t p lv : Nat) (h : Hub) : Hub :=
  if (h.writerLoss p lv).count = 0 then h
  else
    let r := lossRec t p lv (h.writerLoss p lv).count
    (((h.clearWriterLoss p lv).offer p p (.record r) 7).offer 8 32 (.record r) 7).writerPush t p r

/-- Node `p`'s writer stops with a cause (R70, R76): the pending loss records, the ring-stop record, and stopped. -/
def Hub.stopWriter (t p cause : Nat) (h : Hub) : Hub :=
  if !(h.node p).accept then h.modNode p fun x => { x with stopDue := none }
  else
    let h := h.modNode p fun x => { x with accept := false, stopDue := none }
    let h := (partitionDies p).foldl (fun h n => (List.range 7).foldl (fun h lv =>
      if (h.loss n lv).count = 0 then h else (h.clearLoss n lv).tailWrite p (h.lossRecord t n lv)) h) h
    let h := (List.range 7).foldl (fun h lv =>
      if (h.writerLoss p lv).count = 0 then h
      else (h.clearWriterLoss p lv).tailWrite p (lossRec t p lv (h.writerLoss p lv).count)) h
    (h.tailWrite p (mkRec t (collectorOf p) 0xE9 none (p * 2 ^ 24 + cause * 2 ^ 20)))
      |>.sput F.TRC_SEG_STATUS_stopped p 0 1
      |>.refreshRunning

/-- A request reaches the quench root (R204). -/
def Hub.askQuench (q : QuenchReq) (h : Hub) : Hub := { h with quenchReqs := h.quenchReqs ++ [q] }

/-- Every die. -/
def allDies : Nat := 0xFFFFFFFF

/-- Node `p`'s segment has 1 KiB left under STOP or STOP_AND_QUENCH (R76, R77): under RING the first segment to fill stops
every writer within 1 µs, and the first to fill since the start asks for the quench. -/
def Hub.segmentFull (t p : Nat) (h : Hub) : Hub :=
  let quench := h.get F.TRC_RING_CFG_policy == 2
  let cause := b2n quench
  let h := h.stopWriter t p cause
  let h := if h.flag F.TRC_RING_CFG_stop_scope then h
    else (List.range 8).foldl (fun h q =>
      if q ≠ p ∧ (h.node q).accept ∧ (h.node q).stopDue.isNone then
        h.modNode q fun x => { x with stopDue := some (t + us 1), stopCause := cause }
      else h) h
  if quench ∧ !h.time.filled then
    { h with time := { h.time with filled := true } }.askQuench { source := 3, unit := collectorOf p, mask := allDies }
  else h

/-- The fill level crosses the threshold for the first time since the start (R78). -/
def Hub.checkThreshold (t p : Nat) (h : Hub) : Hub :=
  let th := h.get F.TRC_FILL_threshold
  let fill := h.sget F.TRC_SEG_STATUS_fill p
  if th ≠ 0 ∧ !(h.node p).crossed ∧ th * h.segSize / 256 ≤ fill then
    (h.modNode p fun x => { x with crossed := true }).emit t (collectorOf p) 0xE8 none
      (p * 2 ^ 24 + fill / 1024 / 16 % 2 ^ 24)
  else h

/-- The writer of node `p` takes a record into its segment (R73, R76, R78). -/
def Hub.writerAccept (t p : Nat) (r : Rec) (h : Hub) : Hub :=
  let h := (h.segWrite p r).checkThreshold t p
  if h.get F.TRC_RING_CFG_policy ≠ 0 ∧ h.segSize ≤ h.sget F.TRC_SEG_STATUS_wptr p + 1024 then h.segmentFull t p
  else h

/-- A stopped writer discards a record and counts it (R76). One that has never been started discards it uncounted. DESIGN
CHOICE (assumption 60): R76 speaks of a stopped writer alone. -/
def Hub.writerDiscard (p : Nat) (r : Rec) (h : Hub) : Hub :=
  if h.sget F.TRC_SEG_STATUS_stopped p = 0 then h
  else if classLevel r.cls = 7 then h.sbump F.TRC_LOSS_L7_dropped p 0 1
  else h.sbump F.TRC_LOSS_TOTAL_dropped p (classLevel r.cls) 1

/-- A level whose threshold a FIFO falls below, when it falls to `n` records (R75). -/
def fallsBelow (n lv : Nat) : Bool := n + 1 == (lv + 1) * 64

/-- The collector of spoke `n` passes its oldest record to its node's writer (R62, R73), unless that is a level 7 record
and the writer's FIFO is full (R74); a level whose threshold its FIFO falls below reports its drops (R75), and a record
whose source waits takes the place. A writer that accepts no records discards it (R76). -/
def Hub.collectorPass (t n : Nat) (h : Hub) : Hub :=
  let p := nodeOf n
  match (h.spoke n).fifo with
  | [] => h
  | r :: rest =>
    if classLevel r.cls = 7 ∧ 512 ≤ (h.node p).fifo.length ∧ (h.node p).accept then h
    else
      let h := h.modSpoke n fun x => { x with
        fifo := (x.held.take 1).foldl (fun l y => insertRec y l) rest, held := x.held.drop 1 }
      let h := (List.range 7).foldl (fun h lv => if fallsBelow rest.length lv then h.emitLoss t n lv else h) h
      if (h.node p).accept then h.writerPush t p r else h.writerDiscard p r
/-- Node `p`'s writer takes the oldest record of its FIFO to its segment (R73). -/
def Hub.writerStore (t p : Nat) (h : Hub) : Hub :=
  match (h.node p).fifo with
  | [] => h
  | r :: rest =>
    let h := h.modNode p fun x => { x with fifo := rest ++ x.held.take 1, held := x.held.drop 1 }
    let h := (List.range 7).foldl (fun h lv => if fallsBelow rest.length lv then h.emitWriterLoss t p lv else h) h
    if (h.node p).accept then h.writerAccept t p r else h.writerDiscard p r

/-- TRACE_WRITE (R73, R76): collector `spoke` passes a record to its node's writer; from 32 on, a node's writer stores
one. -/
def execTraceWrite (spoke : Nat) (s : State) : Out :=
  s.liftIf (decide (spoke < 40)) fun t h => if spoke < 32 then h.collectorPass t spoke else h.writerStore t (spoke - 32)

/-- When the loss record of a level falls due (R75): a collector's, or from 32 on a node's writer's. -/
def Hub.lossDue (h : Hub) (n lv : Nat) : Option Nat :=
  let x := if n < 32 then h.loss n lv else h.writerLoss (n - 32) lv
  if x.count = 0 then none else some x.due

/-- LOSS_RECORD_TIMER (R75), of collector `spoke`, or from 32 on of a node's trace writer. -/
def execLossRecordTimer (spoke : Nat) (level : Nat) (s : State) : Out :=
  if spoke < 40 ∧ level < 7 then
    s.liftAt (s.hub.lossDue spoke level) fun t h =>
      if spoke < 32 then h.emitLoss t spoke level else h.emitWriterLoss t (spoke - 32) level
  else .refused .illFormed

/-- RING_STOP (R77): the stop that the first full segment sent reaches this node's writer. -/
def execRingStop (node : Nat) (s : State) : Out :=
  if node < 8 then s.liftAt (s.hub.node node).stopDue fun t h => h.stopWriter t node (h.node node).stopCause
  else .refused .illFormed

/-- Trace starts (R79): fill, wraps, stopped flags and loss totals clear, and each segment takes a trace-started record
in its first slot: wptr returns to 0 with the fill level. DESIGN CHOICE (assumption 60): R79 does not name wptr. A
segment that is not placed, or of size zero, does not start (R71). -/
def Hub.traceStart (t : Nat) (h : Hub) : Hub :=
  let n := h.time.startCount + 1
  let h := { h with time := { h.time with startCount := n, filled := false } }
  let h := (List.range 32).foldl (fun h s =>
    let h := (List.range 7).foldl (fun h lv => h.sput F.TRC_LOSS_TOTAL_dropped s lv 0) h
    (h.sput F.TRC_LOSS_L7_dropped s 0 0).modSpoke s fun x => { x with loss := [] }) h
  let h := (List.range 8).foldl (fun h p =>
    let on := decide (h.segSize ≠ 0) && decide (h.segBase p ≠ 0)
    let h := h.setReg .TRC_SEG_STATUS (spokeInst .TRC_SEG_STATUS p 0) 0
      |>.sput F.TRC_SEG_WRAPS_wraps p 0 0
      |>.modNode p (fun x => { x with loss := [], accept := on, stopDue := none, stopCause := 0, crossed := false })
    if on then h.tailWrite p (mkRec t (collectorOf p) 0xEA none n) else h) h
  h.refreshRunning

/-- Every writer stops with a cause (R79, R81). -/
def Hub.traceStop (t cause : Nat) (h : Hub) : Hub := (List.range 8).foldl (fun h p => h.stopWriter t p cause) h

/-- A write of TRC_CTRL: a start, or a stop with cause COMMANDED; both in one write are refused (R79). -/
def cmdTrcCtrl (start stop : Bool) : RegCmd :=
  plainCmd (start && stop) fun t h =>
    let h := if start then h.traceStart t else h
    if stop then h.traceStop t 2 else h

/-- TRACE_START (R79). -/
def execTraceStart (m : Master) (s : State) : Out :=
  s.cmd m 2 (cmdTrcCtrl true false |>.at s.hub .TRC_CTRL 0 1)

/-- TRACE_STOP (R79): cause COMMANDED. -/
def execTraceStop (m : Master) (s : State) : Out :=
  s.cmd m 2 (cmdTrcCtrl false true |>.at s.hub .TRC_CTRL 0 2)

/-- A read of TRC_COLLECT on spoke `n` (R16 RC): it returns the word and resets fifo_peak to the present occupancy. -/
def Hub.fifoPeakRead (m : Master) (n : Nat) (h : Hub) : Hub :=
  (h.gave m (h.reg .TRC_COLLECT n)).sput F.TRC_COLLECT_fifo_peak n 0 (min 512 (h.spoke n).fifo.length)

/-- FIFO_PEAK_READ (R16). -/
def execFifoPeakRead (m : Master) (spoke : Nat) (s : State) : Out :=
  if spoke < 32 then s.cmd m 1
    { gate := fun h => if h.spokeOn spoke then none else some .poweredOff
      body := fun _ h => (.ok, h.fifoPeakRead m spoke) } else .refused .illFormed

/-- The segments of group TRC come into force at their places (R72, R241). One that moves, or that ends below its write
position, begins again at its first slot with fill level 0. DESIGN CHOICE (assumption 60): R78 does not say what either
becomes. A size of zero turns trace off (R71). -/
def Hub.placeSegments (bases : List Nat) (h : Hub) : Hub :=
  Hub.refreshRunning <| (bases.zipIdx).foldl (fun h (b, p) =>
    let b := if h.segSize = 0 then 0 else b
    let h := if b = h.segBase p ∧ h.sget F.TRC_SEG_STATUS_wptr p < h.segSize then
        h.sput F.TRC_SEG_STATUS_fill p 0 (min h.segSize (h.sget F.TRC_SEG_STATUS_fill p))
      else h.setReg .TRC_SEG_STATUS (spokeInst .TRC_SEG_STATUS p 0)
        (BitVec.ofNat 64 (h.sget F.TRC_SEG_STATUS_stopped p * 2 ^ 30))
    let h := if b = 0 then h.modNode p fun x => { x with accept := false } else h
    h.sput F.TRC_SEG_BASE_base p 0 b) h

end Sys2Proof.Machine
end

