-- ==== Sys2Proof/Machine/Slots.lean ====
section
/-! DEFINITION. Event slots, waits and messages of the Striker cores (R108, R149 to R157), and the virtual terminal
(R476). -/

namespace Sys2Proof.Machine

open Sys2Proof

/-- An S instruction ends with a status and no result. -/
def Hub.endStatus (c : Nat) (st : Status) (h : Hub) : Effect := .done (h.setStatus c st)
/-- An S instruction ends with a result and a status (R88, R90). -/
def Hub.endResult (c : Nat) (rd : RegNo) (v : Word) (st : Status) (h : Hub) : Effect := .done (h.endS c rd v st)
/-- A wait ends with a status and no result. -/
def Hub.endWaitStatus (t c : Nat) (st : Status) (h : Hub) : Hub := (h.setStatus c st).retire t c (h.pc c + 4)

/-- The deadline of a wait has passed (R106): a nonzero deadline whose tick is over, since a delivery in that tick still
counts (R154). DEDUCED (assumption 61). -/
def deadlinePast (t d : Nat) : Bool := decide (d ≠ 0) && decide (d < t)

/-- When a wait with a deadline ends undelivered: in the tick after it. -/
def Wait.deadline : Wait → Option Nat
  | .waitev _ _ d | .recv _ d | .cwait _ _ d => if d = 0 then none else some (d + 1)
  | .twait d => some d
  | _ => none

/-- WAITEV (R154). -/
def effWaitev (t c : Nat) (rd : RegNo) (mask deadline : Nat) (h : Hub) : Effect :=
  if mask = 0 then h.endStatus c .reserved
  else
    match h.pendingIn c mask with
    | some n => h.endResult c rd (BitVec.ofNat 64 n) .ok
    | none =>
      if deadlinePast t deadline then h.endStatus c .deadline
      else .stay (h.modCore c fun x => { x with wait := .waitev rd mask deadline })

/-- WAITEV (R154). -/
def execWaitev (c : Nat) (rd rs1 rs2 : RegNo) (s : State) : Out :=
  s.instr c fun t h => sEffect rd (effWaitev t c rd (h.gpr c rs1).toNat (h.gpr c rs2).toNat h)

/-- The deadline of the wait core `c` is in, when the wait is of the kind asked for. -/
def Hub.waitDue (h : Hub) (c : Nat) (p : Wait → Bool) : Option Nat :=
  if p (h.core c).wait then (h.core c).wait.deadline else none

/-- A wait is a WAITEV. -/
def Wait.isWaitev : Wait → Bool
  | .waitev .. => true
  | _ => false
/-- A wait is a RECV. -/
def Wait.isRecv : Wait → Bool
  | .recv .. => true
  | _ => false
/-- A wait is a TWAIT. -/
def Wait.isTwait : Wait → Bool
  | .twait .. => true
  | _ => false
/-- A wait is a CWAIT. -/
def Wait.isCwait : Wait → Bool
  | .cwait .. => true
  | _ => false

/-- WAITEV_DEADLINE (R154): the deadline passes with no slot of the mask pending. -/
def execWaitevDeadline (c : Nat) (s : State) : Out :=
  if coreOk c then s.liftAt (s.hub.waitDue c Wait.isWaitev) fun t h => h.endWaitStatus t c .deadline
  else .refused .illFormed

/-! ### Arming slots (R149 to R151) -/

/-- The descriptor has a reserved kind, a reserved field, or selects a reserved code (R149, R151). -/
def descReserved (d : Nat) : Bool :=
  match bits d 0 4 with
  | 0 | 1 | 5 => bits d 4 60 != 0
  | 2 => bits d 5 3 != 0 || bits d 40 24 != 0 || bits d 8 32 == 0
  | 3 => bits d 20 44 != 0
  | 4 => bits d 12 52 != 0 || bits d 9 3 != 0
  | _ => true

/-- Another slot of the core than `n` is armed with a descriptor that satisfies a test. -/
def Hub.armedElsewhere (h : Hub) (c n : Nat) (p : Slot → Bool) : Bool :=
  (h.slotsOf c p).any (· ≠ n)

/-- Put a descriptor into a slot (R150, R151): its FIFO and overflow flag clear, and a TIMER starts. -/
def Hub.armSlot (t c n d : Nat) (h : Hub) : Hub :=
  let due := if bits d 0 4 = 2 then some (t + us (bits d 8 32)) else none
  (h.setSlot c n (some { desc := d, due := due })).setReg .STK_SLOTOVF (coreIdx c)
    (BitVec.ofNat 64 (setBits (h.reg .STK_SLOTOVF (coreIdx c)).toNat n 1 0))

/-- ARM (R150, R151). A JOB slot armed for a finished job delivers at once. -/
def effArm (t c n d : Nat) (h : Hub) : Effect :=
  let job := bits d 4 16
  if 63 < n || descReserved d || (bits d 0 4 == 3 && !(h.core c).jobs.contains job) then h.endStatus c .reserved
  else if (bits d 0 4 == 5 && h.armedElsewhere c n fun s => s.kind == 5) ||
      (bits d 0 4 == 3 && h.armedElsewhere c n fun s => s.kind == 3 && bits s.desc 4 16 == job) then
    h.endStatus c .busy
  else
    let h := h.armSlot t c n d
    let h := if bits d 0 4 = 3 then
        match aFind job h.doneJobs with
        | some st => h.deliver t c n (BitVec.ofNat 64 (job + st * 2 ^ 16))
        | none => h
      else h
    h.endStatus c .ok

/-- ARM (R151). -/
def execArm (c : Nat) (rs1 rs2 : RegNo) (s : State) : Out :=
  s.instr c fun t h => effArm t c (h.gpr c rs1).toNat (h.gpr c rs2).toNat h

/-- DISARM (R151): the slot is left unarmed, its FIFO and overflow flag cleared. -/
def effDisarm (c n : Nat) (h : Hub) : Effect :=
  if 63 < n then h.endStatus c .reserved
  else ((h.setSlot c n none).setReg .STK_SLOTOVF (coreIdx c)
    (BitVec.ofNat 64 (setBits (h.reg .STK_SLOTOVF (coreIdx c)).toNat n 1 0))).endStatus c .ok

/-- DISARM (R151). -/
def execDisarm (c : Nat) (rs1 : RegNo) (s : State) : Out :=
  s.instr c fun _ h => effDisarm c (h.gpr c rs1).toNat h

/-! ### Reaching another core (R108, R153, R157) -/

/-- The core that an ID reaches: a Hearth core ID reaches that number in the active Hearth (R157). -/
def Hub.reach (h : Hub) (c : Nat) : Nat :=
  if isHearthCore c ∧ (dieOf c = 0 ∨ dieOf c = 4) then h.hearthDie * 2048 + localOf c else c

/-- A delivery to a Hearth core during a handover is lost and counted (R443). -/
def Hub.lostInFailover (h : Hub) (c : Nat) : Bool := h.failover && isHearthCore c
/-- Count a delivery lost during a handover (R443). -/
def Hub.countLost (h : Hub) : Hub := h.bump F.HRT_FO_STATUS_lost_events 0 1

/-- A payload delivered to a slot that must be armed with a kind: the outcome (R153, R164). A FIRE that meets a full
FIFO delivers nothing; another delivery is discarded with the slot's overflow bit set. -/
def Hub.postTo (t c n kind : Nat) (payload : Word) (h : Hub) : Status × Hub :=
  if !coreOk c then (.noUnit, h)
  else if h.lostInFailover c then (.ok, h.countLost)
  else
    match h.slot (h.reach c) n with
    | some s =>
      if s.kind ≠ kind then (.notHeld, h)
      else if kind = 0 ∧ 8 ≤ s.fifo.length then (.busy, h)
      else (if 8 ≤ s.fifo.length then .busy else .ok, h.deliver t (h.reach c) n payload)
    | none => (.notHeld, h)

/-- FIRE (R153). -/
def effFire (t c : Nat) (arg payload : Word) (h : Hub) : Effect :=
  if bits arg.toNat 22 42 ≠ 0 then h.endStatus c .reserved
  else
    let r := h.postTo t (bits arg.toNat 0 16) (bits arg.toNat 16 6) 0 payload
    r.2.endStatus c r.1

/-- FIRE (R153). -/
def execFire (c : Nat) (rs1 rs2 : RegNo) (s : State) : Out :=
  s.instr c fun t h => effFire t c (h.gpr c rs1) (h.gpr c rs2) h

/-- EVPOP (R155). -/
def effEvpop (c : Nat) (rd : RegNo) (n : Nat) (h : Hub) : Effect :=
  if 63 < n then h.endStatus c .reserved
  else
    match h.slot c n with
    | some s =>
      match s.fifo with
      | p :: rest => (h.setSlot c n (some { s with fifo := rest })).endResult c rd p .ok
      | [] => h.endStatus c .empty
    | none => h.endStatus c .empty

/-- EVPOP (R155). -/
def execEvpop (c : Nat) (rd rs1 : RegNo) (s : State) : Out :=
  s.instr c fun _ h => sEffect rd (effEvpop c rd (h.gpr c rs1).toNat h)

/-- TNOW: Chip Time of the core's spoke replica (R106). -/
def execTnow (c : Nat) (rd : RegNo) (s : State) : Out :=
  s.instr c fun t h => .done (h.setGpr c rd (BitVec.ofNat 64 (h.replica t (dieOf c))))

/-- TWAIT: no wait when the instant has passed (R106). -/
def effTwait (t c till : Nat) (h : Hub) : Effect :=
  if till ≤ t then .done h else .stay (h.modCore c fun x => { x with wait := .twait till })

/-- TWAIT (R106). -/
def execTwait (c : Nat) (rs1 : RegNo) (s : State) : Out :=
  s.instr c fun t h => effTwait t c (h.gpr c rs1).toNat h

/-- TWAIT_EXPIRY (R106): the awaited Chip Time arrives and the instruction returns. -/
def execTwaitExpiry (c : Nat) (s : State) : Out :=
  if coreOk c then s.liftAt (s.hub.waitDue c Wait.isTwait) fun t h => h.retire t c (h.pc c + 4)
  else .refused .illFormed

/-! ### Messages (R108, R156) -/

/-- Core `c` takes the oldest message of its inbox (R156); STK_MSGSRC names the sender. -/
def Hub.takeMessage (c : Nat) (h : Hub) : Option (Word × Hub) :=
  match (h.core c).inbox with
  | (from_, v) :: rest =>
    some (v, (h.cput F.STK_MSGSRC_sender c from_).modCore c fun x => { x with inbox := rest })
  | [] => none

/-- A message arrives in an inbox: an INBOX slot takes its sender (R149), and a waiting RECV returns. -/
def Hub.arrive (t c sender : Nat) (v : Word) (h : Hub) : Hub :=
  let h := h.modCore c fun x => { x with inbox := x.inbox ++ [(sender, v)] }
  let h := (h.slotsOf c fun s => s.kind == 5).foldl (fun h n => h.deliver t c n (BitVec.ofNat 64 sender)) h
  match (h.core c).wait with
  | .recv rd _ =>
    match h.takeMessage c with
    | some (w, h') => h'.endWait t c rd w .ok
    | none => h
  | _ => h

/-- SEND (R108, R156, R157). A stopped core whose inbox is full refuses with UNRESPONSIVE. DESIGN CHOICE (assumption 62):
R108 does not rank it against BUSY. -/
def effSend (t c : Nat) (arg v : Word) (h : Hub) : Effect :=
  let target := bits arg.toNat 0 16
  if bits arg.toNat 16 48 ≠ 0 then h.endStatus c .reserved
  else if !coreOk target then h.endStatus c .noUnit
  else if h.lostInFailover target then h.countLost.endStatus c .ok
  else
    let d := h.reach target
    if 2 ≤ h.coreState d then h.endStatus c .unresponsive
    else if 8 ≤ (h.core d).inbox.length then h.endStatus c .busy
    else (h.arrive t d c v).endStatus c .ok

/-- SEND (R108). -/
def execSend (c : Nat) (rs1 rs2 : RegNo) (s : State) : Out :=
  s.instr c fun t h => effSend t c (h.gpr c rs1) (h.gpr c rs2) h

/-- RECV (R108). -/
def effRecv (t c : Nat) (rd : RegNo) (deadline : Nat) (h : Hub) : Effect :=
  match h.takeMessage c with
  | some (v, h') => h'.endResult c rd v .ok
  | none =>
    if deadlinePast t deadline then h.endStatus c .deadline
    else .stay (h.modCore c fun x => { x with wait := .recv rd deadline })

/-- RECV (R108). -/
def execRecv (c : Nat) (rd rs1 : RegNo) (s : State) : Out :=
  s.instr c fun t h => sEffect rd (effRecv t c rd (h.gpr c rs1).toNat h)

/-- RECV_DEADLINE (R108): the deadline passes with nothing delivered. -/
def execRecvDeadline (c : Nat) (s : State) : Out :=
  if coreOk c then s.liftAt (s.hub.waitDue c Wait.isRecv) fun t h => h.endWaitStatus t c .deadline
  else .refused .illFormed

/-- When a TIMER slot expires next (R150). -/
def Hub.slotDue (h : Hub) (c n : Nat) : Option Nat := (h.slot c n).bind fun s => s.due

/-- A TIMER slot expires (R150): it delivers the Chip Time of the expiry, and a periodic one runs on. -/
def Hub.timerExpiry (t c n : Nat) (h : Hub) : Hub :=
  match h.slot c n with
  | some s =>
    match s.due with
    | some d =>
      let next := if bitAt s.desc 4 then some (d + us (bits s.desc 8 32)) else none
      (h.setSlot c n (some { s with due := next })).deliver t c n (BitVec.ofNat 64 d)
    | none => h
  | none => h

/-- SLOT_TIMER_EXPIRY (R150). -/
def execSlotTimerExpiry (c : Nat) (slot : Nat) (s : State) : Out :=
  if coreOk c ∧ slot < 64 then s.liftAt (s.hub.slotDue c slot) fun t h => h.timerExpiry t c slot
  else .refused .illFormed

/-! ### The virtual terminal (R476) -/

/-- VTX (R476). -/
def effVtx (c : Nat) (v : Word) (h : Hub) : Effect :=
  if h.cget F.STK_VT_STAT_out_full c = 1 then h.endStatus c .busy
  else ((h.setReg .STK_VT_OUT (coreIdx c) v).cput F.STK_VT_STAT_out_full c 1).endStatus c .ok

/-- VTX (R476). -/
def execVtx (c : Nat) (rs1 : RegNo) (s : State) : Out := s.instr c fun _ h => effVtx c (h.gpr c rs1) h

/-- VRX (R476). -/
def effVrx (c : Nat) (rd : RegNo) (h : Hub) : Effect :=
  if h.cget F.STK_VT_STAT_in_full c = 0 then h.endStatus c .empty
  else (h.cput F.STK_VT_STAT_in_full c 0).endResult c rd (h.reg .STK_VT_IN (coreIdx c)) .ok

/-- VRX (R476). -/
def execVrx (c : Nat) (rd : RegNo) (s : State) : Out := s.instr c fun _ h => sEffect rd (effVrx c rd h)

/-- A master writes IN (R476): refused with BUSY while in_full is 1. -/
def cmdVtIn (c : Nat) (w : Word) : RegCmd :=
  { body := fun _ h =>
      if h.cget F.STK_VT_STAT_in_full c = 1 then (.busy, h)
      else (.ok, (h.setReg .STK_VT_IN (coreIdx c) w).cput F.STK_VT_STAT_in_full c 1) }

/-- VT_IN_WRITE (R476). -/
def execVtInWrite (m : Master) (c : Nat) (w : Word) (s : State) : Out :=
  if coreOk c then s.cmd m 3 (cmdVtIn c w) else .refused .illFormed

/-- A write of 1 to out_full releases OUT (R476). -/
def cmdVtRelease (c : Nat) : RegCmd := plainCmd false fun _ h => h.cput F.STK_VT_STAT_out_full c 0

/-- VT_OUT_RELEASE (R476). -/
def execVtOutRelease (m : Master) (c : Nat) (s : State) : Out :=
  if coreOk c then s.cmd m 3 (cmdVtRelease c |>.at s.hub .STK_VT_STAT (coreIdx c) 1)
  else .refused .illFormed

end Sys2Proof.Machine
end

