-- ==== Sys2Proof/Machine/Locks.lean ====
section
/-! DEFINITION. The hub locks of the active Hearth (R124 to R128, R158, R159). -/

namespace Sys2Proof.Machine

open Sys2Proof

/-- The lock is owned. -/
def Hub.lockHeld (h : Hub) (l : Nat) : Bool := h.flag F.LCK_STATE_held l
/-- The lock's owner is master `m` (R158). -/
def Hub.lockOwner (h : Hub) (l : Nat) (m : Master) : Bool :=
  h.lockHeld l && h.get F.LCK_STATE_owner_kind l == m.kind && h.get F.LCK_STATE_owner_id l == m.id

/-- The outcome of a register request reaches its LCK_RESULT (R159). -/
def Hub.lockResult (m : Master) (st : Status) (count : Option Nat) (h : Hub) : Hub :=
  let h := h.put F.LCK_RESULT_status m.idx st.code
    |>.put F.LCK_RESULT_done m.idx 1
    |>.modMaster m fun x => { x with lckWaiting := false }
  match count with
  | some n => h.put F.LCK_RESULT_grant_count m.idx n
  | none => h

/-- The lock passes to a new owner: held, a lease of 10 ms, one more grant (R124). -/
def Hub.grantTo (t l : Nat) (m : Master) (h : Hub) : Hub :=
  h.put F.LCK_STATE_held l 1
    |>.put F.LCK_STATE_owner_kind l m.kind
    |>.put F.LCK_STATE_owner_id l m.id
    |>.incr F.LCK_STATE_grant_count l
    |>.modLock l fun x => { x with due := t + ms 10 }

/-- The status of a grant: BROKEN while the lock is broken (R124, R126). -/
def Hub.grantStatus (h : Hub) (l : Nat) : Status := if h.flag F.LCK_STATE_broken l then .broken else .ok

/-- A waiting acquire ends: its core's LCK returns, or its LCK_RESULT is written. -/
def Hub.endAcquire (t l : Nat) (w : LockWaiter) (st : Status) (h : Hub) : Hub :=
  let n := h.get F.LCK_STATE_grant_count l
  if w.viaReg then h.lockResult w.who st (if st.took then some n else none)
  else
    match w.who with
    | .core c =>
      match (h.core c).wait with
      | .lck rd _ => h.endWait t c rd (BitVec.ofNat 64 n) st
      | _ => h
    | _ => h

/-- A free lock with waiters is granted at once to the oldest (R125, R126). -/
def Hub.grantNext (t l : Nat) (h : Hub) : Hub :=
  match (h.lock l).waiters with
  | [] => h
  | w :: rest =>
    let h := (h.modLock l fun x => { x with waiters := rest }).grantTo t l w.who |>.countWaiters l
    h.endAcquire t l w (h.grantStatus l)

/-- The lock loses its owner. -/
def Hub.disown (l : Nat) (h : Hub) : Hub :=
  h.put F.LCK_STATE_held l 0 |>.put F.LCK_STATE_owner_kind l 0 |>.put F.LCK_STATE_owner_id l 0
    |>.modLock l fun x => { x with due := 0 }

/-- The lock becomes broken and loses its owner (R125): LOCK_BROKEN is posted (R152), and the oldest waiter has it. -/
def Hub.breakLock (t l : Nat) (h : Hub) : Hub :=
  if !h.lockHeld l then h
  else
    let pay := l * 2 ^ 8 + h.get F.LCK_STATE_owner_kind l * 2 ^ 16 + h.get F.LCK_STATE_owner_id l * 2 ^ 18
    ((h.disown l).put F.LCK_STATE_broken l 1).hubEvent t 4 pay |>.grantNext t l

/-- A lease that has fallen due lapses before anything else at its lock (R127); in FAILOVER none does (R128). -/
def Hub.settle (t l : Nat) (h : Hub) : Hub :=
  if h.lockHeld l ∧ (h.lock l).due ≤ t ∧ !h.failover then h.breakLock t l else h

/-- What a request for a lock finds (R124). -/
inductive Acquire where
  | granted | renewed | refused | waits
  deriving DecidableEq, Repr

/-- One acquire with a wait limit in µs (R124). -/
def Hub.acquire (t l : Nat) (m : Master) (limit : Nat) (viaReg : Bool) (h : Hub) : Acquire × Hub :=
  if h.lockOwner l m then (.renewed, h.modLock l fun x => { x with due := t + ms 10 })
  else if !h.lockHeld l then (.granted, h.grantTo t l m)
  else if limit = 0 then (.refused, h)
  else
    (.waits, (h.modLock l fun x =>
      { x with waiters := x.waiters ++ [{ who := m, limit := t + us limit, viaReg }] }).countWaiters l)

/-- One release, with or without CLEAN (R126). -/
def Hub.release (t l : Nat) (m : Master) (clean : Bool) (h : Hub) : Status × Hub :=
  if !h.lockOwner l m then (.notOwner, h)
  else
    let h := if clean then h.put F.LCK_STATE_broken l 0 else h
    (.ok, (h.disown l).grantNext t l)

/-- The body of LCK once the Hearth serves it (R124). -/
def effLck (t c : Nat) (rd : RegNo) (lock limit : Word) (h : Hub) : Effect :=
  let l := lock.toNat
  if 255 < l then h.endStatus c .reserved
  else
    let r := (h.settle t l).acquire t l (.core c) limit.toNat false
    let n := BitVec.ofNat 64 (r.2.get F.LCK_STATE_grant_count l)
    match r.1 with
    | .granted => r.2.endResult c rd n (r.2.grantStatus l)
    | .renewed => r.2.endResult c rd n .ok
    | .refused => r.2.endStatus c .locked
    | .waits => .stay (r.2.modCore c fun x => { x with wait := .lck rd l })

/-- The body of ULK once the Hearth serves it (R126). -/
def effUlk (t c : Nat) (lock flags : Word) (h : Hub) : Effect :=
  let l := lock.toNat
  if 255 < l || bits flags.toNat 1 63 != 0 then h.endStatus c .reserved
  else
    let r := (h.settle t l).release t l (.core c) (bitAt flags.toNat 0)
    r.2.endStatus c r.1

/-- An instruction that needs the Hearth waits while the hub is in FAILOVER (R110). -/
def hearthEffect (c : Nat) (op : HearthOp) (f : Hub → Effect) (h : Hub) : Effect :=
  if h.failover then .stay (h.modCore c fun x => { x with wait := .hearth op }) else f h

/-- LCK (R124). -/
def execLck (c : Nat) (rd rs1 rs2 : RegNo) (s : State) : Out :=
  s.instr c fun t h => sEffect rd <|
    hearthEffect c (.lck rd (h.gpr c rs1) (h.gpr c rs2)) (effLck t c rd (h.gpr c rs1) (h.gpr c rs2)) h

/-- ULK (R126). -/
def execUlk (c : Nat) (rs1 rs2 : RegNo) (s : State) : Out :=
  s.instr c fun t h =>
    hearthEffect c (.ulk (h.gpr c rs1) (h.gpr c rs2)) (effUlk t c (h.gpr c rs1) (h.gpr c rs2)) h

/-- The waiting request of master `m` for lock `l`. -/
def Hub.lockWaiter (h : Hub) (l : Nat) (m : Master) : Option LockWaiter :=
  (h.lock l).waiters.find? fun w => w.who = m

/-- A waiting request's limit passes (R124, R127): a lapse due first is served first; otherwise it ends LOCKED. -/
def Hub.waitLimit (t l : Nat) (m : Master) (h : Hub) : Hub :=
  let h := h.settle t l
  match h.lockWaiter l m with
  | none => h
  | some w =>
    let h := (h.modLock l fun x => { x with waiters := x.waiters.filter fun v => v.who ≠ m }).countWaiters l
    h.endAcquire t l w .locked

/-- LCK_WAIT_LIMIT (R124), once the tick of the limit is over: a grant decided in that tick goes to the waiter (R127). -/
def execLckWaitLimit (lock : Nat) (m : Master) (s : State) : Out :=
  if lock < 256 ∧ m.ok then
    s.liftAt ((s.hub.lockWaiter lock m).map fun w => w.limit + 1) fun t h => h.waitLimit t lock m
  else .refused .illFormed

/-- When a lock's lease lapses; none while it is free or the hub is in FAILOVER (R125, R128). -/
def Hub.leaseDue (h : Hub) (l : Nat) : Option Nat :=
  if h.lockHeld l && !h.failover then some (h.lock l).due else none

/-- LEASE_LAPSE (R125). -/
def execLeaseLapse (lock : Nat) (s : State) : Out :=
  if lock < 256 then s.liftAt (s.hub.leaseDue lock) fun t h => h.breakLock t lock else .refused .illFormed

/-- An acquire through LCK_REQ (R159): refused with BUSY while the master's earlier acquire waits; the outcome goes to
LCK_RESULT. -/
def cmdLockAcquire (m : Master) (l wait : Nat) : RegCmd :=
  { body := fun t h =>
      if (h.master m).lckWaiting then (.busy, h)
      else
        let r := (h.settle t l).acquire t l m wait true
        let n := r.2.get F.LCK_STATE_grant_count l
        match r.1 with
        | .granted => (.ok, r.2.lockResult m (r.2.grantStatus l) (some n))
        | .renewed => (.ok, r.2.lockResult m .ok (some n))
        | .refused => (.ok, r.2.lockResult m .locked none)
        | .waits => (.ok, (r.2.put F.LCK_RESULT_done m.idx 0).modMaster m fun x => { x with lckWaiting := true }) }

/-- A release through LCK_REQ (R159). -/
def cmdLockRelease (m : Master) (l : Nat) (clean : Bool) : RegCmd :=
  { body := fun t h =>
      if (h.master m).lckWaiting then (.busy, h)
      else
        let r := (h.settle t l).release t l m clean
        (.ok, r.2.lockResult m r.1 none) }

/-- LOCK_ACQUIRE (R159). -/
def execLockAcquire (m : Master) (lock : Nat) (waitUs : Nat) (s : State) : Out :=
  if lock < 256 ∧ waitUs < 2 ^ 32 then s.cmd m 3 (cmdLockAcquire m lock waitUs).alone else .refused .illFormed

/-- LOCK_RELEASE (R159). -/
def execLockRelease (m : Master) (lock : Nat) (s : State) : Out :=
  if lock < 256 then s.cmd m 3 (cmdLockRelease m lock false).alone else .refused .illFormed

/-- LOCK_RELEASE_CLEAN (R159, R126). -/
def execLockReleaseClean (m : Master) (lock : Nat) (s : State) : Out :=
  if lock < 256 then s.cmd m 3 (cmdLockRelease m lock true).alone else .refused .illFormed

/-- Every lock of master `m` becomes broken (R125), and its waiting requests end. -/
def Hub.breakLocksOf (t : Nat) (m : Master) (h : Hub) : Hub :=
  (List.range 256).foldl (fun h l =>
    let h := if (h.lockWaiter l m).isSome then
        (h.modLock l fun x => { x with waiters := x.waiters.filter fun v => v.who ≠ m }).countWaiters l
      else h
    if h.lockOwner l m then h.breakLock t l else h) h |>.modMaster m fun x => { x with lckWaiting := false }

end Sys2Proof.Machine
end

