-- ==== Sys2Proof/Machine/Codec.lean ====
section
/-! DEFINITION. The block format of Swage and its coders (R282 to R305). A block is a list of bytes. -/

namespace Sys2Proof.Machine

open Sys2Proof

/-! ### Elements, planes and bit streams (R283, R287, R289) -/

/-- The bytes of an element. -/
def laneBytes (l16 : Bool) : Nat := if l16 then 2 else 1
/-- The bits of an element. -/
def laneBits (l16 : Bool) : Nat := 8 * laneBytes l16

/-- The elements of a byte string in 16-bit lanes; a last odd byte is left out (R283). -/
def pairs : List Byte → List Nat
  | a :: b :: r => (a.toNat + 256 * b.toNat) :: pairs r
  | _ => []
/-- The elements of a block (R283). -/
def elemsOf (l16 : Bool) (bs : List Byte) : List Nat := if l16 then pairs bs else bs.map BitVec.toNat
/-- The bytes of elements (R283). -/
def elemBytes (l16 : Bool) (xs : List Nat) : List Byte := xs.flatMap (bytesLE (laneBytes l16))

/-- A byte of up to eight bits, bit 0 first (R289). -/
def packByte (bs : List Bool) : Byte :=
  BitVec.ofNat 8 (bs.zipIdx.foldl (fun n b => n + (if b.1 then 2 ^ b.2 else 0)) 0)
/-- Bits as bytes, each filled from bit 0 upward; the argument bounds the number of bytes (R289). -/
def packBits : Nat → List Bool → List Byte
  | 0, _ => []
  | n + 1, bs => if bs.isEmpty then [] else packByte (bs.take 8) :: packBits n (bs.drop 8)
/-- The bits of bytes, bit 0 of each first (R289). -/
def unpackBits (bs : List Byte) : List Bool := bs.flatMap fun b => (List.range 8).map (bitAt b.toNat)
/-- The bytes that `n` bits fill. -/
def bitsToBytes (n : Nat) : Nat := (n + 7) / 8
/-- A stream of bits padded with zero bits to a byte boundary (R288). -/
def streamBytes (bs : List Bool) : List Byte := packBits (bitsToBytes bs.length) bs
/-- A code or a raw field, most significant bit first (R289). -/
def msbFirst (len v : Nat) : List Bool := (List.range len).map fun i => bitAt v (len - 1 - i)
/-- The number that bits spell, most significant bit first. -/
def ofMsb (bs : List Bool) : Nat := bs.foldl (fun n b => 2 * n + b2n b) 0

/-- Bit plane `b` of the elements (R287). -/
def planeOf (xs : List Nat) (b : Nat) : List Bool := xs.map fun x => bitAt x b
/-- Every bit of a plane has one value. -/
def uniform (p : List Bool) : Bool := p.all id || p.all not
/-- The first exponent plane and their number (R287). -/
def expLo (l16 : Bool) : Nat := if l16 then 7 else 3
/-- How many exponent planes there are (R287). -/
def expLen (l16 : Bool) : Nat := if l16 then 8 else 4
/-- The exponent of an element (R290). -/
def expOf (l16 : Bool) (x : Nat) : Nat := bits x (expLo l16) (expLen l16)
/-- The mantissa and sign planes (R287). -/
def verbatim (l16 : Bool) : List Nat :=
  (List.range (laneBits l16)).filter fun b => b < expLo l16 ∨ expLo l16 + expLen l16 ≤ b

/-! ### Codes (R290 to R294) -/

/-- Code lengths: that of the escape code, then those of the exponent values in ascending order. -/
abbrev Lengths := List Nat

/-- The length of an exponent's code. -/
def lenOf (ls : Lengths) (e : Nat) : Nat := natAt ls (e + 1)

/-- The codes of R291: place 0 is ESC, place e + 1 exponent e; each entry has a place, a length and a code. -/
def canonicalCodes (ls : Lengths) : List (Nat × Nat × Nat) :=
  ((List.range 15).foldl (fun (st : List (Nat × Nat × Nat) × Nat) k =>
    let len := k + 1
    let r := ls.zipIdx.foldl (fun (x : List (Nat × Nat × Nat) × Nat) e =>
      if e.1 = len then (x.1 ++ [(e.2, len, x.2)], x.2 + 1) else x) st
    (r.1, 2 * r.2)) ([], 0)).1

/-- A built-in table (R292). -/
def staticLens (l16 : Bool) (t : Nat) : Lengths :=
  let c := if l16 then (if t = 7 then 120 else 127 - 3 * t) else (if t = 7 then 5 else 7 - t)
  let rule := fun e =>
    let d := max e c - min e c
    if t = 7 then (if e = 0 then 1 else if d ≤ 10 then 3 + d else 0) else (if d ≤ 12 then 2 + d else 0)
  (if t = 7 then 15 else 14) :: (List.range (2 ^ expLen l16)).map rule

/-- The lengths that a dynamic table of 64 bytes gives (R293). -/
def dynamicLens (l16 : Bool) (tb : List Byte) : Lengths :=
  let base := ((tb.getD 0 0)).toNat
  let nib := fun j => bits ((tb.getD (1 + j / 2) 0)).toNat (4 * (j % 2)) 4
  nib 0 :: (List.range (2 ^ expLen l16)).map fun e => if base ≤ e ∧ e < base + 125 then nib (e - base + 1) else 0

/-- The sum of 2^(15 − length) over the nonzero nibbles of a dynamic table. -/
def kraft (nibs : List Nat) : Nat := (nibs.filter (· ≠ 0)).foldl (fun n l => n + 2 ^ (15 - l)) 0
/-- The 126 lengths of a dynamic table. -/
def tableNibbles (tb : List Byte) : List Nat :=
  (List.range 126).map fun j => bits ((tb.getD (1 + j / 2) 0)).toNat (4 * (j % 2)) 4
/-- A table is valid (R294). -/
def tableValid (nibs : List Nat) : Bool := nibs.any (· ≠ 0) && decide (kraft nibs ≤ 2 ^ 15)

/-- The code of an exponent, or ESC and the raw value; none where the table can write neither (R290). -/
def expBits (l16 : Bool) (cs : List (Nat × Nat × Nat)) (e : Nat) : Option (List Bool) :=
  match cs.find? fun c => c.1 = e + 1 with
  | some c => some (msbFirst c.2.1 c.2.2)
  | none =>
    match cs.find? fun c => c.1 = 0 with
    | some c => some (msbFirst c.2.1 c.2.2 ++ msbFirst (expLen l16) e)
    | none => none

/-- The exponent stream of elements (R290). -/
def expStream (l16 : Bool) (ls : Lengths) (xs : List Nat) : Option (List Bool) :=
  let cs := canonicalCodes ls
  (xs.mapM fun x => expBits l16 cs (expOf l16 x)).map List.flatten

/-- One code off a stream: bits are taken until a code of that length matches (R291); at most 15. -/
def takeCode (cs : List (Nat × Nat × Nat)) : Nat → Nat → Nat → List Bool → Option (Nat × List Bool)
  | 0, _, _, _ => none
  | _ + 1, _, _, [] => none
  | fuel + 1, len, v, b :: r =>
    let v := 2 * v + b2n b
    match cs.find? fun c => c.2.1 = len + 1 ∧ c.2.2 = v with
    | some c => some (c.1, r)
    | none => takeCode cs fuel (len + 1) v r

/-- The exponents of `n` elements off a stream (R290), with what is left of it. -/
def takeExps (l16 : Bool) (cs : List (Nat × Nat × Nat)) : Nat → List Bool → Option (List Nat × List Bool)
  | 0, s => some ([], s)
  | n + 1, s =>
    match takeCode cs 15 0 0 s with
    | none => none
    | some (k, r) =>
      let raw := expLen l16
      let e := if k = 0 then ofMsb (r.take raw) else k - 1
      let r' := if k = 0 then r.drop raw else r
      if k = 0 ∧ r.length < raw then none
      else (takeExps l16 cs n r').map fun x => (e :: x.1, x.2)

/-! ### The predictive coder (R297 to R299) -/

/-- The prediction of element `i` (R297), `w` the row pitch of LEFT_UP, from the elements before it. -/
def predict (left : Bool) (w : Nat) (prev : List Nat) (i : Nat) : Nat :=
  if i = 0 then 0
  else if !left || i / w = 0 then natAt prev (i - 1)
  else if i % w = 0 then natAt prev (i - w)
  else
    let a := natAt prev (i - 1)
    let b := natAt prev (i - w)
    let g := natAt prev (i - w - 1)
    if max a b ≤ g then min a b else if g ≤ min a b then max a b else a + b - g

/-- The code value of a residue (R298). -/
def residueCode (w x p : Nat) : Nat :=
  let d := signedOf w ((x + 2 ^ w - p % 2 ^ w) % 2 ^ w)
  if 0 ≤ d then (2 * d).toNat else (-2 * d - 1).toNat
/-- The element that a residue's code value gives (R298). -/
def ofResidue (w u p : Nat) : Nat :=
  let d : Int := if u % 2 = 0 then (u / 2 : Nat) else -((u + 1) / 2 : Nat)
  unsignedOf w (d + p)

/-- The parameter k of R299. -/
def riceK (w a n : Nat) : Nat := ((List.range (w - 1)).find? fun k => a ≤ n * 2 ^ k).getD (w - 1)
/-- The state of R299 after a code value. -/
def riceNext (a n u : Nat) : Nat × Nat := if n + 1 = 64 then ((a + u) / 2, 32) else (a + u, n + 1)
/-- One code value (R299). -/
def riceBits (w k u : Nat) : List Bool :=
  if u / 2 ^ k < 16 then List.replicate (u / 2 ^ k) true ++ [false] ++ msbFirst k (u % 2 ^ k)
  else List.replicate 16 true ++ msbFirst w u
/-- The residue stream of code values (R299). -/
def riceStream (w : Nat) : Nat → Nat → List Nat → List Bool
  | _, _, [] => []
  | a, n, u :: us => riceBits w (riceK w a n) u ++ riceStream w (riceNext a n u).1 (riceNext a n u).2 us

/-- One code value off a stream (R299); a pattern that codes no value of `w` bits has no code (R303). -/
def takeRice (w k : Nat) (s : List Bool) : Option (Nat × List Bool) :=
  let q := (s.takeWhile id).length
  if 16 ≤ q then
    let r := s.drop 16
    if r.length < w ∨ ofMsb (r.take w) / 2 ^ k < 16 then none else some (ofMsb (r.take w), r.drop w)
  else if s.length ≤ q then none
  else
    let r := s.drop (q + 1)
    if r.length < k ∨ 2 ^ w ≤ q * 2 ^ k + ofMsb (r.take k) then none else some (q * 2 ^ k + ofMsb (r.take k), r.drop k)

/-- The elements of a residue stream (R297 to R299): `prev` those already decoded. -/
def takeResidues (w pitch : Nat) (left : Bool) : Nat → Nat → Nat → List Nat → List Bool →
    Option (List Nat × List Bool)
  | 0, _, _, prev, s => some (prev, s)
  | m + 1, a, n, prev, s =>
    match takeRice w (riceK w a n) s with
    | none => none
    | some (u, r) =>
      let x := ofResidue w u (predict left pitch prev prev.length)
      takeResidues w pitch left m (riceNext a n u).1 (riceNext a n u).2 (prev ++ [x]) r

/-- The code values of elements (R297, R298). -/
def residues (w pitch : Nat) (left : Bool) (xs : List Nat) : List Nat :=
  xs.zipIdx.map fun x => residueCode w x.1 (predict left pitch xs x.2)

/-! ### Blocks (R284, R285) -/

/-- The header fields of a block beside its sizes and CRC. -/
structure BlkHdr where
  kind : Nat
  lane16 : Bool
  sel : Nat := 0
  target : Nat := 0
  planeMask : Nat := 0
  planeFill : Nat := 0
  rowPitch : Nat := 0
  streamBits : Nat := 0
  constant : Nat := 0
  deriving DecidableEq, Repr

/-- A block: header, content and zero padding to a multiple of 64 (R285, R286). -/
def mkBlock (x : BlkHdr) (content src : List Byte) : List Byte :=
  let size := alignUp (32 + content.length) 64
  bytesLE 1 (1 + x.kind * 16 + b2n x.lane16 * 128) ++ bytesLE 1 (x.sel + x.target * 8) ++ bytesLE 2 size
    ++ bytesLE 2 src.length ++ bytesLE 2 x.planeMask ++ bytesLE 2 x.planeFill ++ bytesLE 2 x.rowPitch
    ++ bytesLE 4 x.streamBits ++ bytesLE 8 x.constant ++ bytesLE 4 (crc32c src) ++ bytesLE 4 0
    ++ content ++ List.replicate (size - 32 - content.length) 0

/-- Byte `i` of a constant (R301). -/
def constByte (v i : Nat) : Byte := BitVec.ofNat 8 (v / 2 ^ (8 * (i % 8)))
/-- The CONSTANT encoding, where it applies (R301). -/
def constBlock (l16 : Bool) (target : Nat) (src : List Byte) : Option (List Byte) :=
  let v := ofBytesLE (src.take 8)
  if src.length % 8 = 0 ∧ src ≠ [] ∧ src = (List.range src.length).map (constByte v) then
    some (mkBlock { kind := 4, lane16 := l16, target, constant := v } [] src)
  else none

/-- The verbatim planes of elements, their mask and their fills (R288). -/
def planesOf (l16 : Bool) (xs : List Nat) : Nat × Nat × List Byte :=
  (verbatim l16).foldl (fun r b =>
    let p := planeOf xs b
    if uniform p then (r.1, r.2.1 + (if p.all id then 2 ^ b else 0), r.2.2)
    else (r.1 + 2 ^ b, r.2.1, r.2.2 ++ streamBytes p)) (0, 0, [])

/-- A fixed-ratio encoding with given lengths (R288). -/
def fixedBlock (l16 : Bool) (target kind sel : Nat) (tb : List Byte) (ls : Lengths) (src : List Byte) :
    Option (List Byte) :=
  let xs := elemsOf l16 src
  (expStream l16 ls xs).map fun s =>
    let p := planesOf l16 xs
    mkBlock { kind, lane16 := l16, sel, target, planeMask := p.1, planeFill := p.2.1, streamBits := s.length }
      (tb ++ streamBytes s ++ p.2.2) src

/-- The dynamic table the coder builds for a block (R295): its window starts at the lowest exponent; its lengths are
the engine's choice, which the spec leaves open, kept where they make a valid table that codes the block, and
otherwise one code, ESC. -/
def coderTable (l16 : Bool) (src : List Byte) : List Byte :=
  let es := (elemsOf l16 src).map (expOf l16)
  let base := es.foldl min 255
  let nibs := ((Config.swageLengths src).map (· % 16) ++ List.replicate 126 0).take 126
  let codes := fun e => (base ≤ e ∧ e < base + 125 ∧ natAt nibs (e - base + 1) ≠ 0) ∨ natAt nibs 0 ≠ 0
  let nibs := if tableValid nibs && es.all codes then nibs else 1 :: List.replicate 125 0
  BitVec.ofNat 8 base :: (List.range 63).map fun j => BitVec.ofNat 8 (natAt nibs (2 * j) + 16 * natAt nibs (2 * j + 1))

/-- The smaller of two encodings; the first on a tie. -/
def smaller (a b : Option (List Byte)) : Option (List Byte) :=
  match a, b with
  | some x, some y => if y.length < x.length then some y else some x
  | some x, none => some x
  | none, y => y

/-- The static tables that a table policy allows (R295, R307). -/
def policyStatics (policy : Nat) : List Nat :=
  if policy = 2 then [] else if policy < 2 then List.range 8 else [policy - 8]

/-- The smallest fixed-ratio encoding a policy allows (R295): CONSTANT, static tables in order, the dynamic table. -/
def fixedEncode (l16 : Bool) (target policy : Nat) (src : List Byte) : Option (List Byte) :=
  let c := (policyStatics policy).foldl
    (fun b t => smaller b (fixedBlock l16 target 1 t [] (staticLens l16 t) src)) (constBlock l16 target src)
  if policy = 0 ∨ policy = 2 then
    let tb := coderTable l16 src
    smaller c (fixedBlock l16 target 2 0 tb (dynamicLens l16 tb) src)
  else c

/-- The slot of a target: 4, 3, 2 or 1 KiB. -/
def slotBytes (target : Nat) : Nat := (4 - target) * 1024

/-- The fixed-ratio coder: the encoding where it fits its slot, none for SWG_NOFIT (R296). -/
def fixedCode (l16 : Bool) (target policy : Nat) (src : List Byte) : Option (List Byte) :=
  (fixedEncode l16 target policy src).filter fun b => b.length ≤ slotBytes target

/-- The PREDICTIVE encoding (R297 to R299); LEFT_UP needs a row pitch below the elements of the block (R285). -/
def predBlock (l16 left : Bool) (pitch : Nat) (src : List Byte) : Option (List Byte) :=
  let xs := elemsOf l16 src
  if left && (pitch == 0 || decide (xs.length ≤ pitch)) then none
  else
    let w := laneBits l16
    let s := riceStream w 8 1 (residues w pitch left xs)
    some (mkBlock { kind := 3, lane16 := l16, sel := b2n left, rowPitch := if left then pitch else 0,
                    streamBits := s.length } (streamBytes s) src)

/-- The STORED encoding (R302). -/
def storedBlock (l16 : Bool) (src : List Byte) : List Byte := mkBlock { kind := 0, lane16 := l16 } src src

/-- A block of a predictive job: the smallest of CONSTANT, PREDICTIVE and STORED (R300), in that order on a tie. -/
def predCode (l16 left : Bool) (pitch : Nat) (src : List Byte) : List Byte :=
  let a := smaller (constBlock l16 0 src) (predBlock l16 left pitch src)
  (smaller a (some (storedBlock l16 src))).getD (storedBlock l16 src)

/-! ### The decompressor (R303, R304) -/

/-- The failures of R303. -/
inductive Detail where
  | badVersion | badKind | badField | size | ratio | table | stream | crc | limit
  deriving DecidableEq, Repr

/-- The numbers of R303. -/
def Detail.code : Detail → Nat
  | .badVersion => 1 | .badKind => 2 | .badField => 3 | .size => 4 | .ratio => 5 | .table => 6 | .stream => 7
  | .crc => 8 | .limit => 9

/-- The fields of a block's header, read off the source at the block's start (R285). -/
def readHdr (src : List Byte) : BlkHdr :=
  let f := fun a n => ofBytesLE ((src.drop a).take n)
  { kind := bits (f 0 1) 4 3, lane16 := bitAt (f 0 1) 7, sel := bits (f 1 1) 0 3, target := bits (f 1 1) 3 2
    planeMask := f 6 2, planeFill := f 8 2, rowPitch := f 10 2, streamBits := f 12 4, constant := f 16 8 }

/-- A field holds a value its kind does not allow (R285, R303). -/
def badField (x : BlkHdr) (out : Nat) : Bool :=
  let left := x.kind == 3 && x.sel == 1
  (x.kind == 3 && decide (1 < x.sel)) || (x.kind != 1 && x.kind != 3 && x.sel != 0) ||
  ((x.kind == 0 || x.kind == 3) && x.target != 0) || ((x.kind == 1 || x.kind == 2) && x.target == 0) ||
  (left && (x.rowPitch == 0 || decide (out / laneBytes x.lane16 ≤ x.rowPitch))) || (!left && x.rowPitch != 0)

/-- The bytes that the content of a block needs with its header (R285, R288). -/
def contentNeeds (x : BlkHdr) (out : Nat) : Nat :=
  let n := out / laneBytes x.lane16
  match x.kind with
  | 0 => 32 + out
  | 3 => 32 + bitsToBytes x.streamBits
  | 4 => 32
  | k => 32 + (if k = 2 then 64 else 0) + bitsToBytes x.streamBits
      + ((verbatim x.lane16).filter (bitAt x.planeMask)).length * bitsToBytes n

/-- The elements that an exponent list and the planes of a fixed-ratio block give (R287, R288). -/
def joinPlanes (x : BlkHdr) (exps : List Nat) (planes : List Byte) : List Nat :=
  let n := exps.length
  let stored := (verbatim x.lane16).filter (bitAt x.planeMask)
  let rows := stored.zipIdx.map fun b => (b.1, unpackBits ((planes.drop (b.2 * bitsToBytes n)).take (bitsToBytes n)))
  exps.zipIdx.map fun e =>
    e.1 * 2 ^ expLo x.lane16 + (verbatim x.lane16).foldl (fun v b =>
      let bit := match rows.find? fun r => r.1 = b with
        | some r => r.2.getD e.2 false
        | none => bitAt x.planeFill b
      v + b2n bit * 2 ^ b) 0

/-- The decoded bytes of a fixed-ratio block (R288). -/
def decodeFixed (x : BlkHdr) (out : Nat) (content : List Byte) : Except Detail (List Byte) :=
  let n := out / laneBytes x.lane16
  let dyn := x.kind == 2
  let tb := content.take 64
  if dyn && !tableValid (tableNibbles tb) then .error .table
  else
    let body := if dyn then content.drop 64 else content
    let ls := if dyn then dynamicLens x.lane16 tb else staticLens x.lane16 x.sel
    match takeExps x.lane16 (canonicalCodes ls) n ((unpackBits body).take x.streamBits) with
    | some (es, []) => .ok (elemBytes x.lane16 (joinPlanes x es (body.drop (bitsToBytes x.streamBits))))
    | _ => .error .stream

/-- The decoded bytes of a predictive block (R297 to R299). -/
def decodePred (x : BlkHdr) (out : Nat) (content : List Byte) : Except Detail (List Byte) :=
  match takeResidues (laneBits x.lane16) x.rowPitch (x.sel == 1) (out / laneBytes x.lane16) 8 1 []
      ((unpackBits content).take x.streamBits) with
  | some (xs, []) => .ok (elemBytes x.lane16 xs)
  | _ => .error .stream

/-- A decoded block: its bytes, and how far on the next block begins (R286). -/
structure Decoded where
  data : List Byte
  advance : Nat
  deriving DecidableEq, Repr

/-- One block off the rest of a source, with the checks of R303 in order but for LIMIT. -/
def decodeBlock (src : List Byte) : Except Detail Decoded :=
  let x := readHdr src
  let stored := ofBytesLE ((src.drop 2).take 2)
  let out := ofBytesLE ((src.drop 4).take 2)
  if bits (ofBytesLE (src.take 1)) 0 4 ≠ 1 then .error .badVersion
  else if 4 < x.kind then .error .badKind
  else if badField x out then .error .badField
  else if out = 0 ∨ 4096 < out ∨ out % laneBytes x.lane16 ≠ 0 ∨ stored < 64 ∨ 4160 < stored ∨ stored % 64 ≠ 0
      ∨ src.length < stored ∨ stored < contentNeeds x out then .error .size
  else if 64 * stored < out then .error .ratio
  else
    let content := (src.take stored).drop 32
    let r : Except Detail (List Byte) := match x.kind with
      | 0 => .ok (content.take out)
      | 3 => decodePred x out content
      | 4 => .ok ((List.range out).map (constByte x.constant))
      | _ => decodeFixed x out content
    match r with
    | .error e => .error e
    | .ok bs =>
      if crc32c bs ≠ ofBytesLE ((src.drop 24).take 4) then .error .crc
      else .ok { data := bs, advance := if x.target = 0 then stored else slotBytes x.target }

/-- Decode a whole source into at most `limit` bytes (R303 to R306); `fuel` bounds the number of blocks. -/
def decodeAll : Nat → Nat → List Byte → Except Detail (List Byte)
  | 0, _, _ => .ok []
  | fuel + 1, limit, src =>
    if src.isEmpty then .ok []
    else
      match decodeBlock src with
      | .error e => .error e
      | .ok d =>
        if limit < d.data.length then .error .limit
        else (decodeAll fuel (limit - d.data.length) (src.drop d.advance)).map (d.data ++ ·)

/-- The ending status of a failed decode (R304): NO_SPACE for LIMIT, RESERVED otherwise. -/
def Detail.noSpace (d : Detail) : Bool := d == .limit

end Sys2Proof.Machine
end

