-- ==== Sys2Proof/Machine/Overhead.lean ====
section
/-! DEFINITION. Hub overhead intervals (R403, R404). -/

namespace Sys2Proof.Machine

open Sys2Proof

/-- The overhead intervals a die is in. -/
def Hub.ovhOf (h : Hub) (d : Nat) : List OvhX := aGet (fun _ => []) h.ovh d
/-- The reason in force for a die: the lowest code (R404); 0 while it is in none. -/
def Hub.ovhReason (h : Hub) (d : Nat) : Nat :=
  ((h.ovhOf d).map OvhX.reason).foldl (fun a b => if a = 0 then b else min a b) 0

/-- Replace a die's intervals; LDG_OVH and LDG_OVH_REASON_w follow. -/
def Hub.setOvh (d : Nat) (l : List OvhX) (h : Hub) : Hub :=
  let h := { h with ovh := aPut (fun _ => []) d l h.ovh }
  let w := (h.reg .LDG_OVH_REASON (d / 8)).toNat
  (h.put F.LDG_OVH_dies 0 (setBits (h.get F.LDG_OVH_dies) d 1 (b2n !l.isEmpty))).setReg .LDG_OVH_REASON (d / 8)
    (BitVec.ofNat 64 (setBits w (8 * (d % 8)) 8 (h.ovhReason d)))

/-- An interval opens on each die of a list; an interval of the same reason and owner is not opened twice. -/
def Hub.openOvh (ds : List Nat) (x : OvhX) (h : Hub) : Hub :=
  ds.foldl (fun h d =>
    if (h.ovhOf d).any fun y => y.reason = x.reason ∧ y.owner = x.owner then h else h.setOvh d (h.ovhOf d ++ [x])) h
/-- The intervals a test selects close on each die of a list. -/
def Hub.closeOvh (ds : List Nat) (p : OvhX → Bool) (h : Hub) : Hub :=
  ds.foldl (fun h d =>
    if (h.ovhOf d).any p then h.setOvh d ((h.ovhOf d).filter fun x => !p x) else h) h

/-- The ledger writes a checkpoint of the chain, the last signed sequence and its hash to the next sector of the
checkpoint area (R422, R549). -/
def Hub.checkpoint (h : Hub) : Hub :=
  let l := h.ledger
  let chain := h.get F.LDG_CHAIN_chain_id
  let h := { h with ledger := { l with
    ckpt := { chain, seq := l.lastSigned, hash := l.lastHash }, ckptTurn := (l.ckptTurn + 1) % 4 } }
  h.setBytes (0x2000020000 + l.ckptTurn * 0x10000) (Config.checkpointBytes chain l.lastSigned l.lastHash)

/-- The reasons of R403 that the hub opens itself. -/
def ovhWarmReset : Nat := 1
/-- RETIRED. -/
def ovhRetired : Nat := 2
/-- RECOVERY. -/
def ovhRecovery : Nat := 3
/-- QUENCH. -/
def ovhQuench : Nat := 4

end Sys2Proof.Machine
end

