-- ==== Sys2Proof/Machine/Survive.lean ====
section
/-! DEFINITION. What a reset event leaves of the registers (R17 to R19, R137, R540). -/

namespace Sys2Proof.Machine

open Sys2Proof

/-- The reset letters of R17, as bits of a Survives mask. -/
inductive Letter where
  | w | p | h | f | s | e
  deriving DecidableEq, Repr

/-- The bit of a letter. -/
def Letter.bit : Letter → Nat
  | .w => 0 | .p => 1 | .h => 2 | .f => 3 | .s => 4 | .e => 5

/-- The core that copy `i` of a Striker register belongs to. -/
def coreCopy (r : Reg) (i : Nat) : Option Nat :=
  match r.desc.block with
  | .spr | .dbg =>
    let k := i / r.desc.perBlock
    some (k / 16 * 2048 + 0x7F0 + k % 16)
  | _ => none

/-- A field of copy `i` keeps its value through an event: its Survives entry has the letter, which for a Hearth core's
SPRs H and F never do, except STK_ID's (R137). -/
def fieldSurvives (r : Reg) (i : Nat) (l : Letter) (f : FieldDesc) : Bool :=
  bitAt f.surv l.bit &&
    !((l == .h || l == .f) && r.desc.block == .spr && r != .STK_ID && ((coreCopy r i).map isHearthCore).getD false)

/-- What a register holds after an event: surviving fields keep their value, the others return to reset (R18). -/
def surviveWord (r : Reg) (i : Nat) (l : Letter) (v : Word) : Word :=
  BitVec.ofNat 64 (r.desc.fields.foldl (fun n f =>
    n + (if fieldSurvives r i l f then bits v.toNat f.lo f.len else bits (r.init i).toNat f.lo f.len) * 2 ^ f.lo) 0)

/-- The register that a key of the register stores names. -/
def keyReg (k : Nat) : Option (Reg × Nat) := (Reg.all[k % 256]?).map fun r => (r, k / 256)

/-- An event with a letter reaches every register copy that `p` selects (R18). -/
def Hub.resetRegs (l : Letter) (p : Reg → Nat → Bool) (h : Hub) : Hub :=
  h.regs.foldl (fun h e =>
    match keyReg e.1 with
    | some (r, i) => if p r i then h.setReg r i (surviveWord r i l e.2) else h
    | none => h) h

/-- Copy `i` of register `r` is one of core `c`'s. -/
def isCoreReg (c : Nat) (r : Reg) (i : Nat) : Bool := coreCopy r i == some c

/-- The spoke that copy `i` of a spoke register stands on. -/
def spokeCopy (r : Reg) (i : Nat) : Option Nat :=
  match r.desc.block with
  | .spoke | .anvil => some (i / r.desc.perBlock)
  | _ => none

/-- Copy `i` of register `r` stands in the block of a spoke of the list, its cores' registers included. -/
def onSpokes (ns : List Nat) (r : Reg) (i : Nat) : Bool :=
  match spokeCopy r i with
  | some n => ns.contains n
  | none =>
    match coreCopy r i with
    | some c => ns.contains (dieOf c) && !isHearthCore c
    | none => false

/-- Copy `i` of register `r` stands in the Hearth block or is a Hearth core's. -/
def inHearth (r : Reg) (i : Nat) : Bool :=
  r.desc.block == .hearth || ((coreCopy r i).map isHearthCore).getD false

end Sys2Proof.Machine
end

