-- ==== Sys2Proof/Machine/Links.lean ====
section
/-! DEFINITION. The link bankers (R201, R222 to R230). -/

namespace Sys2Proof.Machine

open Sys2Proof

/-- Count a link as banked, or not. -/
def Hub.setBanked (l : Nat) (b : Bool) (h : Hub) : Hub :=
  h.put F.BNK_STATUS_banked 0 (setBits (h.get F.BNK_STATUS_banked) l 1 (b2n b))

/-- A link changes state: the register, and a class 0xC6 record naming the link engine. A follower whose parent link it is
loses its parent when the link no longer carries messages (R56). -/
def Hub.setLink (t l st : Nat) (h : Hub) : Hub :=
  let up := h.linkState l = 2 ∨ h.linkState l = 3
  let h := (h.lput F.BNK_LINK_state l st).emit t (unitOfLink l) 0xC6 none (st * 2 ^ 24)
  if up ∧ st ≠ 2 ∧ st ≠ 3 then h.linkLost t l else h

/-- The hold limit in force, in ticks (R225). -/
def Hub.holdLimit (h : Hub) : Nat := secs (h.get F.BNK_CFG_hold_limit_s)
/-- When the earliest banked link reaches its hold limit (R230). -/
def Hub.holdDeadline (h : Hub) : Nat :=
  (((List.range 48).filter h.isBanked).map fun l => (h.link l).bankedAt + h.holdLimit).foldl
    (fun a b => if a = 0 then b else min a b) 0

/-- Some link of the package is still on its way to being banked (R224). -/
def Hub.bankingUnderWay (h : Hub) : Bool := h.links.any fun e => e.2.bankDue.isSome

/-- The set of banked links changed (R229): the first PEER_HOLD waits until every link of the event has been banked;
each later change of the set sends a further one while any link stays banked. -/
def Hub.peerHold (t : Nat) (h : Hub) : Hub :=
  let set := h.get F.BNK_STATUS_banked
  if set = 0 then { h with notices := { h.notices with holding := false, announced := 0, returned := 0 } }
  else if if h.notices.holding then h.notices.announced == set else h.bankingUnderWay then h
  else
    let h := { h with notices := { h.notices with
      holding := true, announced := set, returned := if h.notices.holding then h.notices.returned else 0 } }
    if h.flag F.HRT_QCH_CFG_peer_notify then h.fmNotice t 1 set h.holdDeadline else h

/-- A LOW_POWER link counts as banked from now on (R222, R225); it carries no messages (R56). -/
def Hub.countBanked (t l cause : Nat) (h : Hub) : Hub :=
  (h.lput F.BNK_LINK_cause l cause).setBanked l true |>.modLink l (fun x => { x with
    bankedAt := t, bankDue := none, returning := false }) |>.linkLost t l

/-- A banker starts to bank a link for a cause: 1 QUENCH, 2 ENGINE_HALT, 3 both (R201, R222). -/
def Hub.startBanking (t l cause : Nat) (h : Hub) : Hub :=
  match h.linkState l with
  | 2 => (h.lput F.BNK_LINK_cause l (h.lget F.BNK_LINK_cause l ||| cause)).modLink l fun x =>
      { x with bankDue := some (x.bankDue.getD (t + us 2)) }
  | 3 =>
    if h.isBanked l ∧ !(h.link l).returning then h.lput F.BNK_LINK_cause l (h.lget F.BNK_LINK_cause l ||| cause)
    else h.countBanked t l cause
  | 4 => (h.lput F.BNK_LINK_cause l (h.lget F.BNK_LINK_cause l ||| cause)).modLink l fun x =>
      { x with returning := false }
  | _ => h

/-- One cause of a link's banking ends (R201, R222): the link returns when none is left. -/
def Hub.endBanking (l cause : Nat) (h : Hub) : Hub :=
  let left := h.lget F.BNK_LINK_cause l &&& (3 - cause)
  if h.isBanked l then
    if left = 0 then h.modLink l fun x => { x with returning := true } else h.lput F.BNK_LINK_cause l left
  else (h.lput F.BNK_LINK_cause l left).modLink l fun x =>
    { x with bankDue := if left = 0 then none else x.bankDue }

/-- The link's controller has reached the banked state (R223): it advertises zero credits, sends a hold control flit, and
keep-alives from now on. -/
def Hub.linkBanked (t l : Nat) (h : Hub) : Hub :=
  (h.setLink t l 4).setBanked l true
    |>.modLink l (fun _ => { bankedAt := t, keepDue := t + us (h.get F.BNK_CFG_keepalive_us) })
    |>.say (.flit l .noCredits)
    |>.say (.flit l .hold)
    |>.peerHold t

/-- LINK_BANKED (R223, R224). -/
def execLinkBanked (link : Nat) (s : State) : Out :=
  s.liftIf (decide (link < 48)) fun t h => if (h.link link).bankDue.isSome then h.linkBanked t link else h

/-- BANK_TIMEOUT (R224): a controller that has not banked within 2 µs is set FAILED. -/
def execBankTimeout (link : Nat) (s : State) : Out :=
  if link < 48 then
    s.liftAt (s.hub.link link).bankDue fun t h =>
      ((h.setLink t link 5).lput F.BNK_LINK_cause link 0).modLink link (fun x => { x with bankDue := none })
        |>.peerHold t
  else .refused .illFormed

/-- PEER_WAKE_REQUEST (R222): a LOW_POWER link counted as banked answers with a hold control flit. -/
def execPeerWakeRequest (link : Nat) (s : State) : Out :=
  s.liftIf (decide (link < 48)) fun _ h =>
    if h.linkState link = 3 ∧ h.isBanked link then h.say (.flit link .hold) else h

/-- When a banked link's next keep-alive is due (R223). -/
def Hub.keepDue (h : Hub) (l : Nat) : Option Nat := if h.linkState l = 4 then some (h.link l).keepDue else none

/-- KEEPALIVE_TIMER (R223). -/
def execKeepaliveTimer (link : Nat) (s : State) : Out :=
  if link < 48 then
    s.liftAt (s.hub.keepDue link) fun _ h =>
      (h.say (.flit link .keepAlive)).modLink link fun x =>
        { x with keepDue := x.keepDue + us (h.get F.BNK_CFG_keepalive_us) }
  else .refused .illFormed

/-- A flit arrives on a banked link (R223): buffered in arrival order, or held off once the buffer is full. -/
def Hub.bankedFlit (l : Nat) (flit : Word) (h : Hub) : Hub :=
  if h.linkState l ≠ 4 then h
  else if (h.link l).rx.length < Config.linkRxBuffer l then
    (h.sbump F.BNK_LINK_rx_held (l / 6) (l % 6) 1).modLink l fun x => { x with rx := x.rx ++ [flit] }
  else h.say (.flit l .hold)

/-- BANKED_FLIT_RX (R223). -/
def execBankedFlitRx (link : Nat) (flit : Word) (s : State) : Out :=
  s.liftIf (decide (link < 48)) fun _ h => h.bankedFlit link flit

/-- A banked link is released DOWN (R226): its buffered flits are discarded and counted. -/
def Hub.releaseDown (t l : Nat) (h : Hub) : Hub :=
  let n := (h.link l).rx.length
  (h.sbump F.BNK_LINK_rx_dropped (l / 6) (l % 6) n).setLink t l 0
    |>.lput F.BNK_LINK_cause l 0
    |>.lput F.BNK_LINK_rx_held l 0
    |>.modLink l (fun _ => {})
    |>.setBanked l false

/-- A link goes DOWN, released from its hold if it was banked (R226). -/
def Hub.linkDown (t l : Nat) (h : Hub) : Hub :=
  if h.isBanked l then h.releaseDown t l
  else if h.linkState l = 0 then h.modLink l fun _ => {}
  else ((h.setLink t l 0).lput F.BNK_LINK_cause l 0).modLink l fun _ => {}

/-- The hold limit of a banked link passes (R225). -/
def Hub.holdExpiry (t l : Nat) (h : Hub) : Hub :=
  (h.releaseDown t l).bump F.BNK_STATUS_expiries 0 1
    |>.alert 5
    |>.hubEvent t 3 (l * 2 ^ 8)
    |>.notify t { type := 3, body := bytesLE 8 l ++ bytesLE 8 t, agent := none }
    |>.peerHold t

/-- When a banked link reaches its hold limit (R225). -/
def Hub.holdDue (h : Hub) (l : Nat) : Option Nat :=
  if h.isBanked l then some ((h.link l).bankedAt + h.holdLimit) else none

/-- LINK_HOLD_EXPIRY (R225). -/
def execLinkHoldExpiry (link : Nat) (s : State) : Out :=
  if link < 48 then s.liftAt (s.hub.holdDue link) fun t h => h.holdExpiry t link else .refused .illFormed

/-- A banked link delivers its buffered flits to its engine in arrival order, returns, and then advertises credits (R228);
the last one ends the hold with PEER_RELEASE (R229). -/
def Hub.linkReturned (t l : Nat) (h : Hub) : Hub :=
  let rx := (h.link l).rx
  let h := if rx.isEmpty then h else h.say (.delivered l rx)
  let h := if h.linkState l = 4 then (h.setLink t l 2).say (.flit l .credits) else h
  let h := h.lput F.BNK_LINK_cause l 0 |>.lput F.BNK_LINK_rx_held l 0 |>.setBanked l false
    |>.modLink l fun _ => {}
  let h := { h with notices := { h.notices with returned := setBits h.notices.returned l 1 1 } }
  if h.get F.BNK_STATUS_banked ≠ 0 then h.peerHold t
  else
    let mask := h.notices.returned
    let h := { h with notices := { h.notices with holding := false, announced := 0, returned := 0 } }
    if h.flag F.HRT_QCH_CFG_peer_notify then h.fmNotice t 2 mask 0 else h

/-- LINK_RETURNED (R228). -/
def execLinkReturned (link : Nat) (s : State) : Out :=
  s.liftIf (decide (link < 48)) fun t h => if (h.link link).returning then h.linkReturned t link else h

/-- What holds a link banked: the quench of its base die, its halted engine, or both (R201, R222). -/
def Hub.bankCause (h : Hub) (l : Nat) : Nat :=
  b2n (bitAt (h.get F.HRT_QCH_STATUS_dies_quenched) (l / 6)) + 2 * b2n (h.runState (unitOfLink l)).isHalted

/-- Training of a link succeeds: on a quenched base die, or while its engine is held, its banker banks it at that instant
(R201, R222). -/
def Hub.linkTrained (t l : Nat) (h : Hub) : Hub :=
  if h.bankCause l = 0 then h.setLink t l 2 else (h.lput F.BNK_LINK_cause l (h.bankCause l)).linkBanked t l

/-- A link changes state on its own under the link protocol (R222). One that enters low power before it is banked counts
as banked from then on (R224). -/
def Hub.linkChange (t l st : Nat) (h : Hub) : Hub :=
  if h.linkState l = st then h
  else if h.linkState l = 1 ∧ st = 2 then h.linkTrained t l
  else if h.isBanked l then
    if st = 0 then (h.releaseDown t l).peerHold t
    else if st = 5 then ((h.releaseDown t l).setLink t l 5).peerHold t else h
  else if st = 3 ∧ (h.link l).bankDue.isSome then
    ((h.setLink t l st).countBanked t l (h.lget F.BNK_LINK_cause l)).peerHold t
  else ((h.setLink t l st).modLink l fun x => { x with bankDue := if st = 2 then x.bankDue else none }).peerHold t

/-- FABRIC_LINK_STATE_CHANGE (R222); codes 4 and 6–15 name no state a link takes on its own. -/
def execFabricLinkStateChange (link : Nat) (state : Nat) (s : State) : Out :=
  s.liftIf (decide (link < 48) && decide (state < 6) && decide (state ≠ 4)) fun t h => h.linkChange t link state

end Sys2Proof.Machine
end

