-- ==== Sys2Proof/Machine/Socket.lean ====
section
/-! DEFINITION. What the D3's unit sockets declare (R533 to R536, R564), which decides the path of every unit access
(R112). -/

namespace Sys2Proof.Machine

open Sys2Proof

/-- The socket kind of a unit (R533): 0–4 the compute unit kinds in local-index order, 8–12 the base unit kinds. -/
def unitKind (u : Nat) : Nat :=
  let l := localOf u
  if dieOf u < 8 then
    if l < 8 then 8 else if l < 0xE then 9 else if l < 0x12 then 10 else if l < 0x13 then 11 else 12
  else if l < 0x10 then 0 else if l < 0x90 then 1 else if l < 0x98 then 2 else if l < 0x9C then 3 else 4

/-- A range of a debug window (R534): first and last word, and the five attributes. -/
structure WinRange where
  first : Nat
  last : Nat
  sideEffect : Bool
  quiet : Bool
  scan : Bool
  writable : Bool
  timed : Bool
  deriving DecidableEq, Repr

/-- Control, status or configuration words: quiet, scan, writable, timed. -/
def cfgRange (a b : Nat) : WinRange := ⟨a, b, false, true, true, true, true⟩
/-- A queue head whose functional read pops it: side effect, quiet, scan. -/
def popRange (a b : Nat) : WinRange := ⟨a, b, true, true, true, false, false⟩
/-- Words that scan reaches and that may be written. -/
def arrayRange (a b : Nat) : WinRange := ⟨a, b, false, false, true, true, false⟩
/-- Words that only scan reaches. -/
def scanRange (a b : Nat) : WinRange := ⟨a, b, false, false, true, false, false⟩
/-- Words with a quiet path and scan. -/
def tableRange (a b : Nat) (w : Bool) : WinRange := ⟨a, b, false, true, true, w, false⟩

/-- The debug-window ranges of each unit kind (R564). -/
def kindRanges (k : Nat) : List WinRange :=
  match k with
  | 0 => [cfgRange 0 7, popRange 8 8, cfgRange 9 0xFF, arrayRange 0x100 0x17F]
  | 1 => [cfgRange 0 7, popRange 8 0xF, arrayRange 0x10 0x4F, cfgRange 0x50 0xFF]
  | 2 => [cfgRange 0 7, popRange 8 8, cfgRange 9 0xFF, arrayRange 0x100 0x13F]
  | 3 => [cfgRange 0 7, cfgRange 8 0xFF, tableRange 0x100 0x11F false]
  | 4 => [cfgRange 0 7, popRange 8 8, cfgRange 9 0xFF, tableRange 0x1000 0x1FFF false]
  | 8 => [cfgRange 0 7, cfgRange 8 0xFF, scanRange 0x100 0x8FF]
  | 9 => [cfgRange 0 7, popRange 8 8, cfgRange 9 0xFF, scanRange 0x100 0x4FF]
  | 10 => [cfgRange 0 7, cfgRange 8 0xFF, scanRange 0x100 0x2FF]
  | 11 => [cfgRange 0 7, popRange 8 8, cfgRange 9 0xFF, arrayRange 0x100 0x1FFF]
  | 12 => [cfgRange 0 7, popRange 8 8, cfgRange 9 0xFF, tableRange 0x100 0x7FF true]
  | _ => []

/-- The range that holds a window word, if the word is backed (R526). -/
def rangeOf (u w : Nat) : Option WinRange := (kindRanges (unitKind u)).find? fun r => r.first ≤ w ∧ w ≤ r.last

/-- The scan image of a unit in 4 KiB blocks (R247). -/
def scanBlocks (u : Nat) : Nat :=
  match unitKind u with
  | 0 => 16 | 1 => 7 | 2 => 8 | 3 => 8 | 4 => 32 | 8 => 8 | 9 => 12 | 10 => 16 | 11 => 32 | _ => 24

/-- The descriptor's flags (R533, R536): bit 0 LOCK, 1 TIMED_APPLY, 2 SELF_HALT, 3 REFRESH_KEEP, 4 LINK_BANK. -/
def kindFlags (k : Nat) : Nat :=
  match k with
  | 0 => 6 | 1 => 7 | 4 => 3 | 9 => 0x12 | 10 => 0xA | 11 => 3 | _ => 2

/-- The declared halt bound in ns (R536). -/
def haltBoundNs (u : Nat) : Nat :=
  match unitKind u with
  | 0 => 400 | 1 => 50 | 2 => 200 | 3 => 100 | 4 => 50 | 8 => 100 | 9 => 200 | 10 => 300 | 11 => 400 | _ => 100

/-- The declared event delay in ns (R536). -/
def eventDelayNs (u : Nat) : Nat := if dieOf u < 8 then 16 else 8
/-- The declared lowest clock in MHz (R536). -/
def minClockMhz (u : Nat) : Nat := if dieOf u < 8 then 800 else 1000
/-- The step quantum in the order of R184's table. -/
def kindQuantum (k : Nat) : Nat := if k < 8 then k else k - 3

/-- Word 0 of a range entry (R534). -/
def WinRange.word0 (r : WinRange) : Nat :=
  r.first + r.last * 2 ^ 16 + b2n r.sideEffect * 2 ^ 32 + b2n r.quiet * 2 ^ 33 + b2n r.scan * 2 ^ 34
    + b2n r.writable * 2 ^ 35 + b2n r.timed * 2 ^ 36
/-- Word 1 of a range entry (R534, R564): on every D3 scan range chain_offset is the range's first word. -/
def WinRange.word1 (r : WinRange) : Nat := if r.scan then r.first else 0

/-- The activity classes that a unit kind declares: classes 0–5 and 38 for the matrix engine. -/
def classMask (k : Nat) : Nat := if k = 0 then 0x400000003F else Config.classMask k

/-- Word `w` of unit `u`'s descriptor as the D3 declares it (R533, R534). -/
def sockWord (u w : Nat) : Nat :=
  let k := unitKind u
  let rs := kindRanges k
  match w with
  | 0 => 1 + (64 + 16 * rs.length) * 2 ^ 16 + k * 2 ^ 32 + kindFlags k * 2 ^ 40 + kindQuantum k * 2 ^ 48
      + Config.scanSegment u % 64 * 2 ^ 56
  | 1 => haltBoundNs u + eventDelayNs u * 2 ^ 16 + minClockMhz u * 2 ^ 32 + rs.length * 2 ^ 48
  | 2 => scanBlocks u * 32768
  | 3 => classMask k
  | _ =>
    if w < 8 then 0
    else
      match rs[(w - 8) / 2]? with
      | some r => if w % 2 = 0 then r.word0 else r.word1
      | none => 0

end Sys2Proof.Machine
end

