-- ==== Sys2Proof/Machine/TxnDone.lean ====
section
/-! DEFINITION. What a committed transaction does when its last action has a final outcome (R435, R438). -/

namespace Sys2Proof.Machine

open Sys2Proof

/-- The bytes of a plan in Hearth scratch. -/
def PlanX.bytes (p : PlanX) : Nat := 64 + 32 * p.regions.length
/-- The bytes at a registered address that its entry keeps read-only though it is INVALID (R251): the header, and the
descriptors it counts where the count is one a header may give. -/
def Hub.invalidPlan (h : Hub) (n : Nat) : Nat × Nat :=
  let a := h.get F.CRU_PLAN_addr n
  let count := h.rd (a + 8) 4
  (a, 64 + (if count ≤ 8192 then 32 * count else 0))
/-- A write of `n` bytes at `a` touches a plan that must not change (R250, R251). -/
def Hub.planReadOnly (h : Hub) (a n : Nat) : Bool :=
  (h.captures.any fun e => e.2.state == 1 && e.2.number == 0xFF && overlaps (a, n) (e.2.plan.addr, e.2.plan.bytes)) ||
  (h.plans.any fun e => overlaps (a, n) (e.2.addr, e.2.bytes)) ||
  (List.range 64).any fun k => h.get F.CRU_PLAN_state k == 3 && overlaps (a, n) (h.invalidPlan k)

/-- The bytes of a transaction's report (R438): a header, and one entry for each outcome that is not OK, in staging
order, up to the buffer's capacity. -/
def Hub.txnReport (h : Hub) (x : Nat) : List Byte :=
  let y := h.txn x
  let fails := (List.range y.acts.length).flatMap fun i => y.fails.filter fun f => f.index = i
  bytesLE 1 1 ++ bytesLE 1 x ++ bytesLE 2 y.acts.length ++ bytesLE 4 fails.length
    ++ bytesLE 8 (h.get F.TXN_TIME_commit_time x)
    ++ (fails.take y.rptCap).flatMap fun f => bytesLE 2 f.index ++ bytesLE 2 f.unit ++ bytesLE 2 f.status.code ++ bytesLE 2 0

/-- A COMMITTED transaction with no outcome outstanding is DONE, and its report is written (R435, R438). -/
def Hub.finishTxn (t x : Nat) (h : Hub) : Hub :=
  let y := h.txn x
  if h.get F.TXN_STATE_state x ≠ 4 ∨ !y.waiting.isEmpty then h
  else
    let h := (h.put F.TXN_STATE_state x 5).modTxn x fun y => { y with endedAt := t }
    if y.rptCap = 0 then h
    else if h.planReadOnly y.rptAddr (16 + 8 * y.rptCap) then h.put F.TXN_STATE_rpt_lost x 1
    else h.setBytes y.rptAddr (h.txnReport x)

/-- Transaction `x` has one outcome more: an action's last outcome makes it final. -/
def Hub.txnOutcome (t x index : Nat) (fails : List TxnFail) (h : Hub) : Hub :=
  (h.modTxn x fun y => { y with fails := y.fails ++ fails, waiting := y.waiting.filter (· ≠ index) }).finishTxn t x

end Sys2Proof.Machine
end

