-- ==== Sys2Proof/Machine/RunCtl.lean ====
section
/-! DEFINITION. Run control (R118 to R120, R173 to R203): the changes of a unit's run state, halts, deferrals and
steps, and the commands that ask for them. -/

namespace Sys2Proof.Machine

open Sys2Proof

/-! ### Causes and records (R176, R177) -/

/-- A cause field of R177: a code and its detail. -/
def causeOf (code detail : Nat) : Nat := code * 4096 + detail % 4096
/-- The cause of a command from a master (R177, R568). -/
def causeBy : Master → Nat
  | .core c => causeOf 1 (dieOf c * 32 + (localOf c - 0x7E0))
  | .host n => causeOf 2 n
  | .sess n => causeOf 3 n

/-- A class 0xC0 record of unit `u` (R67, R176). -/
def Hub.stateRecord (t u : Nat) (old new : RunState) (cause : Nat) (h : Hub) : Hub :=
  h.emit t u 0xC0 (h.unit u).evCtx (new.code * 2 ^ 23 + old.code * 2 ^ 19 + cause)

/-- A unit's clock stands still in this state, so that its window words do not change. -/
def RunState.still : RunState → Bool
  | .halted | .haltedHolding | .quenched => true
  | _ => false

/-- The quench line is asserted: some die is quenched (R206). -/
def Hub.lineAsserted (h : Hub) : Bool := h.get F.HRT_QCH_STATUS_dies_quenched != 0
/-- Die `d` is quenched. -/
def Hub.dieQuenched (h : Hub) (d : Nat) : Bool := bitAt (h.get F.HRT_QCH_STATUS_dies_quenched) d
/-- A limit of `n` ticks that starts now; it does not count while the quench line is asserted (R183, R187). -/
def Hub.countdown (h : Hub) (t n : Nat) : Countdown := if h.lineAsserted then .paused n else .runs (t + n)
/-- A limit stops counting at `t`. -/
def Countdown.pause (t : Nat) : Countdown → Countdown
  | .runs d => .paused (d - t)
  | .paused l => .paused l
/-- A limit goes on counting at `t`. -/
def Countdown.go (t : Nat) : Countdown → Countdown
  | .runs d => .runs d
  | .paused l => .runs (t + l)
/-- When a limit falls due, while it counts. -/
def Countdown.due : Countdown → Option Nat
  | .runs d => some d
  | .paused _ => none

/-- Partition `p` is between fence and unfence. -/
def Hub.fenced (h : Hub) (p : Nat) : Bool := bitAt (h.get F.HRT_STATE_partitions_recovering) p

/-- The pending-poke entries of unit `u`, in queue order (R115). -/
def Hub.pokesOf (h : Hub) (u : Nat) : List PendingPoke := (h.spoke (dieOf u)).ppq.filter fun e => e.unit = u
/-- Remove the pending-poke entries of unit `u`. -/
def Hub.dropPokes (u : Nat) (h : Hub) : Hub :=
  h.modSpoke (dieOf u) fun x => { x with ppq := x.ppq.filter fun e => e.unit ≠ u }
/-- Discard the pending-poke entries of unit `u` and count them (R196, R236). -/
def Hub.discardPokes (u : Nat) (h : Hub) : Hub :=
  (h.sbump F.SPK_PPQ_STATUS_discarded (dieOf u) 0 (h.pokesOf u).length).dropPokes u
/-- A poke lands in unit `u`'s window: the word goes to the unit, with a class 0xC3 record of its kind (R113), and is
what its window holds while its clock stands still (R116). -/
def Hub.applyPoke (t u w : Nat) (data : Word) (kind : Nat) (h : Hub) : Hub :=
  let h := (h.say (.write u w data)).emit t u 0xC3 none (kind * 2 ^ 26 + w)
  if (h.runState u).still ∧ (h.unit u).step.isNone then
    h.modUnit u fun x => { x with win := aPut (fun _ => none) w (some data) x.win }
  else h

/-- A functional or quiet handshake with unit `u`: whether the unit answers (R114). -/
def Hub.handshake (u : Nat) (h : Hub) : Bool × Hub :=
  match (h.unit u).mute with
  | none => (true, h)
  | some 0 => (false, h)
  | some (n + 1) => (true, h.modUnit u fun x => { x with mute := some n })

/-- Apply pending-poke entries of unit `u` in queue order (R193). One that meets handshake silence fails, and the rest
are discarded with it (R194). -/
def Hub.drainList (t u : Nat) (l : List PendingPoke) (h : Hub) : Bool × Hub :=
  match l with
  | [] => (true, h)
  | e :: l =>
    let r := h.handshake u
    if r.1 then Hub.drainList t u l (r.2.applyPoke t u e.off13 e.data 1)
    else (false, (r.2.sbump F.SPK_PPQ_STATUS_drain_fail (dieOf u) 0 1).sbump F.SPK_PPQ_STATUS_discarded (dieOf u) 0 l.length)
/-- Drain the pending-poke entries of unit `u`; whether none met silence (R193, R194). -/
def Hub.drainPokes (t u : Nat) (h : Hub) : Bool × Hub :=
  let r := h.drainList t u (h.pokesOf u)
  (r.1, r.2.dropPokes u)

/-- The regions of unit `u` that running captures have not read are stopped by its reset or its gating (R265). -/
def Hub.stopRegions (u : Nat) (st : RunState) (h : Hub) : Hub :=
  { h with captures := h.captures.map fun e =>
      if e.2.state = 2 then
        (e.1, { e.2 with plan := { e.2.plan with regions := e.2.plan.regions.map fun r =>
          if (r.kind = 1 ∨ r.kind = 2) ∧ r.unit = u ∧ r.stopped = none then { r with stopped := some st } else r } })
      else e }

/-- What follows when unit `u` passes from one state to another: its fabric link is banked while the engine is halted
(R201), its known window words lapse when its clock runs, in RESETTING its queue entries are discarded (R196), and a
unit that becomes held holds the contexts it carries work for (R342). -/
def Hub.stateHooks (t u : Nat) (old new : RunState) (h : Hub) : Hub :=
  let h := match linkOfUnit u with
    | none => h
    | some l =>
      if new.isHalted && !old.isHalted then (h.startBanking t l 2).peerHold t
      else if old.isHalted && !new.isHalted then h.endBanking l 2 else h
  let h := if new = .resetting then h.discardPokes u else h
  let h := if new = .resetting ∨ new = .gated then h.stopRegions u new else h
  let h := if new.still && !old.still then h.holdContexts u else h
  h.modUnit u fun x => { x with
    win := if old.still && new.still then x.win else []
    mute := none
    step := if new.isHalted then x.step else none
    halt := if new = .haltPending ∨ new = .quenched then x.halt else none }

/-- Unit `u` takes a run state with a cause, and writes its record. A change to HALT_PENDING that has no record yet is
recorded first, with the Chip Time of that change. -/
def Hub.changeState (t u : Nat) (new : RunState) (cause : Nat) (h : Hub) : Hub :=
  let old := h.runState u
  let h := match old, (h.unit u).halt with
    | .haltPending, some x => if x.recorded then h else h.stateRecord x.since u .running .haltPending x.cause
    | _, _ => h
  ((h.uput F.SPK_UNIT_STATE_state u new.code).uput F.SPK_UNIT_STATE_last_cause u (cause / 4096)).stateRecord t u old
    new cause |>.stateHooks t u old new

/-! ### Outcomes of commands (R119, R120) -/

/-- Run-control command `k`. -/
def Hub.cmd (h : Hub) (k : Nat) : Option RunCmd := aFind k h.cmds
/-- Replace or remove run-control command `k`. -/
def Hub.setCmd (k : Nat) (v : Option RunCmd) (h : Hub) : Hub :=
  { h with cmds :=
    match v with
    | some c => aPut (fun _ => { op := .halt, nowait := false, group := false, reply := .txn 0 0, units := [] }) k c
        h.cmds
    | none => aKeep (· ≠ k) h.cmds }

/-- h31 of a group command (R120). -/
def groupStatus (sts : List Status) : Status :=
  if sts.all (· == .ok) then .ok
  else if sts.all fun s => s == .ok || s == .pending then .pending
  else .partialResult

/-- The result vector of R120, cut to a buffer's capacity. -/
def resultVector (outs : List (Nat × Status)) (capacity : Nat) : List Byte :=
  let bad := outs.filter fun e => e.2 ≠ .ok
  bytesLE 4 outs.length ++ bytesLE 4 bad.length ++
    (bad.take capacity).flatMap fun e => bytesLE 2 e.1 ++ bytesLE 2 e.2.code

/-- The result vector goes to core `c`'s buffer, unless its capacity is zero; bytes beyond local memory are not
written. -/
def Hub.coreVector (c : Nat) (outs : List (Nat × Status)) (h : Hub) : Hub :=
  let cap := h.cget F.STK_RVEC_capacity c
  let a := h.cget F.STK_RVEC_addr c * 8
  if cap = 0 then h
  else h.setBytes (localBase c + a) ((resultVector outs cap).take (localSize c - a))
/-- The result vector goes to master `m`'s buffer in Hearth scratch (R199). -/
def Hub.masterVector (m : Master) (outs : List (Nat × Status)) (h : Hub) : Hub :=
  let cap := h.get F.HRT_RC_RVEC_capacity m.idx
  if cap = 0 then h else h.setBytes (h.get F.HRT_RC_RVEC_addr m.idx) (resultVector outs cap)

/-- The overall outcome of a command: a unit's own status, or the group's (R120). A command on a group of one member counts
as one that targets more than one unit. DESIGN CHOICE (assumption 66): R120 does not say which it is. -/
def overall (group : Bool) (outs : List (Nat × Status)) : Status :=
  if group then groupStatus (outs.map Prod.snd) else (outs.map Prod.snd).headD .ok
/-- The units on which a command took effect (R106). -/
def tookCount (outs : List (Nat × Status)) : Nat := (outs.filter fun e => e.2.took).length

/-- A finished command's outcome reaches whoever asked for it. -/
def Hub.reply (t : Nat) (r : Reply) (group : Bool) (outs : List (Nat × Status)) (h : Hub) : Hub :=
  let st := overall group outs
  match r with
  | .core c rd =>
    match (h.core c).wait with
    | .runControl .. =>
      let h := if group then h.coreVector c outs else h
      ((h.setGpr c rd (BitVec.ofNat 64 (tookCount outs))).setStatus c st).retire t c (h.pc c + 4)
    | _ => h
  | .reg m =>
    let h := if group then h.masterVector m outs else h
    (h.put F.HRT_RC_RESULT_status m.idx st.code).put F.HRT_RC_RESULT_count m.idx (tookCount outs)
      |>.put F.HRT_RC_RESULT_done m.idx 1
      |>.modMaster m fun x => { x with rcCmd := none }
  | .fired matrix entry =>
    if matrix < 8 then h.sput F.TRG_FIRED_last_status matrix entry st.code
    else h.put F.HTRG_FIRED_last_status entry st.code
  | .txn x index =>
    h.txnOutcome t x index ((outs.filter fun e => e.2 ≠ .ok).map fun e => { index, unit := e.1, status := e.2 })
  | .nobody => h

/-- A unit's outcome as a NOWAIT command reports it: PENDING while the unit is still HALT_PENDING, else its outcome under
R118 (R119). -/
def Hub.unitOutcome (h : Hub) (u : CmdUnit) : Nat × Status :=
  (u.unit, u.status.getD (match h.runState u.unit with
    | .halted => .ok
    | .haltedHolding => .holding
    | _ => .pending))

/-- Command `k` finishes when every unit has its outcome, or with NOWAIT its first answer (R119). -/
def Hub.settleCmd (t k : Nat) (h : Hub) : Hub :=
  match h.cmd k with
  | none => h
  | some c =>
    if c.units.all fun u => u.status.isSome || (c.nowait && u.first) then
      (h.setCmd k none).reply t c.reply c.group (c.units.map h.unitOutcome)
    else h

/-- Change what every unfinished command of the operations `p` selects says of unit `u`, then finish those that can. -/
def Hub.answer (t u : Nat) (p : RunOp → Bool) (f : CmdUnit → CmdUnit) (h : Hub) : Hub :=
  let ks := (h.cmds.filter fun e => p e.2.op && e.2.units.any fun x => x.unit = u && x.status.isNone).map Prod.fst
  ks.foldl (fun h k =>
    match h.cmd k with
    | none => h
    | some c =>
      (h.setCmd k (some { c with units := c.units.map fun x =>
        if x.unit = u ∧ x.status.isNone then f x else x })).settleCmd t k) h

/-- The waiting commands on unit `u` of the operations `p` selects end with a status. -/
def Hub.resolve (t u : Nat) (p : RunOp → Bool) (st : Status) (h : Hub) : Hub :=
  h.answer t u p fun x => { x with status := some st }
/-- Every waiting HALT of unit `u` ends with a status. -/
def Hub.resolveHalt (t u : Nat) (st : Status) (h : Hub) : Hub := h.resolve t u (· == .halt) st
/-- Every waiting command of unit `u` ends with a status (R174). -/
def Hub.resolveAll (t u : Nat) (st : Status) (h : Hub) : Hub := h.resolve t u (fun _ => true) st

/-! ### Halting (R118, R174, R182) -/

/-- The cause LOCK_RELEASE. -/
def causeLockRelease : Nat := causeOf 8 0
/-- The cause FORCED. -/
def causeForced : Nat := causeOf 9 0
/-- The cause SILENCE. -/
def causeSilence : Nat := causeOf 10 0

/-- A halt request reaches a RUNNING unit's socket. -/
def Hub.requestHalt (t u cause : Nat) (h : Hub) : Hub :=
  ((h.uput F.SPK_UNIT_STATE_state u RunState.haltPending.code).uput F.SPK_UNIT_STATE_last_cause u (cause / 4096)).modUnit
    u (fun x => { x with halt := some { cause, since := t } })
    |>.say (.runControl u .halt 0)

/-- The change to HALT_PENDING gets its record, stamped with that change, once the unit can no longer halt within 100 ns
of the request (R176). -/
def Hub.recordPending (t u : Nat) (h : Hub) : Hub :=
  match h.runState u, (h.unit u).halt with
  | .haltPending, some x =>
    if x.recorded ∨ t ≤ x.since + ns 100 then h
    else (h.stateRecord x.since u .running .haltPending x.cause).modUnit u fun y =>
      { y with halt := some { x with recorded := true } }
  | _, _ => h
/-- The records of the units that have been HALT_PENDING for more than 100 ns. -/
def Hub.recordHalts (t : Nat) (h : Hub) : Hub :=
  (h.units.filter fun e => e.2.halt.isSome).foldl (fun h e => h.recordPending t e.1) h

/-- A unit halts within 100 ns of the request: one record, RUNNING to HALTED (R176). -/
def Hub.quickHalt (t u : Nat) (cause : Nat) (h : Hub) : Hub :=
  ((h.uput F.SPK_UNIT_STATE_state u RunState.halted.code).uput F.SPK_UNIT_STATE_last_cause u (cause / 4096)).stateRecord
    t u .running .halted cause |>.stateHooks t u .running .halted

/-- A unit that is HALT_PENDING halts, with `lock_held` low. -/
def Hub.haltAcked (t u : Nat) (x : HaltX) (cause : Nat) (h : Hub) : Hub :=
  let h := if !x.recorded && decide (t ≤ x.since + ns 100) then h.quickHalt t u cause
    else h.changeState t u .halted cause
  h.resolveHalt t u .ok

/-- A step's final record and the end of stepping (R185, R176): the record's old and new state are equal. -/
def Hub.endStep (t u code : Nat) (out : Status) (done : Nat) (h : Hub) : Hub :=
  let st := h.runState u
  ((h.uput F.SPK_UNIT_STATE_stepping u 0).uput F.SPK_UNIT_STATE_steps_done u (sat 16 done)).uput
      F.SPK_UNIT_STATE_last_cause u code
    |>.stateRecord t u st st (causeOf code (min 0xFFF done))
    |>.modUnit u (fun x => { x with step := none, win := [] })
    |>.resolve t u (· == .step) out

/-- The halt that ends a step takes effect (R185 to R187): STEP_DONE, or STEP_LIMIT, and a HALT that stopped it ends as
the unit stands. -/
def Hub.stepHalted (t u : Nat) (x : StepX) (h : Hub) : Hub :=
  let h := if x.limited then h.sbump F.SPK_RC_COUNT_step_limits (dieOf u) 0 1 else h
  let h := h.endStep t u (if x.limited then 14 else 13) 
    (if x.cancelled then .cancelled else if x.limited then .deadline else .ok) x.done
  h.resolveHalt t u (if h.runState u = .haltedHolding then .holding else .ok)

/-- A step ends because another event takes the unit out of it (R174, R187). -/
def Hub.abandonStep (t u : Nat) (out : Status) (h : Hub) : Hub :=
  match (h.unit u).step with
  | some x => h.endStep t u 13 out x.done
  | none => h

/-- A unit becomes UNRESPONSIVE by silence. -/
def Hub.becomeSilent (t u : Nat) (h : Hub) : Hub :=
  (h.changeState t u .unresponsive causeSilence).sbump F.SPK_RC_COUNT_timeouts (dieOf u) 0 1

/-- A handshake with a unit has met 2 µs of silence (R114, R174): a QUENCHED unit is marked silent, any other that
shakes hands is UNRESPONSIVE, and what waits on it ends with TIMEOUT. -/
def Hub.fallSilent (t u : Nat) (h : Hub) : Hub :=
  let h := h.modUnit u fun x => { x with mute := none }
  match h.runState u with
  | .running | .halted | .haltedHolding | .fenced | .haltPending =>
    ((h.abandonStep t u .timeout).becomeSilent t u).resolveAll t u .timeout
  | .quenched => h.uput F.SPK_UNIT_STATE_silent u 1
  | _ => h

/-- `lock_held` is reported high on sync object `sync`. -/
def Hub.lockHigh (u sync : Nat) (h : Hub) : Hub :=
  (h.uput F.SPK_UNIT_STATE_lock_held u 1).modUnit u fun x => { x with sync }

/-- The spoke reports a unit's sync object as the one it holds. -/
def Hub.holdSync (u : Nat) (h : Hub) : Hub := h.uput F.SPK_UNIT_STATE_hold_sync u (h.unit u).sync

/-- A unit declares LOCK; one that does not ties `lock_held` low (R524). -/
def declaresLock (u : Nat) : Bool := bitAt (kindFlags (unitKind u)) 0

/-- A unit answers a halt request (R174, R182, R523): it halts, or reports `lock_held` and defers. -/
def Hub.haltAck (t u : Nat) (lockHeld : Bool) (sync : Nat) (h : Hub) : Hub :=
  let lk := lockHeld && declaresLock u
  match h.runState u, (h.unit u).halt, (h.unit u).step with
  | .haltPending, some x, _ =>
    if x.defer.isSome then h
    else if lk then
      let h := (h.lockHigh u sync).recordPending t u
      let h := h.modUnit u fun y => { y with
        halt := y.halt.map fun x => { x with defer := some (h.countdown t (us 10)) } }
      h.answer t u (· == .halt) fun x => { x with first := true }
    else (h.uput F.SPK_UNIT_STATE_lock_held u 0).haltAcked t u x x.cause
  | _, _, some x =>
    if !x.halting || x.defer.isSome then h
    else if lk then
      let d := h.countdown t (us 10)
      let h := (h.lockHigh u sync).modUnit u fun y => { y with step := some { x with defer := some d } }
      h.answer t u (· == .halt) fun x => { x with first := true }
    else
      let h := (h.uput F.SPK_UNIT_STATE_lock_held u 0).uput F.SPK_UNIT_STATE_state u RunState.halted.code
      h.stepHalted t u x
  | _, _, _ => h

/-- UNIT_HALT_ACK (R174). -/
def execUnitHaltAck (unit : Nat) (lockHeld : Bool) (sync : Nat) (s : State) : Out :=
  s.liftIf (unitOk unit) fun t h => h.haltAck t unit lockHeld (sync % 65536)

/-- `lock_held` falls while a halt is deferred: the unit halts at that release (R182). -/
def Hub.lockReleased (t u : Nat) (h : Hub) : Hub :=
  match h.runState u, (h.unit u).halt, (h.unit u).step with
  | .haltPending, some x, _ =>
    if x.defer.isNone then h
    else (h.uput F.SPK_UNIT_STATE_lock_held u 0).haltAcked t u x causeLockRelease
  | _, _, some x =>
    if x.defer.isNone then h
    else ((h.uput F.SPK_UNIT_STATE_lock_held u 0).uput F.SPK_UNIT_STATE_state u RunState.halted.code).stepHalted t u x
  | _, _, _ => h

/-- LOCK_HELD_RELEASE (R182). -/
def execLockHeldRelease (unit : Nat) (s : State) : Out := s.liftIf (unitOk unit) fun t h => h.lockReleased t unit

/-- When the deferral of unit `u` ends by force. -/
def Hub.deferDue (h : Hub) (u : Nat) : Option Nat :=
  let x := h.unit u
  match (x.halt.bind HaltX.defer).orElse (fun _ => x.step.bind StepX.defer) with
  | some d => if h.runState u = .quenched then none else d.due
  | none => none

/-- The deferral limit passes: the spoke forces the halt (R182). -/
def Hub.forceHalt (t u : Nat) (h : Hub) : Hub :=
  let h := ((h.say (.runControl u .force 0)).holdSync u).sbump F.SPK_RC_COUNT_forced_halts (dieOf u) 0 1
  match h.runState u, (h.unit u).step with
  | .haltPending, _ => (h.changeState t u .haltedHolding causeForced).resolveHalt t u .holding
  | _, some x => (h.uput F.SPK_UNIT_STATE_state u RunState.haltedHolding.code).stepHalted t u x
  | _, none => h

/-- HALT_DEFERRAL_EXPIRY (R182). -/
def execHaltDeferralExpiry (unit : Nat) (s : State) : Out :=
  if unitOk unit then s.liftAt (s.hub.deferDue unit) fun t h => h.forceHalt t unit else .refused .illFormed

/-- The spoke issues the halt request that ends a step (R185 to R187): at its count, or at its limit, or for a HALT. -/
def Hub.haltStep (t u : Nat) (x : StepX) (limited cancelled : Bool) (h : Hub) : Hub :=
  (h.modUnit u fun y => { y with step := some { x with halting := true, since := t, limited, cancelled } }).say
    (.runControl u .halt 0)

/-- The outcome of a HALT for one unit (R118, R119, R175, R187); none while it waits. -/
def Hub.haltUnit (t u cause : Nat) (h : Hub) : Option Status × Hub :=
  match h.runState u with
  | .running => (none, h.requestHalt t u cause)
  | .haltPending => (none, h)
  | .halted =>
    match (h.unit u).step with
    | none => (some .ok, h)
    | some x => (none, if x.halting then h else h.haltStep t u x false true)
  | .haltedHolding =>
    match (h.unit u).step with
    | none => (some .holding, h)
    | some x => (none, if x.halting then h else h.haltStep t u x false true)
  | .quenched =>
    match h.uget F.SPK_UNIT_STATE_resume u with
    | 0 =>
      if h.uget F.SPK_UNIT_STATE_lock_held u = 1 then
        (some .ok, (h.uput F.SPK_UNIT_STATE_resume u 2).holdSync u)
      else (some .ok, h.uput F.SPK_UNIT_STATE_resume u 1)
    | 3 => (some .fenced, h)
    | _ => (some .ok, h)
  | .gated => (some .gated, h)
  | .resetting => (some .resetting, h)
  | .fenced => (some .fenced, h)
  | .unresponsive => (some .unresponsive, h)

/-- A unit's halt request has had its first answer, or has gone unanswered for its declared bound (R119). -/
def Hub.firstAnswered (h : Hub) (t u : Nat) : Bool :=
  match (h.unit u).halt with
  | some x => x.defer.isSome || decide (x.since + ns (haltBoundNs u) ≤ t)
  | none =>
    match (h.unit u).step with
    | some x => x.defer.isSome || (x.halting && decide (x.since + ns (haltBoundNs u) ≤ t))
    | none => false

/-- When a unit's declared halt bound passes without an answer (R119). -/
def Hub.boundDue (h : Hub) (u : Nat) : Option Nat :=
  match h.runState u, (h.unit u).halt, (h.unit u).step with
  | .haltPending, some x, _ => if x.defer.isSome then none else some (x.since + ns (haltBoundNs u))
  | _, _, some x => if x.halting ∧ x.defer.isNone then some (x.since + ns (haltBoundNs u)) else none
  | _, _, none => none

/-- HALT_BOUND_NS_EXPIRY (R119). -/
def execHaltBoundNsExpiry (unit : Nat) (s : State) : Out :=
  if unitOk unit then
    s.liftAt (s.hub.boundDue unit) fun t h => h.answer t unit (· == .halt) fun x => { x with first := true }
  else .refused .illFormed

/-! ### Resuming (R118, R193 to R195) -/

/-- The outcome of a RUN for one unit. -/
def Hub.runUnit (t u cause : Nat) (h : Hub) : Status × Hub :=
  match h.runState u with
  | .running => (.ok, h)
  | .haltPending =>
    let r := h.drainPokes t u
    if r.1 then
      let h := (r.2.changeState t u .running cause).uput F.SPK_UNIT_STATE_lock_held u 0
      (.ok, (h.say (.runControl u .run 0)).resolveHalt t u .cancelled)
    else (.timeout, r.2.fallSilent t u)
  | .halted | .haltedHolding =>
    let r := ((h.abandonStep t u .cancelled).resolveHalt t u .cancelled).drainPokes t u
    if r.1 then
      (.ok, ((r.2.changeState t u .running cause).uput F.SPK_UNIT_STATE_lock_held u 0).say (.runControl u .run 0))
    else (.timeout, r.2.fallSilent t u)
  | .quenched => (.held, h)
  | .gated => (.gated, h)
  | .resetting => (.resetting, h)
  | .fenced => (.fenced, h)
  | .unresponsive => (.unresponsive, h)

/-! ### Stepping (R184 to R188) -/

/-- The outcome of a STEP for one unit; none while the step runs. -/
def Hub.stepUnit (t u cause count : Nat) (h : Hub) : Option Status × Hub :=
  match h.runState u with
  | .halted | .haltedHolding =>
    if (h.unit u).step.isSome then (some .busy, h)
    else
      let st := h.runState u
      let limit := h.countdown t (us (h.sget F.SPK_STEP_CFG_limit_us (dieOf u)))
      (none, (((h.uput F.SPK_UNIT_STATE_stepping u 1).uput F.SPK_UNIT_STATE_steps_done u 0).uput
          F.SPK_UNIT_STATE_last_cause u 12).stateRecord t u st st (causeOf 12 0)
        |>.modUnit u (fun x => { x with step := some { count, cause, limit }, win := [] })
        |>.say (.runControl u .step count))
  | .running | .haltPending => (some .notHeld, h)
  | .quenched => (some .held, h)
  | .gated => (some .gated, h)
  | .resetting => (some .resetting, h)
  | .fenced => (some .fenced, h)
  | .unresponsive => (some .unresponsive, h)

/-- A stepping unit that runs completes `n` more quanta, up to its count: at the count the spoke issues the halt that
ends the step (R185). -/
def Hub.stepCount (t u n : Nat) (h : Hub) : Hub :=
  match (h.unit u).step with
  | some x =>
    if h.dieQuenched (dieOf u) then h
    else
      let x := { x with done := min x.count (x.done + n) }
      let h := (h.uput F.SPK_UNIT_STATE_steps_done u (sat 16 x.done)).modUnit u fun y => { y with step := some x }
      if x.done = x.count ∧ !x.halting then h.haltStep t u x false false else h
  | none => h

/-- STEP_COUNT_REACHED (R185). The quanta since the last one come with it; the step goes on while its count is not
reached. -/
def execStepCountReached (x : Quanta) (s : State) : Out :=
  s.liftIf (unitOk x.unit) fun t h => h.stepCount t x.unit x.count

/-- When the step limit of unit `u` passes (R186). -/
def Hub.stepLimitDue (h : Hub) (u : Nat) : Option Nat :=
  match (h.unit u).step with
  | some x => if x.halting then none else x.limit.due
  | none => none

/-- The step limit passes before the count, with `n` more quanta completed: the spoke issues the halt (R186). -/
def Hub.stepLimit (t u n : Nat) (h : Hub) : Hub :=
  match (h.unit u).step with
  | some x =>
    let x := { x with done := min (x.count - 1) (x.done + n) }
    (h.uput F.SPK_UNIT_STATE_steps_done u (sat 16 x.done)).haltStep t u x true false
  | none => h

/-- STEP_LIMIT_EXPIRY (R186). -/
def execStepLimitExpiry (unit : Nat) (quanta : Nat) (s : State) : Out :=
  if unitOk unit then s.liftAt (s.hub.stepLimitDue unit) fun t h => h.stepLimit t unit quanta else .refused .illFormed

/-! ### Self-halts and cross-halts (R181, R190, R191) -/

/-- Unit `u` belongs to halt group `g` (R172). -/
def Hub.inGroup (h : Hub) (g u : Nat) : Bool :=
  bitAt (h.sget F.SPK_HGRP_member (dieOf u) (g * 4 + localOf u / 64)) (localOf u % 64)
/-- The members of halt group `g`, in ascending unit ID order (R171). -/
def Hub.groupUnits (h : Hub) (g : Nat) : List Nat :=
  (List.range 32).flatMap fun d => (List.range ((unitsOnDie d + 63) / 64)).flatMap fun w =>
    ((maskList 64 (h.sget F.SPK_HGRP_member d (g * 4 + w))).map (d * 2048 + 64 * w + ·)).filter unitOk

/-- Every group of `u` with cross_halt set halts as a whole (R190). -/
def Hub.crossHalt (t u : Nat) (h : Hub) : Hub :=
  ((List.range 256).filter fun g => h.flag F.HRT_HGRP_CTL_cross_halt g && h.inGroup g u).foldl (fun h g =>
    let h := h.sbump F.SPK_RC_COUNT_cross_halts (dieOf u) 0 1
    ((h.groupUnits g).filter (· ≠ u)).foldl (fun h v => (h.haltUnit t v (causeOf 5 g)).2) h) h

/-- A RUNNING unit halts itself on its breakpoint, or on a fault with halt_on_fault set (R181, R524). -/
def Hub.selfHalt (t u : Nat) (fault : Bool) (code : Nat) (lockHeld : Bool) (sync : Nat) (h : Hub) : Hub :=
  if h.runState u ≠ .running ∨ (fault ∧ h.uget F.SPK_UNIT_CTL_halt_on_fault u = 0) then h
  else
    let cause := causeOf (if fault then 7 else 6) code
    let lk := lockHeld && declaresLock u
    let h := if lk then (h.lockHigh u sync).holdSync u else h
    (h.changeState t u (if lk then .haltedHolding else .halted) cause).crossHalt t u

/-- UNIT_SELF_HALT (R181). -/
def execUnitSelfHalt (unit : Nat) (fault : Bool) (code : Nat) (lockHeld : Bool) (sync : Nat) (s : State) : Out :=
  s.liftIf (unitOk unit) fun t h => h.selfHalt t unit fault code lockHeld (sync % 65536)

/-! ### Gating, silence and probes (R174, R179, R180) -/

/-- UNIT_GATE (R179): the socket refuses the gate in any state but RUNNING. -/
def execUnitGate (unit : Nat) (s : State) : Out :=
  s.liftIf (unitOk unit) fun t h =>
    if h.runState unit = .running then h.changeState t unit .gated (causeOf 0x10 0) else h

/-- UNIT_UNGATE (R179): no unit leaves GATED while the quench line is asserted. -/
def execUnitUngate (unit : Nat) (s : State) : Out :=
  s.liftIf (unitOk unit) fun t h =>
    if h.runState unit = .gated ∧ !h.lineAsserted then h.changeState t unit .running (causeOf 0x11 0) else h

/-- A halt request of unit `u` that nothing has answered: when it reached the socket. -/
def Hub.askedAt (h : Hub) (u : Nat) : Option Nat :=
  match h.runState u, (h.unit u).halt, (h.unit u).step with
  | .haltPending, some x, _ => if x.defer.isNone then some x.since else none
  | _, _, some x => if x.halting ∧ x.defer.isNone then some x.since else none
  | _, _, none => none

/-- When 2 µs of silence have passed (R32): since the halt request that nothing has answered, or for the access that
the next command makes, which began at `t`. A GATED, RESETTING or UNRESPONSIVE unit meets no handshake. -/
def Hub.silenceDue (h : Hub) (t u : Nat) : Option Nat :=
  match h.runState u with
  | .gated | .resetting | .unresponsive => none
  | _ => some (((h.askedAt u).getD t) + us 2)

/-- 2 µs of handshake silence have passed on unit `u`: a halt request that met it times out; else it is the hub's next
access to the unit that meets it, once the unit has answered `n` more handshakes of it. DESIGN CHOICE (assumption 57). -/
def Hub.silence (t u n : Nat) (h : Hub) : Hub :=
  if (h.askedAt u).isSome then h.fallSilent t u else h.modUnit u fun x => { x with mute := some n }

/-- HANDSHAKE_SILENCE (R114). -/
def execHandshakeSilence (x : SilentUnit) (s : State) : Out :=
  if unitOk x.unit then s.liftAt (s.hub.silenceDue s.clk.chipTime x.unit) fun t h => h.silence t x.unit x.answered
  else .refused .illFormed

/-- A write of 1 to TNG_UNIT_CTL.probe (R180): one status handshake, answered within 2 µs or not. -/
def cmdProbe (u : Nat) : RegCmd :=
  { gate := fun h => if h.spokeOn (dieOf u) then none else some .poweredOff
    body := fun t h => (.ok, (h.modUnit u fun x => { x with probeDue := some (t + us 2) }).say
      (.runControl u .probe 0)) }

/-- UNIT_PROBE (R180). -/
def execUnitProbe (m : Master) (unit : Nat) (s : State) : Out :=
  if unitOk unit then s.cmd m 3 (cmdProbe unit) else .refused .illFormed

/-- PROBE_ANSWER (R180): an UNRESPONSIVE unit takes the state it reports; one with an invalid descriptor is held
UNRESPONSIVE (R535). -/
def execProbeAnswer (unit : Nat) (halted : Bool) (s : State) : Out :=
  s.liftIf (unitOk unit) fun t h =>
    if (h.unit unit).probeDue.isNone then h
    else
      let h := h.modUnit unit fun x => { x with probeDue := none }
      if h.runState unit = .unresponsive ∧ h.uget F.SPK_SOCK_STATUS_fault unit = 0 then
        h.changeState t unit (if halted then .halted else .running) (causeOf 0xB 0)
      else h

/-- PROBE_TIMEOUT (R180). -/
def execProbeTimeout (unit : Nat) (s : State) : Out :=
  if unitOk unit then
    s.liftAt (s.hub.unit unit).probeDue fun _ h =>
      (h.modUnit unit fun x => { x with probeDue := none }).sbump F.SPK_RC_COUNT_timeouts (dieOf unit) 0 1
  else .refused .illFormed

/-! ### Commands (R118, R199) -/

/-- What a command asks of one unit. -/
def Hub.applyOp (t u : Nat) (op : RunOp) (cause count : Nat) (h : Hub) : Option Status × Hub :=
  match op with
  | .halt => h.haltUnit t u cause
  | .run => ((h.runUnit t u cause).1, (h.runUnit t u cause).2)
  | .step => h.stepUnit t u cause count

/-- The units a command targets. -/
def Hub.targets (h : Hub) (target : Nat) (group : Bool) : List Nat := if group then h.groupUnits target else [target]

/-- A hub access to a unit of a powered-off spoke is refused (R38); in RETIRED a command is refused (R123). -/
def Hub.refusesUnit (h : Hub) (u : Nat) : Option Status :=
  if !h.spokeOn (dieOf u) then some .poweredOff else if h.retired then some .retired else none

/-- One unit's part in a command: refused, applied, or waiting. -/
def Hub.applyTo (t : Nat) (op : RunOp) (cause count : Nat) (k : Nat) (h : Hub) (u : Nat) : Hub :=
  let r := match h.refusesUnit u with
    | some st => (some st, h)
    | none => h.applyOp t u op cause count
  match r.2.cmd k with
  | none => r.2
  | some c => r.2.setCmd k (some { c with units := c.units.map fun x =>
      if x.unit = u ∧ x.status.isNone then { x with status := r.1, first := r.2.firstAnswered t u } else x })

/-- Issue a run-control command; it binds the membership in force (R171) and its number is `h.nextCmd`. -/
def Hub.issueRun (t : Nat) (op : RunOp) (target : Nat) (group nowait : Bool) (count cause : Nat) (r : Reply)
    (h : Hub) : Hub :=
  let k := h.nextCmd
  let us := h.targets target group
  let h := { h with nextCmd := k + 1 }.setCmd k
    (some { op, nowait, group, reply := r, units := us.map fun u => { unit := u } })
  (us.foldl (Hub.applyTo t op cause count k) h).settleCmd t k

end Sys2Proof.Machine
end

