-- ==== Sys2Proof/Machine/HangWatch.lean ====
section
/-! DEFINITION. Hang watch (R338 to R350): the timer wheels, the adaptive budgets, and the step marks (R380, R381). -/

namespace Sys2Proof.Machine

open Sys2Proof

/-! ### Reading a register (R16) -/

/-- Master `m` reads a register that needs `level` and whose read has a side effect: it is refused, by what comes before
the level (`pre`), by the level, or by the state behind it (`gate`), in the order of R567; or it returns a word and
acts. -/
def State.readCmd (s : State) (m : Master) (level : Nat) (pre gate : Hub → Option Status) (v : Hub → Word)
    (f : Hub → Hub) : Out :=
  s.liftIf m.ok fun _ h =>
    match pre h with
    | some st => h.wrote m st
    | none =>
      if h.levelOf m < level then h.authRefused.wrote m .auth
      else
        match gate h with
        | some st => h.wrote m st
        | none => (f h).gave m (v h)
/-- A register of spoke `n` is out of reach while the spoke is powered off (R38). -/
def offSpoke (n : Nat) (h : Hub) : Option Status := if h.spokeOn n then none else some .poweredOff

/-- MAXWAIT_READ: a read of SPN_MAXWAIT_r returns the longest wait and clears it. -/
def execMaxwaitRead (m : Master) (node r : Nat) (s : State) : Out :=
  if node < 8 ∧ r < 48 then
    s.readCmd m 1 (fun _ => none) (offSpoke node) (fun h => h.reg .SPN_MAXWAIT (spokeInst .SPN_MAXWAIT node r)) fun h =>
      h.sput F.SPN_MAXWAIT_max_wait node r 0
  else .refused .illFormed

/-! ### Arithmetic (R348, R350) -/

/-- The log value of a duration in µs (R348). -/
def logOf (d : Nat) : Nat := 256 * d.log2 + ((d - 2 ^ d.log2) * 256) / 2 ^ d.log2
/-- The inverse of a log value (R348). -/
def unlog (l : Nat) : Nat := (256 + l % 256) * 2 ^ (l / 256) / 256
/-- An estimator after a sample (R348). DEDUCED (assumption 23): a sample above raises q by 999 steps, each a step of
1 << learn_shift, as the rule's prose has it. -/
def learn (shift d : Nat) (e : Nat × Nat) : Nat × Nat :=
  let l := logOf d
  let qi := e.1 / 1024
  (if qi < l then e.1 + 999 * 2 ^ shift else if l < qi then e.1 - 2 ^ shift else e.1, min 65535 (e.2 + 1))
/-- An estimator of a context. -/
def CtxX.est (x : CtxX) (cls : Nat) : Nat × Nat := aGet (fun _ => (0, 0)) x.ests cls
/-- Replace an estimator of a context. -/
def CtxX.setEst (cls : Nat) (e : Nat × Nat) (x : CtxX) : CtxX := { x with ests := aPut (fun _ => (0, 0)) cls e x.ests }

/-- The home partition of a context (R338). -/
def Hub.homeOf (h : Hub) (c : Nat) : Nat := h.get F.HWT_CTX_CFG_home c
/-- The mode of a context: 0 OFF, 1 FIXED, 2 ADAPTIVE. -/
def Hub.hwtMode (h : Hub) (c : Nat) : Nat := h.get F.HWT_CTX_CFG_mode c

/-- The adaptive budget of an estimator (R350). -/
def Hub.adaptive (h : Hub) (c : Nat) (e : Nat × Nat) : Nat :=
  if e.2 < 16 * h.get F.HWT_CFG_min_samples_16 then h.get F.HWT_CTX_CFG_budget_us c
  else max (h.get F.HWT_CFG_floor_us) (min (h.get F.HWT_CFG_ceiling_us)
    ((unlog (e.1 / 1024) * h.get F.HWT_CTX_CFG_factor c + 15) / 16))
/-- The budget of a command of a class dispatched now (R344, R340). -/
def Hub.budgetOf (h : Hub) (c cls : Nat) : Option Nat :=
  match h.hwtMode c with
  | 0 => none
  | 2 => some (if cls ≤ 8 then h.adaptive c ((h.ctx c).est cls) else h.get F.HWT_CTX_CFG_budget_us c)
  | _ => some (h.get F.HWT_CTX_CFG_budget_us c)

/-! ### The wheel -/

/-- A context is held at this instant (R342, R178). -/
def Hub.heldNow (h : Hub) (c : Nat) : Bool := (h.carriers c).any fun u => (h.runState u).still
/-- The in-flight entries of the contexts homed on wheel `p`. -/
def Hub.wheelCount (h : Hub) (p : Nat) : Nat :=
  (h.ctxs.filter fun e => h.homeOf e.1 = p).foldl (fun n e => n + e.2.inflight.length) 0
/-- HWT_WHEEL.inflight follows the entries. -/
def Hub.showWheel (p : Nat) (h : Hub) : Hub := h.sput F.HWT_WHEEL_inflight p 0 (h.wheelCount p)

/-- U_c − U_k of an entry. -/
def unheld (u : Nat) (k : Inflight) : Nat := u - k.u0.getD u
/-- The unexpired entry with a budget whose expiry comes first (R343). -/
def CtxX.watched (x : CtxX) : Option Inflight :=
  (x.inflight.filter fun k => !k.expired && k.budget.isSome).foldl (fun b k =>
    let end_ := fun (y : Inflight) => y.u0.getD x.u + y.budget.getD 0
    match b with
    | none => some k
    | some y => if end_ k < end_ y then some k else some y) none

/-- The 32-byte log entry of an expiry, as four words (R361). -/
def expiryWords (c : Nat) (k : Inflight) (t : Nat) : List Nat :=
  [c + k.cls * 2 ^ 16 + k.queue * 2 ^ 24 + k.seq * 2 ^ 32, k.engine + k.budget.getD 0 * 2 ^ 32, k.time, t]

/-- Wheel `p` carries out the expiry of an entry of context `c`, at the tick `t` (R346). -/
def Hub.expire (p c : Nat) (k : Inflight) (t : Nat) (h : Hub) : Hub :=
  let i := h.sget F.HWT_EXP_HEAD_next p
  let h := ((List.range 4).zip (expiryWords c k t)).foldl (fun h e =>
    h.setReg .HWT_EXP (spokeInst .HWT_EXP p (4 * i + e.1)) (BitVec.ofNat 64 e.2)) h
  let h := (h.sput F.HWT_EXP_HEAD_next p 0 (i + 1)).sbump F.HWT_EXP_HEAD_expiries p 0 1
  let h := h.collect t p (mkRec t k.engine 0xC4 (some c) k.seq)
  h.modCtx c fun x => { x with inflight := x.inflight.map fun y => if y = k then { y with expired := true } else y }

/-- Every entry of wheel `p` that reached its budget at a tick has its expiry carried out, context by context. -/
def Hub.settleWheel (p : Nat) (h : Hub) : Hub :=
  (h.ctxs.filter fun e => h.homeOf e.1 = p).foldl (fun h e =>
    e.2.inflight.foldl (fun h k =>
      match k.due with
      | some d => if k.expired then h else h.expire p e.1 k d
      | none => h) h) h

/-- An entry is made for a command dispatched now (R341, R344). -/
def Hub.enter (t c seq cls queue engine : Nat) (h : Hub) : Hub :=
  let k : Inflight := { seq, cls, queue, engine, time := t, budget := h.budgetOf c cls }
  (h.modCtx c fun x => { x with
    inflight := x.inflight ++ [k], held := x.held || (h.runState engine).still }).showWheel (h.homeOf c)

/-- A command completes or aborts and leaves its wheel (R346, R348, R353). -/
def Hub.leaveWheel (c seq : Nat) (aborted : Bool) (h : Hub) : Hub :=
  let p := h.homeOf c
  let x := h.ctx c
  match x.inflight.find? fun k => k.seq = seq with
  | none => h
  | some k =>
    let h := if k.expired && !aborted then h.sbump F.HWT_WHEEL_late p 0 1 else h
    let teach := !aborted && !k.expired && decide (h.hwtMode c ≠ 0) && decide (k.cls ≤ 8)
    let shift := h.get F.HWT_CFG_learn_shift
    (h.modCtx c fun x =>
      let x := { x with inflight := x.inflight.erase k, faulted := x.faulted && aborted }
      if teach then x.setEst k.cls (learn shift (max 1 (unheld x.u k)) (x.est k.cls)) else x).showWheel p

/-- A step mark reaches the wheel (R381). -/
def Hub.applyMark (c : Nat) (kind : Mark) (step : Nat) (h : Hub) : Hub :=
  let st := h.get F.RCV_MARK_state c
  let same := h.get F.RCV_MARK_step c == step
  let ok := match kind with
    | .stepBegin => true
    | .updateBegin => st == 2 && same
    | .stepEnd => (st == 2 || st == 3) && same
  let new := match kind with
    | .stepBegin => 2
    | .updateBegin => 3
    | .stepEnd => 1
  let h := (h.put F.RCV_MARK_state c new).put F.RCV_MARK_step c step
  if ok then h else h.put F.RCV_MARK_mark_error c 1

/-- A notice of context `c` is carried out; a dispatch that waited is counted as stamped late (R341). -/
def Hub.applyNote (t c : Nat) (late : Bool) (h : Hub) : WheelNote → Hub
  | .dispatch seq cls queue engine =>
    (if late then h.sbump F.HWT_WHEEL_window_late (h.homeOf c) 0 1 else h).enter t c seq cls queue engine
  | .leave seq aborted => h.leaveWheel c seq aborted
  | .mark kind step => h.applyMark c kind step

/-- Context `c` and its wheel have room for an entry (R341). -/
def Hub.hasRoom (h : Hub) (c : Nat) : Bool :=
  decide ((h.ctx c).inflight.length < 32) && decide (h.wheelCount (h.homeOf c) < 8192)
/-- The note can be carried out now, behind no note of its own context. -/
def Hub.noteFits (h : Hub) (c : Nat) : WheelNote → Bool
  | .dispatch .. => h.hasRoom c
  | _ => true

/-- The notices that wait for room are carried out in order as far as there is room: one that stays holds back the
later ones of its context (R341). -/
def Hub.letIn (t : Nat) (h : Hub) : Hub :=
  (h.wheelNotes.foldl (fun (r : Hub × List Nat) e =>
    let (h, stuck) := r
    if !stuck.contains e.1 && h.noteFits e.1 e.2 then (h.applyNote t e.1 true e.2, stuck)
    else ({ h with wheelNotes := h.wheelNotes ++ [e] }, e.1 :: stuck)) ({ h with wheelNotes := [] }, [])).1

/-- The notice of a command whose dispatch still waits. -/
def Hub.heldBack (h : Hub) (c : Nat) : WheelNote → Bool
  | .leave seq _ => !((h.ctx c).inflight.any fun k => k.seq = seq) && h.wheelNotes.any fun e => e.1 = c
  | _ => h.wheelNotes.any fun e => e.1 = c

/-- A notice or mark of context `c` arrives at its home wheel (R339, R341, R380). -/
def Hub.note (t c : Nat) (n : WheelNote) (h : Hub) : Hub :=
  let h := h.settleWheel (h.homeOf c)
  if h.heldBack c n || !h.noteFits c n then { h with wheelNotes := h.wheelNotes ++ [(c, n)] }
  else
    let h := h.applyNote t c false n
    match n with
    | .leave .. => h.letIn t
    | _ => h

/-- The commands on the units a test selects, by context and sequence: those with entries, then those whose dispatches
wait for room. -/
def Hub.commandsOn (h : Hub) (p : Nat → Bool) : List (Nat × Nat) :=
  (h.ctxs.flatMap fun e => (e.2.inflight.filter fun k => p k.engine).map fun k => (e.1, k.seq)) ++
  h.wheelNotes.filterMap fun e =>
    match e.2 with
    | .dispatch seq _ _ engine => if p engine then some (e.1, seq) else none
    | _ => none
/-- Every command on the units a test selects is aborted (R347, R366, R383). The abort notice of one whose dispatch
still waits follows it: the command enters, late, and leaves (R341). -/
def Hub.abortOn (t : Nat) (p : Nat → Bool) (h : Hub) : Hub :=
  (h.commandsOn p).foldl (fun h e => h.note t e.1 (.leave e.2 true)) h

/-- A context that exists. -/
def ctxOk (c : Nat) : Bool := decide (c < 2048)

/-- CMD_DISPATCH_NOTICE (R339, R341). -/
def execCmdDispatchNotice (ctx seq cls queue engine : Nat) (s : State) : Out :=
  s.liftIf (ctxOk ctx && decide (seq < 2 ^ 32) && decide (cls < 16) && decide (queue < 256) && unitOk engine)
    fun t h => h.note t ctx (.dispatch seq cls queue engine)
/-- CMD_COMPLETE_NOTICE (R348). -/
def execCmdCompleteNotice (ctx seq : Nat) (s : State) : Out :=
  s.liftIf (ctxOk ctx && decide (seq < 2 ^ 32)) fun t h => h.note t ctx (.leave seq false)
/-- CMD_ABORT_NOTICE (R341). -/
def execCmdAbortNotice (ctx seq : Nat) (s : State) : Out :=
  s.liftIf (ctxOk ctx && decide (seq < 2 ^ 32)) fun t h => h.note t ctx (.leave seq true)
/-- STEP_BEGIN (R381). -/
def execStepBegin (ctx step : Nat) (s : State) : Out :=
  s.liftIf (ctxOk ctx && decide (step < 2 ^ 32)) fun t h => h.note t ctx (.mark .stepBegin step)
/-- UPDATE_BEGIN (R381). -/
def execUpdateBegin (ctx step : Nat) (s : State) : Out :=
  s.liftIf (ctxOk ctx && decide (step < 2 ^ 32)) fun t h => h.note t ctx (.mark .updateBegin step)
/-- STEP_END (R381). -/
def execStepEnd (ctx step : Nat) (s : State) : Out :=
  s.liftIf (ctxOk ctx && decide (step < 2 ^ 32)) fun t h => h.note t ctx (.mark .stepEnd step)

/-- A context at a tick (R342, R343, R345): its counter, and the entries that reach their budgets. DEDUCED (assumption
24): the counter an entry stores is what the first tick after its dispatch leaves, which gives R343's bounds. -/
def CtxX.tick (t : Nat) (now : Bool) (x : CtxX) : CtxX :=
  let u := if x.held || now then x.u else x.u + 1
  { x with
    u := u
    held := now
    inflight := x.inflight.map fun k =>
      let k := { k with u0 := some (k.u0.getD u) }
      if !k.expired && k.due.isNone && (k.budget.map fun b => decide (b ≤ unheld u k)).getD false then
        { k with due := some t }
      else k }

/-- A tick of wheel `p`. A context without entries needs no counter. -/
def Hub.wheelTick (t p : Nat) (h : Hub) : Hub :=
  let h := (h.settleWheel p).modNode p fun x => { x with tickAt := t }
  { h with ctxs := h.ctxs.map fun e =>
      if h.homeOf e.1 = p ∧ !e.2.inflight.isEmpty then (e.1, e.2.tick t (h.heldNow e.1)) else e }

/-- When wheel `p` ticks next (R342). -/
def Hub.tickDue (h : Hub) (p : Nat) : Nat := (h.node p).tickAt + us 1

/-- WHEEL_TICK (R342). -/
def execWheelTick (node : Nat) (s : State) : Out :=
  if node < 8 then s.liftAt (some (s.hub.tickDue node)) fun t h => h.wheelTick t node else .refused .illFormed

/-- COMMAND_EXPIRY (R346): the wheel carries out the expiry of an entry that reached its budget at a tick. -/
def execCommandExpiry (node ctx seq : Nat) (s : State) : Out :=
  s.liftIf (decide (node < 8) && ctxOk ctx) fun _ h =>
    if h.homeOf ctx ≠ node then h
    else
      match (h.ctx ctx).inflight.find? fun k => k.seq = seq && k.due.isSome && !k.expired with
      | some k => h.expire node ctx k (k.due.getD 0)
      | none => h

/-! ### Group HWT (R338, R344, R350) -/

/-- The copies of a register with a shadow value waiting. -/
def Hub.stagedCopies (h : Hub) (r : Reg) : List Nat :=
  (h.shadow.filter fun e => e.1 % 256 = r.ctorIdx).map fun e => e.1 / 256
/-- A context's settings are refused (R350). -/
def hwtBad (mode factor budget : Nat) : Bool :=
  mode == 3 || (mode == 2 && factor == 0) || (mode != 0 && budget == 0)
/-- The ARM of group HWT is refused with RESERVED (R350). -/
def Hub.hwtRefused (h : Hub) : Bool :=
  decide (h.shGet F.HWT_CFG_ceiling_us < h.shGet F.HWT_CFG_floor_us) ||
    (h.stagedCopies .HWT_CTX_CFG).any fun c =>
      hwtBad (h.shGet F.HWT_CTX_CFG_mode c) (h.shGet F.HWT_CTX_CFG_factor c) (h.shGet F.HWT_CTX_CFG_budget_us c)

/-- The contexts homed on a wheel: those whose registers say so, and for wheel 0 the rest. -/
def Hub.homedOn (h : Hub) (p : Nat) : Nat :=
  let listed := (h.regs.filter fun e => e.1 % 256 = Reg.HWT_CTX_CFG.ctorIdx).map fun e => e.1 / 256
  (listed.filter fun c => h.homeOf c = p).length + (if p = 0 then 2048 - listed.length else 0)

/-- A context's settings come into force: leaving OFF restarts its entries (R344). -/
def Hub.hwtContext (c : Nat) (h : Hub) : Hub :=
  let old := h.hwtMode c
  let h := h.applyShadow .HWT_CTX_CFG [c]
  if old = 0 ∧ h.hwtMode c ≠ 0 then
    h.modCtx c fun x => { x with inflight := x.inflight.map fun k => { k with u0 := some x.u, budget := h.budgetOf c k.cls } }
  else h

/-- Group HWT comes into force (R338, R344). -/
def Hub.hwtApply (t : Nat) (h : Hub) : Hub :=
  let h := (List.range 8).foldl (fun h p => h.settleWheel p) h
  let h := h.applyShadow .HWT_CFG [0]
  let h := (h.stagedCopies .HWT_CTX_CFG).foldl (fun h c => h.hwtContext c) h
  let h := (List.range 8).foldl (fun h p => (h.sput F.HWT_WHEEL_homed p 0 (h.homedOn p)).showWheel p) h
  h.letIn t

/-! ### Estimators and status (R349, R343) -/

/-- A write to HWT_EST_SEL: it selects an estimator for the master, and with `reset` zeroes it (R349). -/
def cmdEstSel (m : Master) (c cls : Nat) (reset : Bool) : RegCmd :=
  plainCmd (decide (8 < cls)) fun _ h =>
    let h := h.modMaster m fun x => { x with estSel := some (c, cls) }
    if reset then h.modCtx c (CtxX.setEst cls (0, 0)) else h
/-- EST_SELECT (R349). -/
def execEstSelect (m : Master) (ctx cls : Nat) (s : State) : Out :=
  if ctxOk ctx ∧ cls < 16 then s.cmd m 3 (cmdEstSel m ctx cls false) else .refused .illFormed
/-- EST_RESET (R349). -/
def execEstReset (m : Master) (ctx cls : Nat) (s : State) : Out :=
  if ctxOk ctx ∧ cls < 16 then s.cmd m 3 (cmdEstSel m ctx cls true) else .refused .illFormed

/-- HWT_EST as master copy `i` reads it. -/
def Hub.estWord (h : Hub) (sel : Option (Nat × Nat)) : Word :=
  match sel with
  | none => 0
  | some (c, cls) =>
    let e := (h.ctx c).est cls
    BitVec.ofNat 64 (unlog (e.1 / 1024) % 2 ^ 32 + e.1 / 1024 % 2 ^ 13 * 2 ^ 32 + e.2 * 2 ^ 45)

/-- HWT_CTX_STATUS_c (R342, R343). DEDUCED (assumption 25): the codes in the order OFF, IDLE, EXPIRED, PAUSED,
RUNNING. -/
def Hub.ctxStatusWord (h : Hub) (c : Nat) : Word :=
  let x := h.ctx c
  let held := h.heldNow c
  let st := if h.hwtMode c = 0 then 4 else if x.inflight.isEmpty then 0
    else if x.inflight.any (fun k => k.expired) then 3 else if held then 2 else 1
  let left := match x.watched with
    | some k => k.budget.getD 0 - unheld x.u k
    | none => 0
  BitVec.ofNat 64 (st + b2n held * 8 + x.inflight.length * 16 + left * 2 ^ 16)

end Sys2Proof.Machine
end

