-- ==== Sys2Proof/Machine/RunCmds.lean ====
section
/-! DEFINITION. The commands of run control: HALT, RUN and STEP (R118 to R120, R123) and HRT_RC_CMD (R199). -/

namespace Sys2Proof.Machine

open Sys2Proof

/-- HALT, RUN and STEP write rd whatever their status: zero when they are refused (R90, R120). -/
def Hub.endRun (c : Nat) (rd : RegNo) (st : Status) (h : Hub) : Effect := .done ((h.setGpr c rd 0).setStatus c st)

/-- HALT, RUN or STEP of core `c` (R118 to R120): the refusals of R567, of which staging checks no NO_UNIT (R430), staging
(R109), and the command, in which the core waits. -/
def effRunControl (t c : Nat) (op : RunOp) (rd : RegNo) (arg : Word) (group nowait : Bool) (count : Nat) (h : Hub) :
    Effect :=
  let target := if group then bits arg.toNat 0 8 else bits arg.toNat 0 16
  let spare := if group then bits arg.toNat 8 56 else bits arg.toNat 16 48
  if spare ≠ 0 ∨ (op = .step ∧ (count = 0 ∨ 65535 < count)) then h.endRun c rd .reserved
  else if !group && !unitOk target && (h.openTxn (.core c)).isNone then h.endRun c rd .noUnit
  else if h.coreLevel c < 3 then (h.authRefused).endRun c rd .auth
  else
    match h.openTxn (.core c) with
    | some x =>
      let r := h.stage x (.run op target group count)
      r.2.endRun c rd r.1
    | none =>
      if h.retired ∧ (group ∨ h.spokeOn (dieOf target)) then h.endRun c rd .retired
      else .stay ((h.modCore c fun x => { x with wait := .runControl rd h.nextCmd }).issueRun t op target group nowait
        count (causeBy (.core c)) (.core c rd))

/-- HALT (R118, R119). -/
def execHalt (c : Nat) (rd rs1 : RegNo) (group nowait : Bool) (s : State) : Out :=
  s.instr c fun t h => sEffect rd (effRunControl t c .halt rd (h.gpr c rs1) group nowait 0 h)

/-- RUN (R118); NOWAIT has no meaning for it. -/
def execRun (c : Nat) (rd rs1 : RegNo) (group _nowait : Bool) (s : State) : Out :=
  s.instr c fun t h => sEffect rd (effRunControl t c .run rd (h.gpr c rs1) group false 0 h)

/-- STEP (R118, R184 to R188). -/
def execStep (c : Nat) (rd rs1 rs2 : RegNo) (group : Bool) (s : State) : Out :=
  s.instr c fun t h => sEffect rd (effRunControl t c .step rd (h.gpr c rs1) group false (h.gpr c rs2).toNat h)

/-- Hearth scratch of the active Hearth (R35). -/
def scratchBase : Nat := 0x40000000
/-- The buffer of `n` bytes at `a` lies in Hearth scratch. -/
def inScratch (a n : Nat) : Bool := decide (scratchBase ≤ a) && decide (a + n ≤ scratchBase + 0x800000)

/-- The bytes of a result-vector buffer with a capacity. -/
def vectorBytes (cap : Nat) : Nat := if cap = 0 then 0 else 8 + 4 * cap

/-- The refusal of a write to HRT_RC_CMD that comes before its level: a reserved encoding (R102, R566). -/
def rcReserved (op : RunOp) (target : Nat) (group nowait : Bool) (count : Nat) : Bool :=
  decide ((group ∧ 255 < target) ∨ (op ≠ .halt ∧ nowait) ∨ (op ≠ .step ∧ count ≠ 0) ∨ (op = .step ∧ count = 0))

/-- What a command of HRT_RC_CMD ends with before it starts, in HRT_RC_RESULT (R566): a result-vector buffer that leaves
Hearth scratch (R199), a unit that is not populated (R5), and RETIRED, which a unit of a powered-off spoke precedes
(R46, R567). -/
def Hub.rcRefusal (h : Hub) (m : Master) (target : Nat) (group : Bool) : Option Status :=
  let cap := h.get F.HRT_RC_RVEC_capacity m.idx
  if cap ≠ 0 ∧ !inScratch (h.get F.HRT_RC_RVEC_addr m.idx) (vectorBytes cap) then some .unmapped
  else if !group ∧ !unitOk target then some .noUnit
  else if h.retired ∧ (group ∨ h.spokeOn (dieOf target)) then some .retired
  else none

/-- The outcome of a command that ends before it starts reaches HRT_RC_RESULT (R566). -/
def Hub.rcEnds (m : Master) (st : Status) (h : Hub) : Hub :=
  (h.put F.HRT_RC_RESULT_status m.idx st.code).put F.HRT_RC_RESULT_count m.idx 0 |>.put F.HRT_RC_RESULT_done m.idx 1

/-- A write to HRT_RC_CMD (R199). -/
def cmdRunControl (m : Master) (op : RunOp) (target : Nat) (group nowait : Bool) (count : Nat) : RegCmd :=
  { pre := fun _ => if rcReserved op target group nowait count then some .reserved else none
    txn := .act (.run op target group count)
    body := fun t h =>
      if (h.master m).rcCmd.isSome then (.busy, h)
      else
        match h.rcRefusal m target group with
        | some st => (.ok, h.rcEnds m st)
        | none =>
          let k := h.nextCmd
          let h := (h.put F.HRT_RC_RESULT_done m.idx 0).modMaster m fun x => { x with rcCmd := some k }
          (.ok, h.issueRun t op target group nowait count (causeBy m) (.reg m)) }

/-- RC_CMD_HALT (R199). -/
def execRcCmdHalt (m : Master) (target : Nat) (group nowait : Bool) (s : State) : Out :=
  if target < 65536 then s.cmd m 3 (cmdRunControl m .halt target group nowait 0) else .refused .illFormed

/-- RC_CMD_RUN (R199). -/
def execRcCmdRun (m : Master) (target : Nat) (group : Bool) (s : State) : Out :=
  if target < 65536 then s.cmd m 3 (cmdRunControl m .run target group false 0) else .refused .illFormed

/-- RC_CMD_STEP (R199). -/
def execRcCmdStep (m : Master) (target : Nat) (group : Bool) (count : Nat) (s : State) : Out :=
  if target < 65536 ∧ count < 65536 then s.cmd m 3 (cmdRunControl m .step target group false count)
  else .refused .illFormed

end Sys2Proof.Machine
end

