-- ==== Sys2Proof/Machine/WaitFor.lean ====
section
/-! DEFINITION. The wait-for engine (R351 to R360): objects, waits, orphans, the graph, its roots and its reports. -/

namespace Sys2Proof.Machine

open Sys2Proof

/-! ### Objects (R351, R352) -/

/-- Sync object `o`. -/
def Hub.obj (h : Hub) (o : Nat) : ObjX := aGet (fun _ => {}) h.wfg.objs o
/-- The tracked waits, with their objects. -/
def Hub.waits (h : Hub) : List (Nat × Waiter) := h.wfg.objs.flatMap fun e => e.2.waiters.map fun w => (e.1, w)
/-- The object has a value, a producer or a waiter (WFG_STATUS.objects). -/
def ObjX.known (x : ObjX) : Bool :=
  x.lastSig.isSome || x.declared.isSome || x.lastBy.isSome || x.value != 0 || !x.waiters.isEmpty
/-- WFG_STATUS follows the objects. -/
def Hub.showWfg (h : Hub) : Hub :=
  (h.put F.WFG_STATUS_objects 0 (h.wfg.objs.filter fun e => e.2.known).length).put F.WFG_STATUS_waits 0 h.waits.length
    |>.put F.WFG_STATUS_stale 0 (sat 16 (h.wfg.objs.filter fun e => e.2.stale).length)
/-- Change sync object `o`. -/
def Hub.modObj (o : Nat) (f : ObjX → ObjX) (h : Hub) : Hub :=
  Hub.showWfg { h with wfg := { h.wfg with objs := aPut (fun _ => {}) o (f (h.obj o)) h.wfg.objs } }
/-- The producer of an object (R352): a remote chip (true) or a context, by number. -/
def ObjX.producer (x : ObjX) : Option (Bool × Nat) := x.declared.orElse fun _ => x.lastBy

/-! ### Contexts, edges and orphans (R353 to R355) -/

/-- The state of a context, by its code (R353). -/
def Hub.ctxState (h : Hub) (c : Nat) : Nat :=
  let x := h.ctx c
  if h.fenced (h.homeOf c) then 4
  else if x.faulted then 3
  else if (h.carriers c).any fun u => (h.runState u).isHalted then 2
  else if x.inflight.any fun k => k.expired then 5
  else if x.inflight.isEmpty then 1
  else 0

/-- A node of the graph (R354). -/
inductive GNode where
  | ctx (n : Nat)
  | chip (n : Nat)
  | obj (n : Nat)
  deriving DecidableEq, Repr

/-- The contexts the engine knows. -/
def Hub.knownCtxs (h : Hub) : List Nat :=
  (aKeys h.ctxs ++ h.waits.map fun e => e.2.ctx).foldl (fun l c => if l.contains c then l else l ++ [c]) []
/-- The context that holds an object: a unit carrying its work is HALTED_HOLDING with that object (R354, R183). -/
def Hub.holderOf (h : Hub) (o : Nat) : Option Nat :=
  h.knownCtxs.find? fun c => (h.carriers c).any fun u =>
    h.runState u == .haltedHolding && h.uget F.SPK_UNIT_STATE_hold_sync u == o

/-- An edge (R354): its wait, its object, where it leads, and whether it leads to a holder. -/
structure Edge where
  o : Nat
  w : Waiter
  dest : GNode
  holding : Bool
  deriving DecidableEq, Repr

/-- The edge that a wait draws, once it is older than edge_after_us (R354). -/
def Hub.edgeOf (h : Hub) (t : Nat) (e : Nat × Waiter) : Option Edge :=
  if t - e.2.began ≤ us (h.get F.WFG_CFG_edge_after_us) then none
  else
    match h.holderOf e.1 with
    | some c => some { o := e.1, w := e.2, dest := .ctx c, holding := true }
    | none =>
      some { o := e.1, w := e.2, holding := false
             dest := match (h.obj e.1).producer with
               | some (true, n) => .chip n
               | some (false, n) => .ctx n
               | none => .obj e.1 }

/-- WFG_PEER's state of a chip (R355): the lowest valid entry; a chip with none counts as progressing. -/
def Hub.peerState (h : Hub) (chip : Nat) : Nat :=
  match (List.range 256).find? fun i => h.flag F.WFG_PEER_valid i && h.get F.WFG_PEER_chip_id i == chip with
  | some i => h.get F.WFG_PEER_state i
  | none => 0

/-- The orphan reason of a wait (R355); 0 for none. -/
def Hub.orphanReason (h : Hub) (t : Nat) (e : Nat × Waiter) : Nat :=
  if t - e.2.began ≤ us (h.get F.WFG_CFG_orphan_after_us) then 0
  else
    let x := h.obj e.1
    let holding := ((h.edgeOf t e).map Edge.holding).getD false
    match x.producer with
    | some (false, c) =>
      let st := h.ctxState c
      if st = 2 then 1 else if holding then 2 else if st = 3 then 3 else if st = 4 then 4 else if st = 1 then 5 else 0
    | some (true, n) =>
      let heard := max ((aFind n x.chipSig).getD 0) e.2.began
      if holding then 2
      else if ms (h.get F.WFG_CFG_silence_ms) ≤ t - heard then 6
      else
        match h.peerState n with
        | 1 => 7
        | 2 => 8
        | 3 => 9
        | _ => 0
    | none => if holding then 2 else 0

/-- The chip an object waits for. -/
def ObjX.remote (x : ObjX) : Option Nat :=
  match x.producer with
  | some (true, n) => some n
  | _ => none

/-- Microseconds since an instant, as a 32-bit field holds them. -/
def ageUs (t began : Nat) : Nat := sat 32 ((t - began) / us 1)
/-- The age of an object's oldest wait in µs. -/
def ObjX.oldest (x : ObjX) (t : Nat) : Nat := x.waiters.foldl (fun n w => max n (ageUs t w.began)) 0

/-- A cross-chip orphan report (R356). -/
def Hub.orphanReport (t kind o chip waiting reason age : Nat) (h : Hub) : Hub :=
  let n := h.wfg.seq
  { h with wfg := { h.wfg with seq := (n + 1) % 2 ^ 16 } }.notify t
    { type := 2, agent := none
      body := bytesLE 1 1 ++ bytesLE 1 kind ++ bytesLE 2 n ++ bytesLE 4 0 ++ bytesLE 8 t ++ bytesLE 2 o ++ bytesLE 2 chip
        ++ bytesLE 2 (h.get F.WFG_CFG_chip_id) ++ bytesLE 2 waiting ++ bytesLE 1 reason ++ bytesLE 3 0 ++ bytesLE 4 age }

/-- The different contexts among some waits. -/
def ctxsOf (l : List Waiter) : List Nat :=
  l.foldl (fun (s : List Nat) w => if s.contains w.ctx then s else s ++ [w.ctx]) []

/-- The waits of an object that the engine goes on tracking: a wait on a FENCE ends when its value reaches the awaited
one (R352). DEDUCED (assumption 26): a value at or above the awaited one reaches it. -/
def ObjX.live (x : ObjX) : ObjX :=
  { x with waiters := x.waiters.filter fun w => x.semaphore || decide (x.value < w.value) }
/-- The orphans among an object's waits that wait for a remote chip (R356). -/
def ObjX.remoteOrphans (x : ObjX) : List Waiter := if x.remote.isSome then x.waiters.filter fun w => w.orphan ≠ 0 else []
/-- The same wait, whatever its orphan reason. -/
def Waiter.same (a b : Waiter) : Bool := decide ({ a with orphan := 0 } = { b with orphan := 0 })

/-- The cross-chip orphan reports that a change of object `o` from `x` to `y` makes (R356): a report for each wait on a
remote chip that becomes an orphan, and one when the last such orphan ends, be it that its wait ended, that it is no
orphan any more, or that the object's producer is no longer that chip. -/
def Hub.orphanReports (t o : Nat) (x y : ObjX) (h : Hub) : Hub :=
  let stays := decide (x.remote = y.remote)
  let old := x.remoteOrphans
  let new := y.remoteOrphans
  let n := (ctxsOf y.waiters).length
  let h := match x.remote with
    | some chip => if !old.isEmpty && (!stays || new.isEmpty) then h.orphanReport t 2 o chip n 0 (y.oldest t) else h
    | none => h
  match y.remote with
  | some chip =>
    (new.filter fun w => !(stays && old.any w.same)).foldl (fun h w => h.orphanReport t 1 o chip n w.orphan (y.oldest t)) h
  | none => h

/-- Object `o` changes: the waits that have ended go, the orphan reasons of the others are brought up to date (R355), a
change among the orphans starts an analysis (R358), and remote ones are reported (R356). -/
def Hub.changeObj (t o : Nat) (f : ObjX → ObjX) (h : Hub) : Hub :=
  let x := h.obj o
  let y := (f x).live
  let h := if y = x then h else h.modObj o fun _ => y
  let z := { y with waiters := y.waiters.map fun w => { w with orphan := h.orphanReason t (o, w) } }
  let h := if z = y then h else h.modObj o fun _ => z
  let orphans := fun (a : ObjX) => a.waiters.filter fun w => w.orphan ≠ 0
  let h := if orphans x = orphans z then h else h.wantAnalysis 0 none
  h.orphanReports t o x z

/-- The engine looks at every object again (R355). -/
def Hub.sweep (t : Nat) (h : Hub) : Hub := h.wfg.objs.foldl (fun h e => h.changeObj t e.1 id) h

/-- Waits of an object end. -/
def Hub.endWaits (t o : Nat) (p : Waiter → Bool) (h : Hub) : Hub :=
  h.changeObj t o fun x => { x with waiters := x.waiters.filter fun w => !p w }

/-! ### Reports (R351) -/

/-- A report that finds its spoke's buffer full is discarded, and its object becomes STALE (R351). -/
def Hub.reportLost (o : Nat) (h : Hub) : Hub := h.modObj o fun x => { x with stale := true }

/-- A signal (R351, R352): the value and the producer, and with them the fence waits that end. -/
def Hub.signal (t o value : Nat) (chip : Bool) (src engine : Nat) (h : Hub) : Hub :=
  h.changeObj t o fun x => { x with
    value := value, lastSig := some t, lastBy := some (chip, src), engine := some engine
    chipSig := if chip then aPut (fun _ => 2 ^ 64) src t x.chipSig else x.chipSig }

/-- The wait-for engine tracks a wait, if it has room: a wait beyond 8,192 is not tracked (R352). -/
def Hub.track (o : Nat) (w : Waiter) (h : Hub) : Hub :=
  if 8192 ≤ h.waits.length then h.put F.WFG_STATUS_overflow 0 1
  else h.modObj o fun x => { x with waiters := x.waiters ++ [w] }

/-- A wait begins (R352): a FENCE wait whose value is reached has ended. -/
def Hub.beginWait (t o value ctx unit engine : Nat) (h : Hub) : Hub :=
  let h := h.modObj o fun x => { x with engine := some engine }
  let x := h.obj o
  if !x.semaphore && decide (value ≤ x.value) then h
  else
    let h := h.track o { ctx, unit, value, began := t }
    if (h.runState unit).still then h.modCtx ctx fun x => { x with held := true } else h

/-- A report's operands are in range. -/
def reportOk (o value engine : Nat) : Bool := decide (o < 65536) && decide (value < 2 ^ 32) && unitOk engine

/-- SYNC_SIGNAL_REPORT (R351): from a context, or with `chip` over a fabric link; `lost` when the spoke's buffer was
full. -/
def execSyncSignalReport (obj value : Nat) (chip : Bool) (src engine : Nat) (lost : Bool) (s : State) : Out :=
  s.liftIf (reportOk obj value engine && decide (src < if chip then 65536 else 2048)) fun t h =>
    if lost then h.reportLost obj else (h.signal t obj value chip src engine).sweep t

/-- WAIT_BEGIN_REPORT (R351). -/
def execWaitBeginReport (obj value ctx unit engine : Nat) (lost : Bool) (s : State) : Out :=
  s.liftIf (reportOk obj value engine && ctxOk ctx && unitOk unit) fun t h =>
    if lost then h.reportLost obj else (h.beginWait t obj value ctx unit engine).sweep t

/-- WAIT_END_REPORT (R351). -/
def execWaitEndReport (obj value ctx unit engine : Nat) (lost : Bool) (s : State) : Out :=
  s.liftIf (reportOk obj value engine && ctxOk ctx && unitOk unit) fun t h =>
    if lost then h.reportLost obj
    else ((h.modObj obj fun x => { x with engine := some engine }).endWaits t obj fun w =>
      w.ctx = ctx ∧ w.unit = unit ∧ w.value = value).sweep t

/-- An object that became STALE at a partition reset waits for that partition's unfence (R360). -/
def Hub.rereadBarred (h : Hub) (x : ObjX) : Bool := (x.resetOf.map h.fenced).getD false

/-- The engine re-reads a STALE object's value and waiters (context, unit, awaited value) and clears the mark (R351),
after a partition reset only once the partition is unfenced (R360). A wait it already tracks keeps its begin. -/
def Hub.reread (t o value : Nat) (ws : List (Nat × Nat × Nat)) (h : Hub) : Hub :=
  let x := h.obj o
  if !x.stale || h.rereadBarred x then h
  else
    let h := h.changeObj t o fun x => { x with
      value := value, stale := false, resetOf := none
      waiters := x.waiters.filter fun w => ws.contains (w.ctx, w.unit, w.value) }
    let old := (h.obj o).waiters
    let fresh := ws.filter fun e => !old.any fun w => (w.ctx, w.unit, w.value) = e
    (fresh.foldl (fun h e => h.track o { ctx := e.1, unit := e.2.1, value := e.2.2, began := t }) h).changeObj t o id

/-- STALE_REREAD (R351). -/
def execStaleReread (obj value : Nat) (waiters : List (Nat × Nat × Nat)) (s : State) : Out :=
  s.liftIf (decide (obj < 65536) && decide (value < 2 ^ 32) &&
      waiters.all fun e => ctxOk e.1 && unitOk e.2.1 && decide (e.2.2 < 2 ^ 32)) fun t h =>
    (h.reread t obj value waiters).sweep t

/-- WAIT_AGE_THRESHOLD (R355): the engine looks at its waits again. The spec does not say when it sees a change of a
producer's state; here it looks at each of its own events and at each idle tick. DESIGN CHOICE (assumption 27). -/
def execWaitAgeThreshold (obj ctx unit : Nat) (s : State) : Out :=
  s.liftIf (decide (obj < 65536) && ctxOk ctx && unitOk unit) fun t h => h.sweep t

/-- A partition reset (R360): its objects become STALE, and the waits of its units end. -/
def Hub.partitionSync (t p : Nat) (h : Hub) : Hub :=
  let mine := fun u => nodeOf (dieOf u) == p
  h.wfg.objs.foldl (fun h e => h.changeObj t e.1 fun x =>
    let x := { x with waiters := x.waiters.filter fun w => !mine w.unit }
    if (x.engine.map mine).getD false then { x with stale := true, resetOf := some p } else x) h

/-! ### Naming the root (R357) -/

/-- The nodes one edge further than a set. -/
def grow (es : List Edge) (l : List GNode) : List GNode :=
  es.foldl (fun s e => if s.contains (.ctx e.w.ctx) && !s.contains e.dest then s ++ [e.dest] else s) l
/-- Everything a node reaches along edges, itself included. -/
def reaches (es : List Edge) (n : GNode) : List GNode := (List.range (es.length + 1)).foldl (fun l _ => grow es l) [n]
/-- The nodes at the ends of edges, once each. -/
def nodesOf (es : List Edge) : List GNode :=
  (es.flatMap fun e => [GNode.ctx e.w.ctx, e.dest]).foldl (fun l n => if l.contains n then l else l ++ [n]) []

/-- A candidate (R357): its members, blocked and direct counts, and its oldest wait. -/
structure Candidate where
  members : List GNode
  blocked : Nat
  direct : Nat
  oldest : Nat
  deriving DecidableEq, Repr

/-- The kind of a candidate (R357): 1 LOCAL, 2 CYCLE, 3 REMOTE, 4 UNPRODUCED. -/
def Candidate.kind (c : Candidate) : Nat :=
  match c.members with
  | [.ctx _] => 1
  | [.chip _] => 3
  | [.obj _] => 4
  | _ => 2
/-- The tie order of the kinds. -/
def Candidate.rank (c : Candidate) : Nat :=
  match c.kind with
  | 2 => 0
  | 1 => 1
  | k => k - 1
/-- A node's number. -/
def GNode.num : GNode → Nat
  | .ctx n | .chip n | .obj n => n
/-- The lowest number among a candidate's members. -/
def Candidate.low (c : Candidate) : Nat := (c.members.map GNode.num).foldl min (2 ^ 16)

/-- The begin of the oldest wait among edges. -/
def oldestOf (es : List Edge) : Nat := (es.map fun e => e.w.began).foldl min (2 ^ 64)
/-- The waiting contexts of edges, once each. -/
def waitersOf (es : List Edge) : List Nat := ctxsOf (es.map Edge.w)

/-- The component of a node, when no edge leaves it: every node it reaches reaches it (R357). -/
def sinkOf (es : List Edge) (n : GNode) : Option (List GNode) :=
  let l := reaches es n
  if l.all fun m => (reaches es m).contains n then some l else none

/-- A sink component as a candidate: its oldest wait is the oldest of those that lead to it. -/
def candidate (es : List Edge) (l : List GNode) : Candidate :=
  let from_ := es.filter fun e => (reaches es (.ctx e.w.ctx)).any l.contains
  let into := es.filter fun e => (reaches es e.dest).any l.contains
  let direct := es.filter fun e => l.contains e.dest && !l.contains (.ctx e.w.ctx)
  { members := l, blocked := (waitersOf from_).length, direct := (waitersOf direct).length, oldest := oldestOf into }

/-- The candidates, each component once. -/
def candidates (es : List Edge) : List Candidate :=
  ((nodesOf es).foldl (fun (s : List (List GNode)) n =>
    if s.any fun l => l.contains n then s
    else match sinkOf es n with
      | some l => s ++ [l]
      | none => s) []).map (candidate es)

/-- `a` goes before `b` as the root (R357). -/
def rootBefore (a b : Candidate) : Bool :=
  decide (b.blocked < a.blocked) || (a.blocked == b.blocked && (decide (a.rank < b.rank) || (a.rank == b.rank &&
    (decide (a.oldest < b.oldest) || (a.oldest == b.oldest && decide (a.low < b.low))))))
/-- The root. -/
def rootOf (es : List Edge) : Option Candidate :=
  (candidates es).foldl (fun b c =>
    match b with
    | none => some c
    | some x => if rootBefore c x then some c else some x) none

/-- The context that names a LOCAL or CYCLE root: of a cycle, the member whose oldest wait began first (R357). -/
def rootCtx (es : List Edge) (c : Candidate) : Option Nat :=
  match c.kind with
  | 1 => some c.low
  | 2 =>
    let when := fun n => oldestOf (es.filter fun e => e.w.ctx = n)
    (c.members.map GNode.num).foldl (fun b n =>
      match b with
      | none => some n
      | some x => if when n < when x ∨ (when n = when x ∧ n < x) then some n else some x) none
  | _ => none

/-- The object with the most direct waiters into the root, the lowest on a tie (WFG_ROOT_AUX). -/
def mainObject (es : List Edge) (c : Candidate) : Nat :=
  let direct := es.filter fun e => c.members.contains e.dest && !c.members.contains (.ctx e.w.ctx)
  let n := fun o => (waitersOf (direct.filter fun e => e.o = o)).length
  ((direct.map Edge.o).foldl (fun (b : Option Nat) o =>
    match b with
    | none => some o
    | some x => if n x < n o ∨ (n x = n o ∧ o < x) then some o else some x) none).getD 0

/-! ### An analysis (R358, R359) -/

/-- The edges of the graph now. -/
def Hub.edges (h : Hub) (t : Nat) : List Edge := h.waits.filterMap (h.edgeOf t)

/-- An analysis writes WFG_ROOT, WFG_ROOT_AUX and WFG_ROOT_TIME together (R357, R358). -/
def Hub.nameRoot (t trigger : Nat) (h : Hub) : Hub :=
  let es := h.edges t
  let root := rootOf es
  let rc := root.bind (rootCtx es)
  let partial_ := h.flag F.WFG_STATUS_overflow || es.any fun e => (h.obj e.o).stale
  let chip := match root.map Candidate.members with
    | some [.chip n] => n
    | _ => 0
  let r := fun (f : Candidate → Nat) => (root.map f).getD 0
  h.put F.WFG_ROOT_root 0 (rc.getD 0)
    |>.put F.WFG_ROOT_kind 0 (r Candidate.kind)
    |>.put F.WFG_ROOT_root_state 0 ((rc.map h.ctxState).getD 0)
    |>.putB F.WFG_ROOT_incomplete 0 partial_
    |>.put F.WFG_ROOT_blocked 0 (r Candidate.blocked)
    |>.put F.WFG_ROOT_direct 0 (r Candidate.direct)
    |>.put F.WFG_ROOT_trigger 0 trigger
    |>.put F.WFG_ROOT_valid 0 1
    |>.put F.WFG_ROOT_AUX_chip 0 chip
    |>.put F.WFG_ROOT_AUX_object 0 (r (mainObject es))
    |>.put F.WFG_ROOT_AUX_orphans 0 (sat 16 (h.waits.filter fun e => e.2.orphan ≠ 0).length)
    |>.put F.WFG_ROOT_AUX_cycle_len 0 (r fun c => if c.kind = 2 then sat 8 c.members.length else 0)
    |>.put F.WFG_ROOT_TIME_time 0 t
    |>.bump F.WFG_STATUS_analyses 0 1

/-- The 24-byte entry of an edge in a dump (R359). -/
def Hub.edgeEntry (h : Hub) (es : List Edge) (e : Edge) : List Byte :=
  let (kind, st) := match e.dest with
    | .ctx c => (0, h.ctxState c)
    | .chip _ => (1, 0)
    | .obj _ => (2, 0)
  let cyc := (reaches es e.dest).contains (.ctx e.w.ctx)
  bytesLE 2 e.w.ctx ++ bytesLE 2 e.o ++ bytesLE 2 e.dest.num ++ bytesLE 1 (kind + 4 * b2n cyc + 16 * e.w.orphan)
    ++ bytesLE 1 st ++ bytesLE 8 e.w.began ++ bytesLE 4 e.w.value ++ bytesLE 2 e.w.unit ++ bytesLE 2 0

/-- The edges in ascending order of their waiting contexts. -/
def sortEdges : List Edge → List Edge
  | [] => []
  | e :: l => ins e (sortEdges l)
where
  /-- Insert an edge. -/
  ins (e : Edge) : List Edge → List Edge
    | [] => [e]
    | f :: l => if e.w.ctx ≤ f.w.ctx then e :: f :: l else f :: ins e l

/-- The report of a dump (R359), with the registers of the analysis `a` that made it. -/
def Hub.dumpReport (h a : Hub) (t capacity : Nat) : List Byte :=
  let es := sortEdges (h.edges t)
  bytesLE 2 1 ++ bytesLE 2 es.length ++ bytesLE 4 0 ++ bytesLE 8 t ++ bytesLE 8 (a.reg .WFG_ROOT 0).toNat
    ++ bytesLE 8 (a.reg .WFG_ROOT_AUX 0).toNat ++ (es.take capacity).flatMap (h.edgeEntry es)

/-- The analysis under way ends and the one further starts (R358); its dumps are written before the registers (R359). -/
def Hub.endAnalysis (t : Nat) (h : Hub) : Hub :=
  match h.wfg.wanted with
  | none => h
  | some a =>
    let h := h.sweep t
    let h := { h with wfg := { h.wfg with wanted := h.wfg.further, further := none } }
    let r := h.nameRoot t a.trigger
    a.dumps.foldl (fun r d => r.setBytes d.1 (h.dumpReport r t d.2)) r
/-- What a read of WFG_ROOT waits for: the analysis under way (R358), and one further that writes a dump (R359). -/
def Hub.endReadAnalyses (t : Nat) (h : Hub) : Hub :=
  let dumps := (h.wfg.further.map fun a => !a.dumps.isEmpty).getD false
  let h := h.endAnalysis t
  if dumps then h.endAnalysis t else h

/-- WFG_ANALYSIS (R358). -/
def execWfgAnalysis (s : State) : Out := s.lift fun t h => h.endAnalysis t

/-- A write of WFG_CMD with op ANALYZE (R358). -/
def cmdAnalyze : RegCmd := (plainCmd false fun _ h => h.wantAnalysis 0 none).alone
/-- A write of WFG_CMD with op DUMP (R359): a buffer outside Hearth scratch is refused with UNMAPPED. -/
def cmdDump (addr capacity : Nat) : RegCmd :=
  { pre := fun _ => if inScratch addr (32 + 24 * capacity) then none else some .unmapped
    txn := .refuse
    body := fun _ h => (.ok, h.wantAnalysis 0 (some (addr, capacity))) }

/-- WFG_ANALYZE (R358). Reads and commands of the engine need level 2, where its chapter names no higher one. DEDUCED
(assumption 28). -/
def execWfgAnalyze (m : Master) (s : State) : Out := s.cmd m 2 cmdAnalyze
/-- WFG_DUMP (R359): the command's address field holds an address ÷ 8. -/
def execWfgDump (m : Master) (addr capacity : Nat) (s : State) : Out :=
  if addr % 8 = 0 ∧ addr < 2 ^ 48 ∧ capacity < 65536 then s.cmd m 2 (cmdDump addr capacity) else .refused .illFormed

/-! ### WFG_OBJ_CMD (R352) -/

/-- The reason of an object's oldest orphan wait. -/
def ObjX.orphan (x : ObjX) : Nat :=
  ((x.waiters.filter fun w => w.orphan ≠ 0).foldl (fun (b : Option Waiter) w =>
    match b with
    | none => some w
    | some y => if w.began < y.began then some w else some y) none |>.map Waiter.orphan).getD 0
/-- The lowest value an object's waiters await. -/
def ObjX.awaited (x : ObjX) : Nat :=
  match x.waiters with
  | [] => 0
  | w :: l => l.foldl (fun n y => min n y.value) w.value

/-- An object's state goes to a master's WFG_OBJ registers. -/
def Hub.showObj (o i : Nat) (h : Hub) : Hub :=
  let x := h.obj o
  let p := x.producer.getD (false, 0)
  h.put F.WFG_OBJ_object i o |>.putB F.WFG_OBJ_declared i x.declared.isSome |>.putB F.WFG_OBJ_remote i p.1
    |>.putB F.WFG_OBJ_stale i x.stale |>.putB F.WFG_OBJ_kind i x.semaphore |>.put F.WFG_OBJ_producer i p.2
    |>.put F.WFG_OBJ_waiters i x.waiters.length |>.put F.WFG_OBJ_orphan i x.orphan
    |>.put F.WFG_OBJ_VAL_value i x.value |>.put F.WFG_OBJ_VAL_awaited i x.awaited
    |>.put F.WFG_OBJ_SIG_time i (x.lastSig.getD 0)

/-- WFG_OBJ_CMD op READ. -/
def cmdObjRead (m : Master) (o : Nat) : RegCmd := (plainCmd false fun _ h => h.showObj o m.idx).alone
/-- WFG_OBJ_CMD op DECLARE. -/
def cmdObjDeclare (o kind : Nat) (remote : Bool) (producer : Nat) : RegCmd :=
  (plainCmd (decide (1 < kind) || (!remote && decide (2048 ≤ producer))) fun t h =>
    (h.changeObj t o fun x => { x with semaphore := kind == 1, declared := some (remote, producer) }).sweep t).alone
/-- WFG_OBJ_CMD op FORGET: the declaration goes, and the object is a FENCE again. -/
def cmdObjForget (o : Nat) : RegCmd :=
  (plainCmd false fun t h => (h.changeObj t o fun x => { x with semaphore := false, declared := none }).sweep t).alone

/-- OBJ_READ (R352). -/
def execObjRead (m : Master) (obj : Nat) (s : State) : Out :=
  if obj < 65536 then s.cmd m 2 (cmdObjRead m obj) else .refused .illFormed
/-- OBJ_DECLARE (R352). -/
def execObjDeclare (m : Master) (obj kind : Nat) (remote : Bool) (producer : Nat) (s : State) : Out :=
  if obj < 65536 ∧ kind < 4 ∧ producer < 65536 then s.cmd m 3 (cmdObjDeclare obj kind remote producer)
  else .refused .illFormed
/-- OBJ_FORGET (R352). -/
def execObjForget (m : Master) (obj : Nat) (s : State) : Out :=
  if obj < 65536 then s.cmd m 3 (cmdObjForget obj) else .refused .illFormed

end Sys2Proof.Machine
end

