-- ==== Sys2Proof/Machine/Lanes.lean ====
section
/-! DEFINITION. The recovery lanes (R363 to R389): fence, self-refresh hold, reset, retraining, resume, unfence, and
escalation. The start of a lane and its incident capture stand in Recovery. -/

namespace Sys2Proof.Machine

open Sys2Proof

/-- Recovery lane `p`. -/
def Hub.lane (h : Hub) (p : Nat) : LaneX := aGet (fun _ => {}) h.lanes p
/-- Change recovery lane `p`. -/
def Hub.modLane (p : Nat) (f : LaneX → LaneX) (h : Hub) : Hub :=
  { h with lanes := aPut (fun _ => {}) p (f (h.lane p)) h.lanes }
/-- The step a lane is in (R363). -/
def Hub.step (h : Hub) (p : Nat) : Nat := h.sget F.ANV_RCV_STATUS_step p
/-- A lane enters a step; RCV_STATUS shows it too. -/
def Hub.setStep (p st : Nat) (h : Hub) : Hub :=
  (h.sput F.ANV_RCV_STATUS_step p 0 st).put F.RCV_STATUS_steps 0 (setBits (h.get F.RCV_STATUS_steps) (4 * p) 4 st)
/-- The units of a partition. -/
def partitionUnits (p : Nat) : List Nat := (partitionDies p).flatMap unitsOf
/-- Some die of the partition is quenched. -/
def Hub.partitionQuenched (h : Hub) (p : Nat) : Bool := (partitionDies p).any h.dieQuenched
/-- A limit of `n` ticks that does not count while a die of the partition is quenched (R387). -/
def Hub.laneCountdown (h : Hub) (t p n : Nat) : Countdown := if h.partitionQuenched p then .paused n else .runs (t + n)
/-- Mark or clear a partition as between fence and unfence (R363, R41). -/
def Hub.setFenced (p : Nat) (b : Bool) (h : Hub) : Hub :=
  h.put F.HRT_STATE_partitions_recovering 0 (setBits (h.get F.HRT_STATE_partitions_recovering) p 1 (b2n b))

/-! ### Fence (R365, R366, R382) -/

/-- A fence reaches a unit (R174, R175, R387). -/
def Hub.fenceUnit (t p u : Nat) (h : Hub) : Hub :=
  match h.runState u with
  | .running | .haltPending | .halted | .haltedHolding =>
    ((h.abandonStep t u .fenced).changeState t u .fenced (causeOf 0x12 p)).resolveAll t u .fenced
  | .quenched => h.uput F.SPK_UNIT_STATE_resume u 3
  | _ => h

/-- The boundary of partition `p` closes: its units are FENCED, and its dies are in overhead (R365, R403). -/
def Hub.closeBoundary (t p : Nat) (h : Hub) : Hub :=
  let h := h.setFenced p true
  let h := (partitionUnits p).foldl (fun h u => h.fenceUnit t p u) h
  (h.openOvh (partitionDies p) { reason := ovhRecovery }).refreshState t

/-- The affected set of a partition (R382), in ascending order. -/
def Hub.affected (h : Hub) (p : Nat) : List Nat :=
  (List.range 2048).filter fun c => h.homeOf c == p || (h.ctx c).engines.any fun u => nodeOf (dieOf u) == p

/-- The partition is classified at F (R382). -/
def Hub.classify (p : Nat) (h : Hub) : Hub :=
  let cs := h.affected p
  let bad := cs.find? fun c => h.get F.RCV_MARK_state c == 3 || h.get F.RCV_MARK_state c == 0
  let cause := match bad with
    | some c => if h.get F.RCV_MARK_state c = 3 then 1 else 2
    | none => 0
  h.sput F.ANV_RCV_STATUS_class p 0 (if bad.isSome then 2 else 1)
    |>.sput F.ANV_RCV_CLASS_affected p 0 cs.length
    |>.sput F.ANV_RCV_CLASS_first_reload p 0 (bad.getD 0)
    |>.sput F.ANV_RCV_CLASS_first_valid p 0 (b2n bad.isSome)
    |>.sput F.ANV_RCV_CLASS_reload_cause p 0 cause

/-- Partition `p` is fenced at F (R365 to R367, R378, R382). DEDUCED (assumption 29): ANV_RCV_COUNT restarts at each
fence. -/
def Hub.fence (t p reason : Nat) (fenceOnly : Bool) (h : Hub) : Hub :=
  let kind := h.get F.WFG_ROOT_kind
  let root := if kind = 1 ∨ kind = 2 then 0x8000 + h.get F.WFG_ROOT_root else 0
  let h := (h.classify p).setReg .ANV_RCV_COUNT (spokeInst .ANV_RCV_COUNT p 0) 0
  let h := (h.setStep p 2).sput F.ANV_RCV_STATUS_reason p 0 reason
    |>.sput F.ANV_RCV_STATUS_sr_a p 0 0 |>.sput F.ANV_RCV_STATUS_sr_b p 0 0
    |>.sput F.ANV_RCV_STATUS_dram_kept p 0 1 |>.sput F.ANV_RCV_STATUS_incident_skipped p 0 0
    |>.sput F.ANV_RCV_STATUS_failed_links p 0 0 |>.sput F.ANV_RCV_TIME_fence_time p 0 t
  let h := h.modLane p fun _ => { fenceOnly, drain := some (h.laneCountdown t p (us 50)), root }
  (h.closeBoundary t p).sweep t

/-! ### Escalation (R386) -/

/-- A notice of R378 or R379: its last 16 bytes. -/
def Hub.laneNotice (t kind : Nat) (tail : List Byte) (h : Hub) : Hub :=
  h.fmNotice t kind (ofBytesLE (tail.take 8)) (ofBytesLE (tail.drop 8))

/-- Partition resets begun within the window that ends at `t` (R385). -/
def Hub.resetsIn (h : Hub) (t : Nat) : Nat :=
  (h.resetStarts.filter fun s => t ≤ s + secs (h.get F.RCV_CFG_esc_window_s)).length

/-- Steps 2 to 4 of R386: the hub enters RETIRED, PEER_RETIRED is sent, and a chip warm reset is asked for; a chip reset
sequence under way does not end this RETIRED. `p` is the partition being recovered, if one is, and `step` its step. -/
def Hub.enterRetired (t : Nat) (p : Option Nat) (step cause : Nat) (h : Hub) : Hub :=
  let h := (List.range 8).foldl (fun h q => (h.setStep q 10).modLane q fun _ => {})
    { h with retired := true, seq := h.seq.map fun (x : SeqX) => { x with unretires := false } }
  let h := ((h.put F.RCV_STATUS_retire_cause 0 cause).openOvh (List.range 32) { reason := ovhRetired }).checkpoint
  let h := h.refreshState t
  let h := h.laneNotice t 4 (bytesLE 1 (p.getD 0xFF) ++ bytesLE 1 cause ++ bytesLE 1 step ++ bytesLE 1 0
    ++ bytesLE 2 (h.resetsIn t) ++ bytesLE 10 0)
  let h := (h.alert 2).notify t { type := 5, body := bytesLE 8 cause ++ bytesLE 8 t, agent := none }
  ({ h with warmReq := some (t + ms 100), retrains := [] }).sweep t
/-- The chip is escalated with a cause (R386): every partition is fenced, and the hub retires. -/
def Hub.escalate (t : Nat) (p : Option Nat) (cause : Nat) (h : Hub) : Hub :=
  if h.retired then h
  else
    (((List.range 8).filter fun q => !h.fenced q).foldl (fun h q =>
      (h.sput F.ANV_RCV_TIME_fence_time q 0 t).closeBoundary t q) h).enterRetired t p ((p.map h.step).getD 0) cause
/-- The chip reset sequence fails and escalates, under steps 2 to 4 of R386 (R556). One that was to end RETIRED asks for a
warm reset again; in a hub that is RETIRED already the request stands. -/
def Hub.sequenceFails (t cause : Nat) (h : Hub) : Hub :=
  if h.retired && !((h.seq.map SeqX.unretires).getD false) then h else h.enterRetired t none 0 cause

/-! ### Unfence (R377, R378, R381) -/

/-- The boundary of partition `p` opens: FENCED units run (R377). -/
def Hub.openBoundary (t p : Nat) (h : Hub) : Hub :=
  let h := h.setFenced p false
  let h := (partitionUnits p).foldl (fun h u =>
    if h.runState u = .fenced then h.changeState t u .running (causeOf 0x13 p) else h) h
  (h.closeOvh (partitionDies p) fun x => x.reason = ovhRecovery).refreshState t

/-- After RESUME, the marks of the contexts homed on the partition return to UNKNOWN (R381). -/
def Hub.clearMarks (p : Nat) (h : Hub) : Hub :=
  ((List.range 2048).filter fun c => h.homeOf c == p && h.reg .RCV_MARK c != 0).foldl (fun h c =>
    h.setReg .RCV_MARK c 0) h

/-- PEER_FAULT (R378). -/
def Hub.peerFault (t p : Nat) (h : Hub) : Hub :=
  let st := fun f => h.sget f p
  h.laneNotice t 3 (bytesLE 1 p ++ bytesLE 1 (st F.ANV_RCV_STATUS_class) ++ bytesLE 1 (st F.ANV_RCV_STATUS_reason)
    ++ bytesLE 1 (st F.ANV_RCV_STATUS_dram_kept) ++ bytesLE 2 (h.lane p).root ++ bytesLE 2 (h.lane p).resets
    ++ bytesLE 4 (sat 32 ((t - st F.ANV_RCV_TIME_fence_time + ms 1 / 2) / ms 1))
    ++ bytesLE 1 (st F.ANV_RCV_STATUS_failed_links) ++ bytesLE 3 0)

/-- Partition `p` is unfenced (R377); `full` after RESUME, else from HELD. -/
def Hub.unfence (t p : Nat) (full : Bool) (h : Hub) : Hub :=
  let h := if h.sget F.ANV_RCV_STATUS_dram_kept p = 1 ∨ !full then h
    else
      let h := h.sput F.ANV_RCV_STATUS_class p 0 2
      if h.sget F.ANV_RCV_CLASS_reload_cause p = 0 then h.sput F.ANV_RCV_CLASS_reload_cause p 0 3 else h
  let h := (h.setStep p 0).openBoundary t p
  let h := if full then (h.clearMarks p).peerFault t p else h
  (h.modLane p fun _ => {}).sweep t

/-! ### Hold, reset, retraining (R369 to R375) -/

/-- The channel groups stop accepting requests and put the two stacks into self-refresh (R369). -/
def Hub.askHold (t p : Nat) (h : Hub) : Hub :=
  ((h.modLane p fun x => { x with hold := some (.runs (t + ms 1)), asked := true }).say (.selfRefresh (2 * p) true)).say
    (.selfRefresh (2 * p + 1) true)
/-- A lane enters HOLD; under a quench it waits for the Reheat release of its dies (R387). -/
def Hub.enterHold (t p : Nat) (h : Hub) : Hub :=
  let h := (h.setStep p 4).modLane p fun x => { x with incident := none }
  if h.partitionQuenched p then h else h.askHold t p

/-- What a spoke shows of a unit beside its run state returns to reset (R540). -/
def Hub.clearUnit (u : Nat) (h : Hub) : Hub :=
  [F.SPK_UNIT_STATE_resume, F.SPK_UNIT_STATE_stepping, F.SPK_UNIT_STATE_lock_held, F.SPK_UNIT_STATE_hold_sync,
    F.SPK_UNIT_STATE_silent, F.SPK_UNIT_STATE_steps_done].foldl (fun h f => h.uput f u 0) h
/-- A unit's reset begins (R174). -/
def Hub.resetUnit (t u : Nat) (part : Bool) (h : Hub) : Hub :=
  match h.runState u with
  | .quenched => h
  | .resetting => h.modUnit u fun x => { x with partReset := part || x.partReset, resetDue := none }
  | _ =>
    ((h.abandonStep t u .resetting).changeState t u .resetting (causeOf 0x14 (b2n part))).resolveAll t u .resetting
      |>.modUnit u fun x => { x with partReset := part, resetDue := none, probeDue := none }

/-- A partition reset returns what lacks the letter P (R18, R540) in the blocks of the partition's spokes. A unit's run
state is RESETTING instead (R371), and what the package-wide RCV_STATUS and RCV_MARK_c show of the lane and of the
contexts follows R363 and R381. DEDUCED (assumption 55). -/
def Hub.resetSpokes (p : Nat) (h : Hub) : Hub :=
  h.resetRegs .p fun r i => r != .SPK_UNIT_STATE && onSpokes (partitionDies p) r i

/-- Steps 1 and 2 of R371: every unit is RESETTING and the links go DOWN. -/
def Hub.assertReset (t p : Nat) (h : Hub) : Hub :=
  let h := h.say (.partitionReset p true)
  let h := ((partitionUnits p).foldl (fun h u => (h.resetUnit t u true).clearUnit u) h).resetSpokes p
  let h := (List.range 6).foldl (fun h k => h.linkDown t (6 * p + k)) h
  (h.peerHold t).modLane p fun x => { x with release := some (t + ms 1), check := none }

/-- A lane enters RESET (R371, R376, R385): the start is recorded, and the reset that reaches esc_limit escalates. -/
def Hub.enterReset (t p : Nat) (h : Hub) : Hub :=
  let h := { h with resetStarts := (h.resetStarts ++ [t]).drop (h.resetStarts.length - 14) }
  let n := h.resetsIn t
  let h := (h.put F.RCV_ESC_in_window 0 n).bump F.RCV_ESC_resets_total 0 1
  if h.get F.RCV_CFG_esc_limit ≤ n then h.escalate t (some p) 1
  else
    let h := (h.setStep p 5).modLane p fun x => { x with
      hold := none, resets := n, repeated := false, limit := some (t + secs (h.get F.RCV_CFG_partition_limit_s)) }
    (h.assertReset t p).partitionSync t p

/-- A training record as the sequencer codes it (R374): predictive, PREV, 16-bit lanes, PACKED. -/
def codeSeed (record : List Byte) : List Byte := predCode true false 0 record
/-- A seed decodes to a record (R374). -/
def seedOk (bs : List Byte) : Bool :=
  match decodeAll 2 4096 bs with
  | .ok r => r.length == 4096
  | .error _ => false

/-- A lane enters RETRAIN (R373, R374): four channel groups and six links train; a seed that fails to decode goes. -/
def Hub.enterRetrain (t p : Nat) (h : Hub) : Hub :=
  let h := { h with seeds := h.seeds.filter fun e => e.1 / 4 ≠ p || seedOk e.2 }
  let h := (h.setStep p 6).modLane p fun x => { x with
    check := none, mem := (List.range 4).map fun k => (4 * p + k, 0), links := (List.range 6).map fun k => (6 * p + k, 0) }
  (List.range 6).foldl (fun h k => h.setLink t (6 * p + k) 1) h

/-- A lane enters RESUME: the stacks leave self-refresh (R375). -/
def Hub.enterResume (p : Nat) (h : Hub) : Hub :=
  ((h.setStep p 7).say (.selfRefresh (2 * p) false)).say (.selfRefresh (2 * p + 1) false)

/-- A lane passes to its next step when its present one has ended. During a handover it waits for the handover instant
(R388), and the start of RESET for the Reheat release (R387). -/
def Hub.laneProgress (t p : Nat) (h : Hub) : Hub :=
  let x := h.lane p
  if h.failover then h
  else
    match x.escalate with
    | some cause => h.escalate t (some p) cause
    | none =>
      match h.step p with
      | 3 => if x.incident.isNone then h.enterHold t p else h
      | 4 =>
        let both := h.sget F.ANV_RCV_STATUS_sr_a p == 1 && h.sget F.ANV_RCV_STATUS_sr_b p == 1
        if x.asked && (both || x.holdOver) && !h.partitionQuenched p then h.enterReset t p else h
      | 6 => if x.mem.isEmpty && x.links.isEmpty then h.enterResume p else h
      | 7 => if x.resumed then h.unfence t p true else h
      | _ => h

/-- The chip is escalated by lane `p`, at the handover instant if one is under way (R388). -/
def Hub.laneEscalates (t p cause : Nat) (h : Hub) : Hub :=
  (h.modLane p fun x => { x with escalate := some (x.escalate.getD cause) }).laneProgress t p

/-- The incident capture that a lane waits for has closed (R368). -/
def Hub.incidentClosed (t k : Nat) (h : Hub) : Hub :=
  (List.range 8).foldl (fun h p =>
    if h.step p = 3 ∧ (h.lane p).incident = some k then
      (h.modLane p fun x => { x with incident := none }).laneProgress t p
    else h) h

/-! ### The quench line and the lanes (R387) -/

/-- Dies are asserted: the limits of lanes with a quenched die stop. -/
def Hub.lanesPause (t : Nat) (h : Hub) : Hub :=
  (List.range 8).foldl (fun h p =>
    if h.partitionQuenched p then
      h.modLane p fun x => { x with drain := x.drain.map (Countdown.pause t), hold := x.hold.map (Countdown.pause t) }
    else h) h
/-- Dies are released: the limits of lanes without a quenched die go on, and what waited starts. -/
def Hub.lanesGo (t : Nat) (h : Hub) : Hub :=
  (List.range 8).foldl (fun h p =>
    if h.partitionQuenched p then h
    else
      let h := h.modLane p fun x => { x with drain := x.drain.map (Countdown.go t), hold := x.hold.map (Countdown.go t) }
      let h := if h.step p = 4 ∧ !(h.lane p).asked then h.askHold t p else h
      h.laneProgress t p) h

end Sys2Proof.Machine
end

