-- ==== Sys2Proof/Machine/Spine.lean ====
section
/-! DEFINITION. The spine's arbiters (R318 to R337). Output o of node p is arbiter 8p + o, the uplink of Tongs j is
arbiter 64 + j. -/

namespace Sys2Proof.Machine

open Sys2Proof

/-- The number of an output's arbiter. -/
def outNo (p o : Nat) : Nat := p * 8 + o
/-- The number of the arbiter at the Tongs end of a star link (R323), by the Tongs's number. -/
def upNo (j : Nat) : Nat := 64 + j
/-- The arbiter that `out` names on node p: outputs 0 to 7 (R319), then the uplinks of the node's three Tongs (R323). -/
def arbNo (p out : Nat) : Nat := if out < 8 then outNo p out else upNo (3 * p + (out - 8))
/-- An arbiter. -/
def Hub.outX (h : Hub) (k : Nat) : OutX := aGet (fun _ => {}) h.spine k
/-- Change an arbiter. -/
def Hub.modOut (k : Nat) (f : OutX → OutX) (h : Hub) : Hub :=
  { h with spine := aPut (fun _ => {}) k (f (h.outX k)) h.spine }

/-! ### Routes (R26, R319) -/

/-- The node that serves a destination. -/
def portNode : SpinePort → Nat
  | .tongs k => k / 3
  | .cruWrite p | .cruRead p | .here p => p
/-- The destination exists. -/
def portOk : SpinePort → Bool
  | .tongs k => decide (k < 24)
  | .cruWrite p | .cruRead p | .here p => decide (p < 8)
/-- The output a transfer takes on the node it is for (R319). -/
def portOut : SpinePort → Nat
  | .tongs k => 2 + k % 3
  | .cruWrite _ => 5
  | .cruRead _ => 6
  | .here _ => 7
/-- Hops from node a to node b in the direction of increasing index. -/
def hopsUp (a b : Nat) : Nat := (b + 8 - a) % 8
/-- The output a transfer takes on node p: the ring direction with fewer hops, the increasing one at four (R26). -/
def route (p : Nat) (d : SpinePort) : Nat :=
  let n := hopsUp p (portNode d)
  if n = 0 then portOut d else if n ≤ 4 then 0 else 1

/-! ### Classes and ranks (R323 to R333) -/

/-- The class of a transfer at an arbiter: the one it carries from another node (R324), an uplink's fixed one (R323), or
the one SPN_REQ gives its requester (R320). -/
def Hub.spnClass (h : Hub) (k : Nat) (w : Waiting) : Nat :=
  match w.cls with
  | some c => c
  | none => if k < 64 then h.sget F.SPN_REQ_class (k / 8) w.req else if w.req = 2 then 1 else 0
/-- What a requester has used of its allocation in this window. -/
def OutX.used (x : OutX) (r : Nat) : Nat := aGet (fun _ => 0) x.allocUsed r
/-- The URGENT quota of an arbiter (R331, R323). -/
def Hub.urgentQuota (h : Hub) (k : Nat) : Nat := if k < 64 then h.sget F.SPN_QUOTA_urgent_beats (k / 8) else 512
/-- The URGENT beats counted in the window. -/
def Hub.urgentUsed (h : Hub) (k : Nat) : Nat := if k < 64 then h.get F.SPN_OUT_urgent_used k else (h.outX k).upUrgent
/-- Set the count of URGENT beats. -/
def Hub.setUrgent (k n : Nat) (h : Hub) : Hub :=
  if k < 64 then h.put F.SPN_OUT_urgent_used k (sat 13 n) else h.modOut k fun x => { x with upUrgent := n }
/-- URGENT beats counted on an output have reached the quota (R331). -/
def Hub.masked (h : Hub) (k : Nat) : Bool := decide (h.urgentQuota k ≤ h.urgentUsed k)
/-- The rank of a transfer at an arbiter (R325, R331 to R333): 2 ALLOC, 1 URGENT, 0 NORMAL; none while a requester of
class ALLOC has no allocation left. A carried ALLOC has its allocation at its first arbiter alone: DESIGN CHOICE
(assumption 56). -/
def Hub.rank (h : Hub) (k : Nat) (w : Waiting) : Option Nat :=
  if w.tr.trigger then some 1
  else
    match h.spnClass k w with
    | 2 =>
      if w.cls.isSome ∨ (h.outX k).used w.req < h.sget F.SPN_REQ_alloc_beats (k / 8) w.req then some 2 else none
    | 1 => some (if h.masked k then 0 else 1)
    | _ => some 0

/-- Requester r requests on node p: the Hearth's do on the active Hearth's node only (R321). -/
def Hub.requests (h : Hub) (p r : Nat) : Bool :=
  !(((decide (24 ≤ r) && decide (r ≤ 33)) || r == 36) && p != h.hearthDie)
/-- A transfer may be granted: one that started at this arbiter is of a requester that requests here (R321). -/
def Hub.asks (h : Hub) (k : Nat) (w : Waiting) : Bool := decide (64 ≤ k) || w.cls.isSome || h.requests (k / 8) w.req

/-- The transfers each requester presents (R322): its first, with credit (R319), and with a rank. -/
def Hub.eligible (h : Hub) (k : Nat) (noCredit : List Nat) : List (Waiting × Nat) :=
  ((h.outX k).waiting.foldl (fun (l : List Waiting) w => if l.any fun v => v.req = w.req then l else l ++ [w])
    []).filterMap fun w => if noCredit.contains w.req ∨ !h.asks k w then none else (h.rank k w).map fun c => (w, c)

/-- How far requester r comes after the one last granted (R326). -/
def afterLast (last r : Nat) : Nat := (r + 47 - last) % 48
/-- A waiting transfer's age stamp. -/
def Waiting.age (w : Waiting) : Nat := w.stamp.getD 0
/-- `a` goes before `b` (R325, R326). -/
def goesBefore (last : Nat) (a b : Waiting × Nat) : Bool :=
  decide (b.2 < a.2) || (a.2 == b.2 && (decide (a.1.age < b.1.age) ||
    (a.1.age == b.1.age && decide (afterLast last a.1.req < afterLast last b.1.req))))
/-- The transfer a decision grants (R325, R326). -/
def bestOf (last : Nat) : List (Waiting × Nat) → Option (Waiting × Nat)
  | [] => none
  | a :: l =>
    match bestOf last l with
    | none => some a
    | some b => if goesBefore last a b then some a else some b

/-- The requester that holds an output. -/
def Hub.holder (h : Hub) (k : Nat) : Option Nat :=
  if k < 64 then
    let r := h.get F.SPN_OUT_holder k
    if r = 0x3F then none else some r
  else (h.outX k).upHolder
/-- The output has a new holder, of a rank, or none. -/
def Hub.setHolder (k : Nat) (e : Option (Nat × Nat)) (h : Hub) : Hub :=
  if k < 64 then (h.put F.SPN_OUT_holder k ((e.map Prod.fst).getD 0x3F)).put F.SPN_OUT_holder_class k ((e.map Prod.snd).getD 0)
  else h.modOut k fun x => { x with upHolder := e.map Prod.fst }

/-! ### Decisions (R326 to R334) -/

/-- What the next burst goes to (R329, R331, R334): the holder while its grant lasts, no higher class waits and it has
not lost its rank to the mask, else the best; a holder that a hog cut stops is left out. -/
def Hub.nextBurst (h : Hub) (k : Nat) (es : List (Waiting × Nat)) : Option (Waiting × Nat) :=
  let x := h.outX k
  let es := es.filter fun e => x.skip ≠ some e.1.req
  let best := bestOf x.last es
  match h.holder k with
  | none => best
  | some r =>
    match es.find? fun e => e.1.req = r with
    | none => best
    | some mine =>
      let cut := h.spnClass k mine.1 == 1 && mine.2 == 0
      if x.grantLeft = 0 ∨ cut ∨ es.any (fun e => mine.2 < e.2) then best else some mine

/-- The hog count stands at 256 at a burst boundary (R334): the holder yields, and on a node the cut is counted. -/
def Hub.hogCut (k : Nat) (es : List (Waiting × Nat)) (h : Hub) : Hub :=
  match h.holder k with
  | none => h
  | some r =>
    if (h.outX k).run < 256 ∨ !es.any (fun e => e.1.req ≠ r) then h
    else
      let p := k / 8
      let h := if 64 ≤ k then h else
        (h.sput F.SPN_HOG_cut p 0 (setBits (h.sget F.SPN_HOG_cut p) r 1 1)).sbump F.SPN_HOG_cuts p 0 1
      h.modOut k fun x => { x with skip := some r, run := 0 }

/-- The longest wait of a requester on a node (SPN_MAXWAIT_r). -/
def Hub.noteWait (t k : Nat) (w : Waiting) (h : Hub) : Hub :=
  if w.begun ∨ 64 ≤ k then h
  else h.sput F.SPN_MAXWAIT_max_wait (k / 8) w.req
    (max (h.sget F.SPN_MAXWAIT_max_wait (k / 8) w.req) (sat 32 (t - w.age)))

/-- The transfers that have reached the head of their requester's queue are stamped (R324). -/
def stampHeads (t : Nat) (l : List Waiting) : List Waiting :=
  (l.foldl (fun (y : List Waiting × List Nat) w =>
    (y.1 ++ [if w.stamp.isNone ∧ !y.2.contains w.req then { w with stamp := some t } else w], w.req :: y.2)) ([], [])).1

/-- A transfer joins its requester's queue at an arbiter. -/
def Hub.enqueue (t k : Nat) (w : Waiting) (h : Hub) : Hub :=
  h.modOut k fun x => { x with waiting := stampHeads t (x.waiting ++ [w]) }

/-- A read has reached its destination: its response beats start back, as the reading requester's, with the read's
stamp and class (R324). -/
def Hub.respond (t : Nat) (w : Waiting) (cls : Nat) (h : Hub) : Hub :=
  if w.tr.resp = 0 then h
  else
    let d := w.tr.dest
    let back : Waiting := { w with
      tr := { w.tr with dest := w.src, beats := w.tr.resp, resp := 0 }, src := d, left := w.tr.resp, begun := false,
      cls := some cls }
    match d with
    | .tongs j => h.enqueue t (upNo j) { back with req := 2 }
    | _ => h.enqueue t (outNo (portNode d) (route (portNode d) w.src)) { back with req := w.tr.req }

/-- The last beat of a transfer has been sent by arbiter k: a ring hop brings it to the neighbour's requester 16 or 17,
an uplink to its node, any other output to its destination (R319). -/
def Hub.sent (t k : Nat) (w : Waiting) (cls : Nat) (h : Hub) : Hub :=
  let go := fun p r c => h.enqueue t (outNo p (route p w.tr.dest))
    { w with req := r, left := w.tr.beats, begun := false, cls := c }
  if 64 ≤ k then
    let j := k - 64
    if w.req = 3 then h.say (.spine (.here (j / 3)) w.src w.tr.beats)
    else go (j / 3) (3 * w.req + j % 3) w.cls
  else if k % 8 = 0 then go ((k / 8 + 1) % 8) 16 (some cls)
  else if k % 8 = 1 then go ((k / 8 + 7) % 8) 17 (some cls)
  else (h.say (.spine w.tr.dest w.src w.tr.beats)).respond t w cls

/-- The first transfer of a queue that equals `w` gives up `n` beats, and goes when none is left. -/
def takeBeats (w : Waiting) (n : Nat) : List Waiting → List Waiting
  | [] => []
  | v :: l => if v = w then (if v.left = n then l else { v with left := v.left - n, begun := true } :: l) else v :: takeBeats w n l

/-- The burst of a decision is sent: its beats are counted against quota and allocation, the transfer shrinks or goes
on, and SPN_OUT follows (R327, R330 to R334). -/
def Hub.sendBurst (t k : Nat) (es : List (Waiting × Nat)) (e : Waiting × Nat) (h : Hub) : Hub :=
  let x := h.outX k
  let r := e.1.req
  let kept := h.holder k = some r ∧ x.grantLeft ≠ 0
  let grant := if kept then x.grantLeft else min 64 e.1.left
  let n := min 16 (min grant e.1.left)
  let cls := h.spnClass k e.1
  let h := h.noteWait t k e.1
  let h := if cls = 1 ∧ !e.1.tr.trigger then h.setUrgent k (h.urgentUsed k + n) else h
  let run := if x.last = r then x.run else 0
  let rest := takeBeats e.1 n x.waiting
  let h := h.modOut k fun x => { x with
    waiting := stampHeads t rest
    grantLeft := if e.1.left = n then 0 else grant - n
    last := r
    run := if es.any (fun y => y.1.req ≠ r) then run + n else if x.waiting.length ≤ 1 then 0 else run
    allocUsed := if cls = 2 ∧ !e.1.tr.trigger ∧ e.1.cls.isNone then aPut (fun _ => 0) r (x.used r + n) x.allocUsed
      else x.allocUsed
    skip := none }
  let h := h.setHolder k (some (r, e.2))
  let h := if k < 64 then h.setReg .SPN_OUT_BEATS k (BitVec.ofNat 64 (sat 64 ((h.reg .SPN_OUT_BEATS k).toNat + n))) else h
  if e.1.left = n then h.sent t k e.1 cls else h

/-- SPN_OUT's mask and its count of the requesters that wait, after a decision. -/
def Hub.showOut (k : Nat) (es : List (Waiting × Nat)) (h : Hub) : Hub :=
  if 64 ≤ k then h
  else h.putB F.SPN_OUT_urgent_masked k (h.masked k)
    |>.put F.SPN_OUT_waiting k (es.filter fun e => h.holder k ≠ some e.1.req).length

/-! ### Quota windows (R330) -/

/-- The length of an arbiter's quota window in fifths of a tick: 4,096 beat times of the ring, of the star links and the
local port, and of the Crucible's ports. -/
def windowFifths (k : Nat) : Nat :=
  if 64 ≤ k then 20480 else if k % 8 < 2 then 40960 else if k % 8 = 5 ∨ k % 8 = 6 then 8192 else 20480
/-- The window that Chip Time `t` lies in; the windows run back to back from Chip Time zero. DESIGN CHOICE
(assumption 56). -/
def windowOf (k t : Nat) : Nat := 5 * t / windowFifths k
/-- When the window that an arbiter counts in ends. -/
def Hub.windowDue (h : Hub) (k : Nat) : Nat := (((h.outX k).window + 1) * windowFifths k + 4) / 5
/-- The counts of an arbiter whose window has ended begin again (R330 to R332). -/
def Hub.windowEnd (t k : Nat) (h : Hub) : Hub :=
  if windowOf k t ≤ (h.outX k).window then h
  else
    let h := (h.modOut k fun x => { x with allocUsed := [], window := windowOf k t }).setUrgent k 0
    if 64 ≤ k then h else h.putB F.SPN_OUT_urgent_masked k (h.masked k)

/-- One decision of an arbiter (R328), in the quota window it falls in. -/
def Hub.arbiter (t k : Nat) (noCredit : List Nat) (h : Hub) : Hub :=
  let h := h.windowEnd t k
  let es := h.eligible k noCredit
  let h := h.hogCut k es
  match h.nextBurst k es with
  | none =>
    (h.modOut k fun x => { x with grantLeft := 0, run := if x.waiting = [] then 0 else x.run, skip := none }).setHolder k
      none |>.showOut k es
  | some e => (h.sendBurst t k es e).showOut k es

/-- A transfer that can enter a queue on node p, or at an uplink of its Tongs (R320, R323): from a requester of that
arbiter which a link does not feed, with at least one beat, to a place that exists. -/
def transferOk (p out : Nat) (x : Transfer) : Bool :=
  decide (0 < x.beats) && portOk x.dest &&
    (if out < 8 then spnPresent p x.req && decide (9 ≤ x.req) && x.req != 16 && x.req != 17 else decide (x.req < 4))

/-- What arrives on node p, or at an uplink of its Tongs, joins the queue of the output it takes (R26, R319, R322). -/
def Hub.arrives (t p out : Nat) (x : Transfer) (h : Hub) : Hub :=
  if out < 8 then h.enqueue t (outNo p (route p x.dest)) { tr := x, req := x.req, src := .here p, left := x.beats }
  else h.enqueue t (arbNo p out) { tr := x, req := x.req, src := .tongs (3 * p + (out - 8)), left := x.beats }

/-- ARBITER_DECISION (R325): the transfers that have arrived on the node since its last decision, and the requesters
whose transfer has no credit downstream. -/
def execArbiterDecision (node out : Nat) (arrivals : List Transfer) (noCredit : List Nat) (s : State) : Out :=
  s.liftIf (decide (node < 8) && decide (out < 11) && arrivals.all (transferOk node out)) fun t h =>
    let come := arrivals.filter fun x => out ≥ 8 || h.requests node x.req
    (come.foldl (fun h x => h.arrives t node out x) h).arbiter t (arbNo node out) noCredit

/-- QUOTA_WINDOW_END (R330). -/
def execQuotaWindowEnd (node out : Nat) (s : State) : Out :=
  if node < 8 ∧ out < 11 then s.liftAt (some (s.hub.windowDue (arbNo node out))) fun t h => h.windowEnd t (arbNo node out)
  else .refused .illFormed

/-! ### Group SPN (R335 to R337) -/

/-- The ARM's checks of node p's shadow (R337). -/
def Hub.spnRefused (h : Hub) (p : Nat) : Bool :=
  let cls := fun r => h.shGet F.SPN_REQ_class (spokeInst .SPN_REQ p r)
  let alloc := fun r => h.shGet F.SPN_REQ_alloc_beats (spokeInst .SPN_REQ p r)
  (List.range 48).any (fun r =>
    cls r == 3 || ((!spnPresent p r || r == 16 || r == 17) && h.shadowReg .SPN_REQ (spokeInst .SPN_REQ p r) != 0) ||
    decide (2048 < alloc r) || (alloc r != 0 && cls r != 2)) ||
  decide (2048 < (((List.range 48).filter fun r => cls r = 2).map alloc).foldl (· + ·) 0) ||
  decide (4096 < h.shGet F.SPN_QUOTA_urgent_beats p)

/-- Node p's group SPN comes into force, a quota it leaves spent at once (R335, R336). -/
def Hub.spnApply (p : Nat) (h : Hub) : Hub :=
  let h := (h.applyShadow .SPN_REQ ((List.range 48).map (spokeInst .SPN_REQ p))).applyShadow .SPN_QUOTA [p]
  (List.range 8).foldl (fun h o => h.putB F.SPN_OUT_urgent_masked (outNo p o) (h.masked (outNo p o))) h

end Sys2Proof.Machine
end

