-- ==== Sys2Proof/Machine/Quench.lean ====
section
/-! DEFINITION. The quench line (R204 to R213), Bellows (R214 to R221) and Reheat (R232 to R238). -/

namespace Sys2Proof.Machine

open Sys2Proof

/-! ### Bellows (R214 to R221) -/

/-- The die of rail `k` of node `p`: the base die, then its three compute dies. -/
def railDie (p k : Nat) : Nat := if k = 0 then p else 7 + 3 * p + k
/-- The rail number of a die in its node's channel. -/
def dieRail (d : Nat) : Nat := if d < 8 then 0 else (d - 8) % 3 + 1
/-- The Bellows model of die `d`'s rail. -/
def Hub.railX (h : Hub) (d : Nat) : RailX := aGet (fun _ => {}) h.rails d
/-- Change the Bellows model of die `d`'s rail. -/
def Hub.modRail (d : Nat) (f : RailX → RailX) (h : Hub) : Hub :=
  { h with rails := aPut (fun _ => {}) d (f (h.railX d)) h.rails }
/-- A field of BLW_RAIL_k for die `d`. -/
def Hub.blw (h : Hub) (f : Fld) (d : Nat) : Nat := h.sget f (nodeOf d) (dieRail d)
/-- Write a field of BLW_RAIL_k for die `d`. -/
def Hub.setBlw (f : Fld) (d v : Nat) (h : Hub) : Hub := h.sput f (nodeOf d) (dieRail d) v
/-- The nearest whole number. -/
def nearest (r : Rat) : Nat := (r + 1 / 2).floor.toNat
/-- The leakage model of a rail, in 0.25 A units. -/
def Hub.leakOf (h : Hub) (d : Nat) : Rat := (h.railX d).leak.getD (h.blw F.BLW_RAIL_leak_est d)
/-- The clock-tree model of a rail, in 0.25 A units. -/
def Hub.clkOf (h : Hub) (d : Nat) : Rat := (h.railX d).clk.getD (h.blw F.BLW_RAIL_clk_est d)

/-- The datapath current of a die at Q (R215), in 0.25 A units, from the last whole microsecond's sample. -/
def Hub.dpOf (h : Hub) (d : Nat) : Rat :=
  max 0 ((h.sget F.LDG_RAIL_SMP_current (nodeOf d) (dieRail d) : Rat) / 16 - h.leakOf d - h.clkOf d)
/-- The insertion code of a compute die (R215). -/
def insertCode (dp : Rat) : Nat := min 150 (nearest dp)

/-- A rail of a ramp has this much current left to move, in 0.25 A units. -/
def Hub.railLeft (h : Hub) (up : Bool) (p : Nat) (r : RailRamp) : Rat :=
  let d := railDie p r.k
  let notch := h.blw F.BLW_RAIL_notch d
  let code := h.blw F.BLW_RAIL_code d
  if up then r.clk * notch / 16 + (r.target - code : Nat) else r.clk * (16 - notch : Nat) / 16 + (code - r.target : Nat)
/-- What a channel has left. -/
def Hub.chanLeft (h : Hub) (up : Bool) (c : ChanRamp) : Rat :=
  (c.rails.map (h.railLeft up c.node)).foldl (· + ·) 0
/-- What a ramp has left. -/
def Hub.rampLeft (h : Hub) (r : RampX) : Rat := (r.chans.map (h.chanLeft r.up)).foldl (· + ·) 0

/-- Every active channel's share of BLW_RATE.current (R219): ticks for one 0.25 A unit, from what each has left. -/
def Hub.paceOf (h : Hub) (total left : Rat) : Rat :=
  if left = 0 then 0 else 10000 * total / ((h.get F.BLW_RATE_current : Nat) * left)

/-- Change every ramp. -/
def Hub.mapRamps (f : RampX → RampX) (h : Hub) : Hub := { h with ramps := h.ramps.map f }
/-- Change every channel of a ramp. -/
def RampX.mapChans (f : ChanRamp → ChanRamp) (r : RampX) : RampX := { r with chans := r.chans.map f }

/-- Recompute the pace of every channel of every ramp (R219). -/
def Hub.repace (h : Hub) : Hub :=
  let total := (h.ramps.map h.rampLeft).foldl (· + ·) 0
  h.mapRamps fun r => r.mapChans fun c => { c with pace := h.paceOf total (h.chanLeft r.up c) }

/-- The rail a channel's next notch steps: down, the compute rails in turn and then the base rail; up, the base rail
first (R217, R234). -/
def Hub.nextNotch (h : Hub) (up : Bool) (c : ChanRamp) : Option Nat :=
  let open_ := (c.rails.filter fun r =>
    if up then h.blw F.BLW_RAIL_notch (railDie c.node r.k) ≠ 0 else h.blw F.BLW_RAIL_notch (railDie c.node r.k) < 16).map
      RailRamp.k
  let turn := ([1, 2, 3].map fun i => (c.last + i - 1) % 3 + 1).find? open_.contains
  if up && open_.contains 0 then some 0
  else match turn with
    | some k => some k
    | none => if open_.contains 0 then some 0 else none

/-- The compute rail a channel's next ballast code steps, once every notch is done (R217). -/
def Hub.nextCode (h : Hub) (up : Bool) (c : ChanRamp) : Option Nat :=
  if (h.nextNotch up c).isSome then none
  else
    ([1, 2, 3].map fun i => (c.last + i - 1) % 3 + 1).find? fun k => c.rails.any fun r =>
      r.k == k && if up then decide (h.blw F.BLW_RAIL_code (railDie c.node k) < r.target)
        else decide (r.target < h.blw F.BLW_RAIL_code (railDie c.node k))

/-- A channel has taken its last step. -/
def Hub.chanDone (h : Hub) (up : Bool) (c : ChanRamp) : Bool :=
  (h.nextNotch up c).isNone && (h.nextCode up c).isNone
/-- Every channel of a ramp has taken its last step. -/
def Hub.rampDone (h : Hub) (r : RampX) : Bool := r.chans.all (h.chanDone r.up)
/-- When the last wait of a ramp ends. -/
def RampX.endsAt (r : RampX) : Nat := (r.chans.map ChanRamp.due).foldl (fun a b => max a b.ceil.toNat) r.began

/-- A step of a channel: the ramp it belongs to by its place, its direction, and the channel. -/
structure RampStep where
  ramp : Nat
  up : Bool
  chan : ChanRamp

/-- The step that a node's channel takes next: of the ramps it runs the one that falls due first, a down-ramp's on a tie
(R219). -/
def Hub.nextStep (h : Hub) (p : Nat) : Option RampStep :=
  (h.ramps.zipIdx.flatMap fun e => (e.1.chans.filter fun c => c.node = p ∧ !h.chanDone e.1.up c).map fun c =>
    ({ ramp := e.2, up := e.1.up, chan := c } : RampStep)).foldl (fun best x =>
      match best with
      | none => some x
      | some b => if x.chan.due < b.chan.due ∨ (x.chan.due = b.chan.due ∧ b.up ∧ !x.up) then some x else some b) none

/-- The next step of die `d`'s channel, if it steps that die's notch, or its code. -/
def Hub.stepOf (h : Hub) (code : Bool) (d : Nat) : Option RampStep :=
  (h.nextStep (nodeOf d)).filter fun x =>
    (if code then h.nextCode x.up x.chan else h.nextNotch x.up x.chan) == some (dieRail d)

/-- A ramp's channel after a step of rail `k` that moved `amount`; `f` is what the step leaves of the rail. -/
def stepped (p k : Nat) (amount : Rat) (f : RailRamp → RailRamp) (r : RampX) : RampX :=
  r.mapChans fun c =>
    if c.node = p then
      { c with due := c.due + amount * c.pace, last := if k = 0 then c.last else k
               rails := c.rails.map fun y => if y.k = k then f y else y }
    else c

/-- The settle of a down-ramp begins when every channel has finished (R217). -/
def Hub.beginSettle (h : Hub) : Hub :=
  h.mapRamps fun r =>
    if !r.up && h.rampDone r && r.settleDue.isNone then
      { r with settleAt := r.endsAt, settleDue := some (r.endsAt + us (h.get F.BLW_CFG_settle_us)) }
    else r

/-- The last rail sample of a die's current, in 1/64 A (R390). -/
def Hub.railSample (h : Hub) (d : Nat) : Nat := h.sget F.LDG_RAIL_SMP_current (nodeOf d) (dieRail d)
/-- What a rail of a ramp keeps of a step of its notch in a down-ramp (R220). -/
def Hub.notched (h : Hub) (d : Nat) (last : Bool) (y : RailRamp) : RailRamp :=
  { y with first := y.first.orElse fun _ => some (h.railSample d, h.blw F.BLW_RAIL_code d), stopped := y.stopped || last }
/-- A rail of a down-ramp meets a sample that ended at `t` (R217, R220): the first one after its last notch gives its
clock-phase drop, with the ballast change added back, and one that ends within the settle joins its mean. -/
def Hub.rampSampled (h : Hub) (t p : Nat) (x : RampX) (y : RailRamp) : RailRamp :=
  let d := railDie p y.k
  let now := h.railSample d
  let y := match y.first, y.drop with
    | some (cur, code), none =>
      if y.stopped then
        { y with drop := some (((cur : Int) - (now : Int) : Int) / 16 + ((h.blw F.BLW_RAIL_code d : Int) - (code : Int) : Int)) }
      else y
    | _, _ => y
  match x.settleDue with
  | some e => if x.settleAt < t ∧ t ≤ e then { y with sum := y.sum + now, count := y.count + 1 } else y
  | none => y
/-- The ramps meet the samples of a boundary. -/
def Hub.rampsSampled (t : Nat) (h : Hub) : Hub :=
  h.mapRamps fun x => if x.up then x else x.mapChans fun c => { c with rails := c.rails.map (h.rampSampled t c.node x) }

/-- The stop record of a unit that did not acknowledge is written when its die's clock tree has stopped (R213). -/
def Hub.owedStops (t d : Nat) (h : Hub) : Hub :=
  if h.blw F.BLW_RAIL_notch d ≠ 16 then h
  else
    let at_ := h.replica t d
    ((unitsOf d).filter fun u => (h.unit u).stopDue).foldl (fun h u =>
      (h.emit at_ u 0xE5 (h.unit u).evCtx ((h.runState u).code * 2 ^ 23)).modUnit u fun x =>
        { x with stopDue := false, stopAt := at_ }) h

/-- Change the ramp at a place. -/
def Hub.modRamp (i : Nat) (f : RampX → RampX) (h : Hub) : Hub := { h with ramps := h.ramps.modify i f }

/-- One notch of die `d`'s clock divider (R217, R234). -/
def Hub.notchStep (t d : Nat) (h : Hub) : Hub :=
  match h.stepOf false d with
  | none => h
  | some x =>
    let n := h.blw F.BLW_RAIL_notch d
    let amount := ((x.chan.rails.find? fun r => r.k = dieRail d).map RailRamp.clk).getD 0 / 16
    let h := h.modRamp x.ramp (stepped (nodeOf d) (dieRail d) amount fun y => if x.up then y else h.notched d (n == 15) y)
    let h := h.setBlw F.BLW_RAIL_notch d (if x.up then n - 1 else n + 1)
    (if x.up then h else h.owedStops t d).beginSettle

/-- One ballast code of die `d` (R217, R234). -/
def Hub.codeStep (d : Nat) (h : Hub) : Hub :=
  match h.stepOf true d with
  | none => h
  | some x =>
    let n := h.blw F.BLW_RAIL_code d
    ((h.modRamp x.ramp (stepped (nodeOf d) (dieRail d) 1 id)).setBlw F.BLW_RAIL_code d (if x.up then n + 1 else n - 1))
      |>.beginSettle

/-- When the next step of die `d`'s rail falls due. -/
def Hub.stepDue (h : Hub) (code : Bool) (d : Nat) : Option Nat := (h.stepOf code d).map fun x => x.chan.due.ceil.toNat

/-- RAMP_NOTCH_STEP (R217). -/
def execRampNotchStep (die : Nat) (s : State) : Out :=
  if die < 32 then s.liftAt (s.hub.stepDue false die) fun t h => h.notchStep t die else .refused .illFormed
/-- BALLAST_CODE_STEP (R217). -/
def execBallastCodeStep (die : Nat) (s : State) : Out :=
  if die < 32 then s.liftAt (s.hub.stepDue true die) fun _ h => h.codeStep die else .refused .illFormed

/-- A ramp of dies begins, from each rail's present notch and code (R219, R238). -/
def Hub.newRamp (h : Hub) (t : Nat) (up : Bool) (ds : List Nat) (target : Nat → Nat) : RampX :=
  { up, began := t, mask := maskOf ds
    chans := (List.range 8).filterMap fun p =>
      let new := ((List.range 4).filter fun k => ds.contains (railDie p k)).map fun k =>
        ({ k, clk := h.clkOf (railDie p k), start := h.blw F.BLW_RAIL_notch (railDie p k), target := target (railDie p k) } : RailRamp)
      if new.isEmpty then none else some { node := p, rails := new, due := t, last := 3 } }
/-- A ramp begins: every active channel's rate is recomputed (R219), and a settle of one of its channels is cut short
(R220). -/
def Hub.startRamp (x : RampX) (h : Hub) : Hub :=
  let cut := h.ramps.map fun r =>
    if r.settleDue.isSome then r.mapChans fun c =>
      if x.chans.any fun d => d.node = c.node then { c with rails := c.rails.map fun y => { y with cut := true } } else c
    else r
  { h with ramps := cut ++ [x] }.repace |>.beginSettle

/-- A down-ramp of dies begins (R217); `uncovered` is what an assertion leaves unramped on its compute dies (R216). -/
def Hub.rampDown (t : Nat) (ds : List Nat) (uncovered : Rat) (h : Hub) : Hub :=
  let moved := (ds.map fun d => h.clkOf d * (16 - h.blw F.BLW_RAIL_notch d : Nat) / 16 + h.blw F.BLW_RAIL_code d).foldl (· + ·) 0
  h.startRamp { h.newRamp t false ds (fun _ => 0) with removed := moved, uncovered, clipped := decide (0 < uncovered) }
/-- The datapath current that an assertion leaves unramped on its compute dies (R215, R216), in 0.25 A units. -/
def Hub.unramped (h : Hub) (ds : List Nat) : Rat :=
  ((ds.filter (8 ≤ ·)).map fun d => max 0 (h.dpOf d - 150)).foldl (· + ·) 0

/-- Adjust the ramp rate after a ramp's peak excursion (R221). -/
def Hub.rateRule (peak : Nat) (h : Hub) : Hub :=
  let limit := h.get F.BLW_CFG_excursion_mv
  let rate := h.get F.BLW_RATE_current
  if limit < peak then
    (h.put F.BLW_RATE_current 0 (max (h.get F.BLW_CFG_rate_min) (rate / 2))).put F.BLW_RATE_quiet_ramps 0 0
  else if 2 * peak < limit then
    if h.get F.BLW_RATE_quiet_ramps = 3 then
      (h.put F.BLW_RATE_current 0 (min (h.get F.BLW_CFG_rate_max) (rate * 5 / 4))).put F.BLW_RATE_quiet_ramps 0 0
    else h.incr F.BLW_RATE_quiet_ramps 0
  else h.put F.BLW_RATE_quiet_ramps 0 0

/-- BLW_LAST after a ramp (R216, R221). -/
def Hub.lastRamp (t : Nat) (x : RampX) (up : Bool) (peak : Nat) (h : Hub) : Hub :=
  h.put F.BLW_LAST_removed 0 (sat 16 (nearest x.removed))
    |>.put F.BLW_LAST_duration_us 0 (sat 16 ((t - x.began) / us 1))
    |>.put F.BLW_LAST_excursion_mv 0 (sat 10 peak)
    |>.putB F.BLW_LAST_direction 0 up
    |>.putB F.BLW_LAST_clipped 0 x.clipped
    |>.put F.BLW_LAST_uncovered 0 (sat 10 (nearest x.uncovered))

/-- The model of one rail after a down-ramp (R220), from the mean of its settle and its clock-phase drop. -/
def Hub.adaptRail (p : Nat) (h : Hub) (r : RailRamp) : Hub :=
  let d := railDie p r.k
  let h := if r.cut ∨ r.count = 0 then h
    else h.modRail d fun x => { x with leak := some (h.leakOf d + ((r.sum : Rat) / (16 * r.count : Nat) - h.leakOf d) / 4) }
  let n := 16 - r.start
  let h := match r.drop with
    | some v => if n = 0 then h
        else h.modRail d fun x => { x with clk := some (h.clkOf d + (v * 16 / n - h.clkOf d) / 4) }
    | none => h
  (h.setBlw F.BLW_RAIL_leak_est d (min 1023 (nearest (h.leakOf d)))).setBlw F.BLW_RAIL_clk_est d
    (min 1023 (nearest (h.clkOf d)))

/-- The ramp whose settle ends first, and when. -/
def Hub.settling (h : Hub) : Option (RampX × Nat) :=
  (h.ramps.filterMap fun r => r.settleDue.map fun d => (r, d)).foldl (fun best e =>
    match best with
    | none => some e
    | some b => if e.2 < b.2 then some e else some b) none

/-- The peak excursion of a ramp, in mV (R221): the furthest that the voltage of a rail it touched was from its value at
the ramp's start. -/
def RampX.peak (v : RailVolts) (x : RampX) : Nat :=
  (x.chans.flatMap fun c => c.rails.map fun r =>
    let d := railDie c.node r.k
    let s := natAt v.starts d
    max (natAt v.highs d - s) (s - natAt v.lows d)).foldl max 0
/-- What a ramp's end makes of the rail monitors' readings: BLW_LAST, and the rate of the next ramp (R221). -/
def Hub.rampEnds (t : Nat) (x : RampX) (up : Bool) (v : RailVolts) (h : Hub) : Hub :=
  (h.lastRamp t x up (x.peak v)).rateRule (x.peak v)

/-- The settle of a down-ramp ends (R217, R220, R221). -/
def Hub.settleEnd (t : Nat) (v : RailVolts) (h : Hub) : Hub :=
  match h.settling with
  | none => h
  | some (x, _) =>
    let h := x.chans.foldl (fun h c => c.rails.foldl (Hub.adaptRail c.node) h) h
    { h.rampEnds t x false v with ramps := h.ramps.erase x }

/-- SETTLE_END (R220). -/
def execSettleEnd (starts lows highs : List Nat) (s : State) : Out :=
  s.liftAt (s.hub.settling.map Prod.snd) fun t h => h.settleEnd t ⟨starts, lows, highs⟩

/-! ### Quench requests (R204 to R209) -/

/-- The quench root's hub-source ID (R64). -/
def Hub.quenchRoot (h : Hub) : Nat := h.hearthDie * 2048 + 0x7EF
/-- The chip reset sequence runs after a warm reset report (R543). -/
def Hub.warmRunning (h : Hub) : Bool := h.chipReset.isSome && h.get F.HRT_BOOT_STATUS_form == 1
/-- The dies that every assertion leaves out: those of partitions in RESET, RETRAIN or RESUME (R387). -/
def Hub.resetDies (h : Hub) : Nat :=
  maskOf (((List.range 8).filter fun p =>
    5 ≤ h.sget F.ANV_RCV_STATUS_step p ∧ h.sget F.ANV_RCV_STATUS_step p ≤ 7).flatMap partitionDies)
/-- The dies quenched. -/
def Hub.quenchedDies (h : Hub) : Nat := h.get F.HRT_QCH_STATUS_dies_quenched
/-- `a` without the bits of `b`, for 32-bit masks. -/
def maskDiff (a b : Nat) : Nat := maskOf ((maskList 32 a).filter fun d => !bitAt b d)

/-- The outcome of a quench request or a Reheat reaches whoever asked (R122, R209). -/
def Hub.answerQuench (t : Nat) (r : Option Reply) (st : Status) (v : Nat) (h : Hub) : Hub :=
  match r with
  | some (.core c rd) =>
    match (h.core c).wait with
    | .quench _ | .reheat _ => (h.endS c rd (BitVec.ofNat 64 v) st).retire t c (h.pc c + 4)
    | _ => h
  | some (.reg m) =>
    (h.put F.HRT_QCH_STATUS_last_cmd_status 0 st.code).modMaster m fun x => { x with qchBusy := false }
  | some r => h.reply t r false [(0xFFFF, st)]
  | none => h

/-- The status with which the root meets a request by hub state (R208, R543); none where it acts. -/
def Hub.rootRefusal (h : Hub) : Option Status :=
  if h.retired then some .retired else if h.booting || h.warmRunning then some .busy else none

/-- A quench at Q of a unit (R174, R175, R212, R213). -/
def Hub.quenchUnit (t u : Nat) (h : Hub) : Hub :=
  let st := h.runState u
  match st with
  | .gated | .resetting | .unresponsive => h.emit t u 0xE5 (h.unit u).evCtx (st.code * 2 ^ 23)
  | .halted | .haltedHolding | .quenched => h.modUnit u fun x => { x with ackDue := some (t + us 2), noAck := false }
  | .running | .haltPending | .fenced =>
    let h := match st, (h.unit u).halt with
      | .haltPending, some x => if x.recorded then h else h.stateRecord x.since u .running .haltPending x.cause
      | _, _ => h
    let h := (h.uput F.SPK_UNIT_STATE_state u RunState.quenched.code).uput F.SPK_UNIT_STATE_resume u
      (if st = .fenced then 3 else 0)
    (h.stateHooks t u st .quenched).modUnit u fun x => { x with ackDue := some (t + us 2), noAck := false }

/-- Limits that do not count under the quench line stop, or go on (R183, R187). -/
def Hub.mapCountdowns (f : Countdown → Countdown) (h : Hub) : Hub :=
  h.units.foldl (fun h e => h.modUnit e.1 fun x => { x with
    halt := x.halt.map fun y => { y with defer := y.defer.map f }
    step := x.step.map fun y => { y with limit := f y.limit, defer := y.defer.map f } }) h
/-- The node that holds the target of a hub-address access (R83). -/
def Hub.targetNode (h : Hub) (a : Nat) : Nat :=
  if 0x100000 ≤ a ∧ a < 0x2100000 then nodeOf (a / 0x100000 - 1)
  else if 0x100000000 ≤ a ∧ a < 0x200000000 then (a - 0x100000000) / 0x20000000
  else h.hearthDie
/-- The core whose window holds an address (R136). -/
def Hub.windowCore (h : Hub) (a : Nat) : Option Nat :=
  if a < 0x100000 then
    let d := if a < 0x80000 then h.hearthDie else 4 - h.hearthDie
    if 0x40000 ≤ a % 0x80000 then some (d * 2048 + 0x7F0 + (a % 0x80000 - 0x40000) / 0x8000) else none
  else if a < 0x2100000 ∧ 0xC0000 ≤ a % 0x100000 then
    some ((a / 0x100000 - 1) * 2048 + 0x7F8 + (a % 0x100000 - 0xC0000) / 0x8000)
  else none
/-- What an in-flight record names for an access (R83): a unit, a core, or the spine node that holds the target. -/
def Hub.inflightTarget (h : Hub) (a : Nat) : Nat :=
  if 0x1000000000 ≤ a ∧ a < 0x2000000000 then (a - 0x1000000000) / 65536
  else (h.windowCore a).getD (h.targetNode a * 2048 + 0x7FD)
/-- Node `p` writes an in-flight record (R83): its tag is a value the spec leaves open. -/
def Hub.inflightRecord (t p issued target kind : Nat) (h : Hub) : Hub :=
  h.drew.collect t p (mkRec issued target 0xE6 none (kind * 2 ^ 23 + h.freeWord.toNat % 2 ^ 23))
/-- A transfer's kind (R83) by its requester (R320): a read, a capture read-out, an event push, an export, or a write.
DEDUCED (assumption 69). -/
def Waiting.kind (w : Waiting) : Nat :=
  if w.tr.resp ≠ 0 then 0
  else
    match w.src with
    | .tongs _ => if w.tr.req ≤ 1 then 3 else 4
    | _ =>
      if w.tr.req ≤ 5 ∨ w.tr.req = 9 ∨ w.tr.req = 10 then 3
      else if w.tr.req ≤ 8 ∨ w.tr.req = 11 then 4
      else if w.tr.req = 22 then 5 else 1
/-- A transfer is a Striker core's access (R320), which its posted write stands for. -/
def Waiting.ofCore (w : Waiting) : Bool :=
  match w.src with
  | .tongs _ => false
  | _ => w.tr.req == 13 || w.tr.req == 14 || (decide (24 ≤ w.tr.req) && decide (w.tr.req ≤ 31))
/-- Every spine node writes a record for each transaction it has issued that has not completed (R83): the posted writes
of its cores, and the transfers that wait at the arbiters. -/
def Hub.inflightRecords (t : Nat) (h : Hub) : Hub :=
  let h := allCores.foldl (fun h c => (h.core c).posted.foldl (fun h w =>
    h.inflightRecord t (nodeOf (dieOf c)) w.issued (h.inflightTarget w.addr)
      (if 0x1000000000 ≤ w.addr ∧ w.addr < 0x2000000000 then 2 else 1)) h) h
  h.spine.foldl (fun h e => e.2.waiting.foldl (fun h w =>
    if w.ofCore then h
    else h.inflightRecord t (portNode w.src) (w.stamp.getD t) (portNode w.tr.dest * 2048 + 0x7FD) w.kind) h) h

/-- The record of an assertion goes into the segment of the named source's node; a writer that has just stopped for it
writes it itself (R204). -/
def Hub.assertRecord (t : Nat) (q : QuenchReq) (h : Hub) : Hub :=
  let src := match q.source with
    | 2 | 4 | 5 => h.quenchRoot
    | _ => q.unit
  let r := mkRec t src 0xE4 none (q.source * 2 ^ 24)
  if q.source = 3 then h.tailWrite (nodeOf (dieOf src)) r else h.collect t (dieOf src) r

/-- The dies' branches are asserted at Q (R204, R206, R211, R215, R222). -/
def Hub.assertDies (t : Nat) (q : QuenchReq) (new : Nat) (h : Hub) : Hub :=
  let ds := maskList 32 new
  let first := h.quenchedDies = 0
  let h := h.assertRecord t q
  let h := (h.put F.HRT_QCH_STATUS_dies_quenched 0 (h.quenchedDies ||| new)).put F.HRT_QCH_STATUS_last_source 0 q.source
  let h := if first then
      ((h.put F.HRT_QCH_TIME_q_first 0 t).bump F.HRT_QCH_COUNT_episodes 0 1).mapCountdowns (Countdown.pause t)
    else h
  let h := ((h.put F.HRT_STATE_quench_held 0 1).openOvh ds { reason := ovhQuench }).lanesPause t
  let h := h.inflightRecords t
  let h := ds.foldl (fun h d => (unitsOf d).foldl (fun h u => h.quenchUnit t u) h) h
  let h := ds.foldl (fun h d =>
    let dp := h.dpOf d
    let h := h.setBlw F.BLW_RAIL_dp_last d (min 1023 (nearest dp))
    if d < 8 then h
    else (h.setBlw F.BLW_RAIL_code d (insertCode dp)).modRail d fun x => { x with code := insertCode dp }) h
  let h := h.rampDown t ds (h.unramped ds)
  let h := (ds.filter (· < 8)).foldl (fun h d => (List.range 6).foldl (fun h k => h.startBanking t (6 * d + k) 1) h) h
  (h.peerHold t).refreshState t

/-- A Reheat not yet at RELEASE is abandoned (R238): its dies stay quenched and Bellows ramps back down. A REHEAT that has
not started ends CANCELLED. DESIGN CHOICE (assumption 63): neither R209 nor R238 states its status. -/
def Hub.abandonReheat (t : Nat) (h : Hub) : Hub :=
  match h.reheat with
  | none => h
  | some x =>
    let h := if x.started.isNone then h.answerQuench t x.reply .cancelled 0 else h
    let h := { (h.bump F.HRT_QCH_COUNT_reheat_aborts 0 1).put F.HRT_QCH_STATUS_reheat_phase 0 0 with
      reheat := none, ramps := h.ramps.filter fun r => !r.up }
    if x.started.isSome then h.rampDown t (maskList 32 (x.mask &&& h.quenchedDies)) 0 else h

/-- The quench root serves the oldest request (R204, R207, R208, R238, R387). -/
def Hub.quenchAssert (t : Nat) (h : Hub) : Hub :=
  match h.quenchReqs with
  | [] => h
  | q :: rest =>
    let h := { h with quenchReqs := rest }
    match h.rootRefusal with
    | some st =>
      let own := q.source = 1 ∨ q.source = 2 ∨ q.source = 3
      let h := if own ∧ st = .retired then h.bump F.HRT_QCH_COUNT_ignored 0 1 else h
      h.answerQuench t q.reply st 0
    | none =>
      let allowed := maskDiff q.mask h.resetDies
      if allowed = 0 then h.answerQuench t q.reply .resetting 0
      else
        let h := if ((h.reheat.map (fun x => (x.mask &&& allowed) != 0)).getD false) then h.abandonReheat t else h
        let new := maskDiff allowed h.quenchedDies
        let h := if new = 0 then h else h.assertDies t q new
        h.answerQuench t q.reply .ok (h.get F.HRT_QCH_TIME_q_first)

/-- QUENCH_ASSERT (R204). -/
def execQuenchAssert (s : State) : Out := s.lift fun t h => h.quenchAssert t

/-- QUENCH of core `c` (R121 to R123, R208). -/
def effQuench (c : Nat) (rd : RegNo) (arg : Word) (h : Hub) : Effect :=
  let mask := bits arg.toNat 0 32
  if bits arg.toNat 32 32 ≠ 0 ∨ mask = 0 then h.endStatus c .reserved
  else if h.coreLevel c < 3 then h.authRefused.endStatus c .auth
  else
    match h.openTxn (.core c) with
    | some x =>
      let r := h.stage x (.quench mask)
      r.2.endStatus c r.1
    | none =>
      match h.rootRefusal with
      | some st => h.endStatus c st
      | none =>
        if maskDiff mask h.resetDies = 0 then h.endStatus c .resetting
        else .stay ((h.modCore c fun x => { x with wait := .quench rd }).askQuench
          { source := 0, unit := c, mask, reply := some (.core c rd) })

/-- QUENCH (R121). -/
def execQuench (c : Nat) (rd rs1 : RegNo) (s : State) : Out :=
  s.instr c fun _ h => sEffect rd (effQuench c rd (h.gpr c rs1) h)

/-- QUENCH_PIN (R205, R210): the pin goes low; with pin_en set it asks for all dies. -/
def Hub.quenchPin (h : Hub) : Hub :=
  let h := h.put F.HRT_QCH_STATUS_pin_low 0 1
  if h.flag F.HRT_QCH_CFG_pin_en then h.askQuench { source := 2, unit := h.quenchRoot, mask := allDies } else h

/-- QUENCH_PIN (R205). -/
def execQuenchPin (s : State) : Out := s.lift fun _ h => h.quenchPin
/-- QUENCH_PIN_RELEASE (R210). -/
def execQuenchPinRelease (s : State) : Out := s.lift fun _ h => h.put F.HRT_QCH_STATUS_pin_low 0 0

/-- The quench source code of a master (R568). -/
def quenchSource : Master → Nat
  | .core _ => 0
  | .host _ => 4
  | .sess _ => 5

/-- HRT_QCH_CMD op quench (R209). -/
def cmdQuench (m : Master) (mask : Nat) : RegCmd :=
  { pre := fun _ => if mask = 0 then some .reserved else none
    txn := .act (.quench mask)
    body := fun _ h =>
      if (h.master m).qchBusy then (.busy, h)
      else (.ok, (h.modMaster m fun x => { x with qchBusy := true }).askQuench
        { source := quenchSource m, unit := match m with
            | .core c => c
            | _ => h.quenchRoot
          mask, reply := some (.reg m) }) }

/-- QCH_CMD_QUENCH (R209). -/
def execQchCmdQuench (m : Master) (mask : Nat) (s : State) : Out :=
  if mask < 2 ^ 32 then s.cmd m 3 (cmdQuench m mask) else .refused .illFormed

/-! ### The quench hold (R211 to R213) -/

/-- The resume state of a QUENCHED unit by the `lock_held` test (R175). -/
def Hub.setResume (u : Nat) (lockHeld : Bool) (h : Hub) : Hub :=
  if h.uget F.SPK_UNIT_STATE_resume u = 3 then h
  else if (h.unit u).halt.isSome ∨ h.uget F.SPK_UNIT_STATE_resume u ≠ 0 then
    if lockHeld then (h.uput F.SPK_UNIT_STATE_resume u 2).holdSync u else h.uput F.SPK_UNIT_STATE_resume u 1
  else h

/-- `lock_held` and `hold_sync` as a unit presents them. -/
def Hub.lockAs (u : Nat) (lockHeld : Bool) (sync : Nat) (h : Hub) : Hub :=
  if lockHeld && declaresLock u then h.lockHigh u sync else h.uput F.SPK_UNIT_STATE_lock_held u 0

/-- A unit acknowledges its quench hold (R82, R175, R211, R519): its stop time, which its spoke's replica gives, its stop
record and its resume state. -/
def Hub.quenchAck (t u : Nat) (lockHeld : Bool) (sync : Nat) (h : Hub) : Hub :=
  if (h.unit u).ackDue.isNone then h
  else
    let lk := lockHeld && declaresLock u
    let at_ := h.replica t (dieOf u)
    let h := h.modUnit u fun x => { x with ackDue := none, stopAt := at_ }
    let st := h.runState u
    let h := h.emit at_ u 0xE5 (h.unit u).evCtx (st.code * 2 ^ 23)
    if st = .quenched then
      let h := (h.lockAs u lockHeld sync).setResume u lk
      let asked := (h.unit u).halt.isSome
      let h := h.modUnit u fun x => { x with halt := none }
      if asked then h.resolveHalt t u (if lk then .holding else .ok) else h
    else h

/-- UNIT_QUENCH_ACK (R211). -/
def execUnitQuenchAck (unit : Nat) (lockHeld : Bool) (sync : Nat) (s : State) : Out :=
  s.liftIf (unitOk unit) fun t h => h.quenchAck t unit lockHeld (sync % 65536)

/-- A unit has not acknowledged 2 µs after Q (R213): it counts as silent, and its stop record waits for the stopped
notch. -/
def Hub.ackTimeout (t u : Nat) (lockHeld : Bool) (sync : Nat) (h : Hub) : Hub :=
  let lk := lockHeld && declaresLock u
  let h := (h.modUnit u fun x => { x with ackDue := none, noAck := true, stopDue := true }).bump
    F.HRT_QCH_COUNT_noack_units 0 1
  let h := if h.runState u = .quenched then
      let h := ((h.lockAs u lockHeld sync).setResume u lk).uput F.SPK_UNIT_STATE_silent u 1
      (h.modUnit u fun x => { x with halt := none }).resolveHalt t u .timeout
    else ((h.abandonStep t u .timeout).becomeSilent t u).resolveAll t u .timeout
  h.owedStops t (dieOf u)

/-- QUENCH_ACK_TIMEOUT (R213). -/
def execQuenchAckTimeout (unit : Nat) (lockHeld : Bool) (sync : Nat) (s : State) : Out :=
  if unitOk unit then s.liftAt (s.hub.unit unit).ackDue fun t h => h.ackTimeout t unit lockHeld (sync % 65536)
  else .refused .illFormed

/-! ### Reheat (R232 to R237) -/

/-- A snapshot capture that names one of the dies runs (R266). -/
def Hub.captureOver (h : Hub) (mask : Nat) : Bool :=
  h.captures.any fun e => decide (e.2.state < 4) && bitAt e.2.plan.flags 0 && (e.2.plan.dies &&& mask) != 0

/-- The refusal of a Reheat request (R232). -/
def Hub.reheatRefusal (h : Hub) (mask : Nat) : Option Status :=
  if (mask &&& h.quenchedDies) = 0 then some .notHeld
  else if h.captureOver mask || (h.flag F.HRT_QCH_STATUS_pin_low && h.flag F.HRT_QCH_CFG_pin_en) || h.reheat.isSome then
    some .busy
  else none

/-- A Reheat is accepted (R232): it waits for its start in phase WAITING. -/
def Hub.acceptReheat (t mask : Nat) (r : Option Reply) (h : Hub) : Hub :=
  { h.put F.HRT_QCH_STATUS_reheat_phase 0 1 with
    reheat := some { mask := mask &&& h.quenchedDies, accepted := t, reply := r } }

/-- REHEAT of core `c` (R122, R232). -/
def effReheat (t c : Nat) (rd : RegNo) (arg : Word) (h : Hub) : Effect :=
  let mask := bits arg.toNat 0 32
  if bits arg.toNat 32 32 ≠ 0 ∨ mask = 0 then h.endStatus c .reserved
  else if h.coreLevel c < 3 then h.authRefused.endStatus c .auth
  else
    match h.openTxn (.core c) with
    | some x =>
      let r := h.stage x (.reheat mask)
      r.2.endStatus c r.1
    | none =>
      match h.reheatRefusal mask with
      | some st => h.endStatus c st
      | none => .stay ((h.modCore c fun x => { x with wait := .reheat rd }).acceptReheat t mask (some (.core c rd)))

/-- REHEAT (R122). -/
def execReheat (c : Nat) (rd rs1 : RegNo) (s : State) : Out :=
  s.instr c fun t h => sEffect rd (effReheat t c rd (h.gpr c rs1) h)

/-- HRT_QCH_CMD op Reheat (R209, R232). -/
def cmdReheat (m : Master) (mask : Nat) : RegCmd :=
  { pre := fun _ => if mask = 0 then some .reserved else none
    txn := .act (.reheat mask)
    body := fun t h =>
      if (h.master m).qchBusy then (.busy, h)
      else match h.reheatRefusal mask with
        | some st => (.ok, h.put F.HRT_QCH_STATUS_last_cmd_status 0 st.code)
        | none => (.ok, (h.modMaster m fun x => { x with qchBusy := true }).acceptReheat t mask (some (.reg m))) }

/-- QCH_CMD_REHEAT (R209). -/
def execQchCmdReheat (m : Master) (mask : Nat) (s : State) : Out :=
  if mask < 2 ^ 32 then s.cmd m 3 (cmdReheat m mask) else .refused .illFormed

/-- A die's target code (R235). -/
def Hub.targetCode (h : Hub) (d : Nat) : Nat :=
  if d < 8 then 0
  else
    let n := ((List.range 16).filter fun k => h.runState (d * 2048 + k) = .quenched ∧
      h.uget F.SPK_UNIT_STATE_resume (d * 2048 + k) = 0).length
    (h.railX d).code * n / 16

/-- When the accepted Reheat can start: at once, unless a down-ramp still touches its dies (R233) or a handover is in
progress (R232). -/
def Hub.reheatDue (h : Hub) : Option Nat :=
  match h.reheat with
  | some x =>
    if x.started.isSome || h.failover || (h.ramps.any fun r => !r.up && (r.mask &&& x.mask) != 0) then none
    else some x.accepted
  | none => none

/-- A Reheat starts at S (R233, R234). -/
def Hub.reheatStart (t : Nat) (h : Hub) : Hub :=
  match h.reheat with
  | none => h
  | some x =>
    let ds := maskList 32 x.mask
    let target := h.targetCode
    let h := (h.answerQuench t x.reply .ok t).put F.HRT_QCH_STATUS_reheat_phase 0 2
    let moved := (ds.map fun d => h.clkOf d * h.blw F.BLW_RAIL_notch d / 16 + target d).foldl (· + ·) 0
    { h with reheat := some { x with started := some t } }.startRamp { h.newRamp t true ds target with removed := moved }

/-- REHEAT_START (R233). -/
def execReheatStart (s : State) : Out := s.liftAt s.hub.reheatDue fun t h => h.reheatStart t

/-- When RAMP_UP has ended. -/
def Hub.drainDue (h : Hub) : Option Nat :=
  match h.ramps.find? RampX.up with
  | some r => if h.get F.HRT_QCH_STATUS_reheat_phase = 2 ∧ h.rampDone r then some r.endsAt else none
  | none => none

/-- The entry at the front of what is left of die `d`'s queue, at Reheat (R236): applied for a unit that will run, left
for the RUN of one that will not, discarded for a fenced one; one that meets silence fails, and its unit's later entries
are discarded with it (R194). -/
def Hub.reheatEntry (t d : Nat) (e : PendingPoke) (h : Hub) : Hub :=
  let u := e.unit
  let gone := fun (h : Hub) => h.modSpoke d fun x => { x with ppq := x.ppq.erase e }
  if h.runState u ≠ .quenched then h
  else
    match h.uget F.SPK_UNIT_STATE_resume u with
    | 0 =>
      let (answered, h) := if h.uget F.SPK_UNIT_STATE_silent u = 1 then (false, h) else h.handshake u
      if answered then (gone h).applyPoke t u e.off13 e.data 1
      else
        let h := (gone (h.fallSilent t u)).sbump F.SPK_PPQ_STATUS_drain_fail d 0 1
        h.discardPokes u
    | 3 => (gone h).sbump F.SPK_PPQ_STATUS_discarded d 0 1
    | _ => h

/-- Each spoke of a named die drains its queue in queue order in phase DRAIN (R116, R236); RELEASE follows (R234). -/
def Hub.reheatDrain (t : Nat) (h : Hub) : Hub :=
  match h.reheat with
  | none => h
  | some x =>
    ((maskList 32 x.mask).foldl (fun h d =>
      (h.spoke d).ppq.foldl (fun h e => if (h.spoke d).ppq.contains e then h.reheatEntry t d e else h) h)
      (h.put F.HRT_QCH_STATUS_reheat_phase 0 3)).put F.HRT_QCH_STATUS_reheat_phase 0 4

/-- REHEAT_DRAIN (R236). -/
def execReheatDrain (s : State) : Out := s.liftAt s.hub.drainDue fun t h => h.reheatDrain t

/-- A unit at its Reheat release (R174, R237): its resume state, RUNNING in place of FENCED once its partition is open
(R387), and UNRESPONSIVE at once when it met silence. -/
def Hub.releaseUnit (t u : Nat) (h : Hub) : Hub :=
  let h := h.modUnit u fun x => { x with ackDue := none, stopDue := false }
  if h.runState u ≠ .quenched then h
  else
    let next : RunState := match h.uget F.SPK_UNIT_STATE_resume u with
      | 1 => .halted
      | 2 => .haltedHolding
      | 3 => if h.fenced (nodeOf (dieOf u)) then .fenced else .running
      | _ => .running
    let h := h.changeState t u next (causeOf 0xF 0)
    if h.uget F.SPK_UNIT_STATE_silent u = 1 then
      (h.becomeSilent t u).uput F.SPK_UNIT_STATE_silent u 0
    else h

/-- The quench episode ends for dies: their bits, ballast codes and notches return, and with the last die the line
falls (R206, R237). -/
def Hub.endQuench (t : Nat) (ds : List Nat) (h : Hub) : Hub :=
  let h := h.put F.HRT_QCH_STATUS_dies_quenched 0 (maskDiff h.quenchedDies (maskOf ds))
  let h := ds.foldl (fun h d => (h.setBlw F.BLW_RAIL_code d 0).setBlw F.BLW_RAIL_notch d 0) h
  let h := h.closeOvh ds fun x => x.reason = ovhQuench
  let h := if h.lineAsserted then h else (h.put F.HRT_STATE_quench_held 0 0).mapCountdowns (Countdown.go t)
  h.lanesGo t

/-- The root releases the named dies at V (R228, R237). -/
def Hub.reheatRelease (t : Nat) (v : RailVolts) (h : Hub) : Hub :=
  match h.reheat with
  | none => h
  | some x =>
    let ds := maskList 32 x.mask
    let ramp := h.ramps.find? RampX.up
    let h := ds.foldl (fun h d => (unitsOf d).foldl (fun h u => h.releaseUnit t u) h) h
    let h := h.endQuench t ds
    let h := (ds.filter (· < 8)).foldl (fun h d =>
      (List.range 6).foldl (fun h k => h.endBanking (6 * d + k) 1) h) h
    let h := h.emit t h.quenchRoot 0xE7 none (sat 28 ((t - h.get F.HRT_QCH_TIME_q_first) / us 1))
    let h := match ramp with
      | some r => h.rampEnds t r true v
      | none => h
    { h.put F.HRT_QCH_STATUS_reheat_phase 0 0 with
      reheat := none, ramps := h.ramps.filter fun r => !r.up } |>.refreshState t

/-- When the release follows: in phase RELEASE. -/
def Hub.releaseDue (h : Hub) : Option Nat :=
  if h.get F.HRT_QCH_STATUS_reheat_phase = 4 then some 0 else none

/-- REHEAT_RELEASE (R237). -/
def execReheatRelease (volts : RailVolts) (s : State) : Out :=
  s.liftAt s.hub.releaseDue fun t h => h.reheatRelease t volts

end Sys2Proof.Machine
end

