-- ==== Sys2Proof/Machine/Plans.lean ====
section
/-! DEFINITION. Capture plans: how they are read and refused (R246 to R249), the Crucible's free space (R242), and
sizing with its overflow policy (R253 to R255). -/

namespace Sys2Proof.Machine

open Sys2Proof

/-! ### Reading a plan (R246, R247) -/

/-- The first address of the Crucible (R29, R35). -/
def crucibleBase : Nat := 0x100000000
/-- `n` bytes at `a` lie in the Crucible. -/
def inCrucible (a n : Nat) : Bool := decide (crucibleBase ≤ a) && decide (a + n ≤ crucibleBase + 0x100000000)
/-- The SRAM of a die: scratchpad or cache data (R247). -/
def sramSize (d : Nat) : Nat := if d < 8 then 64 * mib else 96 * mib
/-- An SRAM bank or cache slice's size (R247). -/
def bankSize (d : Nat) : Nat := if d < 8 then 8 * mib else 12 * mib

/-- The region descriptor at an address (R247). -/
def Hub.readRegion (h : Hub) (a : Nat) : RegionX :=
  let kind := h.rd a 1
  let unit := h.rd (a + 2) 2
  let len := if kind = 1 then scanBlocks unit * 4096 else h.rd (a + 16) 8
  { kind, coder := h.rd (a + 1) 1 % 32, unit, dest := h.rd (a + 4) 1, off := h.rd (a + 8) 8, len
    blocks := (len + 4095) / 4096 }

/-- Region `a`'s descriptor holds a reserved encoding (R247, R249); reserved bits are ignored (R12). -/
def Hub.regionBad (h : Hub) (a : Nat) : Bool :=
  let r := h.readRegion a
  let pred := bitAt r.coder 2
  let coderBad := pred && (bits r.coder 0 2 != 0 || bitAt r.coder 4)
  let lenField := h.rd (a + 16) 8
  let bad := match r.kind with
    | 0 => bits r.unit 0 11 != 0 || r.off % 4096 != 0 || r.len % 4096 != 0 || r.len == 0
        || decide (sramSize (dieOf r.unit) < r.off + r.len)
    | 1 => r.off != 0 || lenField != 0
    | 2 => r.off % 8 != 0 || r.len % 8 != 0 || r.len == 0 || decide (65536 < r.off + r.len)
    | 3 => r.unit != 0 || r.off % 8 != 0 || r.len % 8 != 0 || r.len == 0 || decide (64 * mib < r.len)
        || !(inScratch r.off r.len || inCrucible r.off r.len)
    | _ => true
  coderBad || bad

/-- The plan header's bytes hold a reserved encoding or an unsupported version (R246, R249, R15). -/
def Hub.headerBad (h : Hub) (a : Nat) : Bool :=
  let raiseMax := h.rd (a + 12) 1
  let recipient := h.rd (a + 13) 1
  let count := h.rd (a + 8) 4
  h.rd a 4 != 0x4E4C5043 || h.rd (a + 4) 2 != 1 || count == 0 || decide (8192 < count) || decide (3 < raiseMax)
    || (raiseMax == 0 && bitAt (h.rd (a + 6) 2) 3) || (decide (7 < recipient) && recipient != 0xFF)
    || h.rd (a + 16) 4 == 0

/-- The plan at an address, as its bytes spell it (R246, R247). -/
def Hub.readPlan (h : Hub) (a : Nat) : PlanX :=
  { addr := a, flags := h.rd (a + 6) 2 % 64, raiseMax := h.rd (a + 12) 1, recipient := h.rd (a + 13) 1
    fallbackMs := h.rd (a + 14) 2, dieMask := h.rd (a + 16) 4, tag := h.rd (a + 24) 8
    regions := (List.range (h.rd (a + 8) 4)).map fun i => h.readRegion (a + 64 + 32 * i) }

/-- A plan with QUENCHED set. -/
def PlanX.quenched (p : PlanX) : Bool := bitAt p.flags 0
/-- A plan with INCIDENT set. -/
def PlanX.incident (p : PlanX) : Bool := bitAt p.flags 1
/-- The level a plan needs (R249). -/
def PlanX.level (p : PlanX) : Nat := if p.quenched || p.incident then 3 else 2

/-- The refusals of R249 that do not depend on the machine's quench and captures, in R567's order; else the plan. -/
def Hub.checkPlan (h : Hub) (a level : Nat) : Except Status PlanX :=
  if 2 ^ 48 ≤ a then .error .reserved
  else if !inScratch a 64 then .error .unmapped
  else if h.headerBad a then .error .reserved
  else
    let p := h.readPlan a
    if (List.range p.regions.length).any fun i =>
        inScratch (a + 64 + 32 * i) 32 && h.regionBad (a + 64 + 32 * i) then .error .reserved
    else if !inScratch a p.bytes then .error .unmapped
    else if p.regions.any fun r => (r.kind == 1 || r.kind == 2) && !unitOk r.unit then .error .noUnit
    else if a % 8 ≠ 0 then .error .align
    else if level < p.level then .error .auth
    else .ok p

/-- Some die a plan names is not quenched (R249). -/
def Hub.planNotHeld (h : Hub) (p : PlanX) : Bool := p.quenched && maskDiff p.dies h.quenchedDies != 0
/-- Captures between start and close. -/
def Hub.capturesRunning (h : Hub) : Nat := (h.captures.filter fun e => e.2.state < 4).length

/-! ### Free space (R242) -/

/-- An extent: 64 KiB. -/
def extentBytes : Nat := 0x10000
/-- Runs of bytes without what overlaps a range. -/
def cutRuns (x : Nat × Nat) (runs : List (Nat × Nat)) : List (Nat × Nat) :=
  runs.flatMap fun r =>
    if overlaps r x then
      [(r.1, x.1 - r.1), (x.1 + x.2, r.1 + r.2 - (x.1 + x.2))].filter fun y => y.2 ≠ 0
    else [r]
/-- Runs in rising order with neighbours joined. -/
def joinRuns : List (Nat × Nat) → List (Nat × Nat)
  | [] => []
  | r :: rs =>
    match joinRuns rs with
    | [] => [r]
    | s :: ss => if r.1 + r.2 = s.1 then (r.1, r.2 + s.2) :: ss else r :: s :: ss
/-- The bytes of runs. -/
def runBytes (runs : List (Nat × Nat)) : Nat := (runs.map Prod.snd).foldl (· + ·) 0
/-- The first `n` bytes of runs. -/
def takeRuns : Nat → List (Nat × Nat) → List (Nat × Nat)
  | _, [] => []
  | n, r :: rs => if n = 0 then [] else if n ≤ r.2 then [(r.1, n)] else r :: takeRuns (n - r.2) rs
/-- Runs without their first `n` bytes. -/
def dropRuns : Nat → List (Nat × Nat) → List (Nat × Nat)
  | _, [] => []
  | n, r :: rs => if n = 0 then r :: rs else if n < r.2 then (r.1 + n, r.2 - n) :: rs else dropRuns (n - r.2) rs
/-- The address of byte `o` of runs. -/
def runAt (runs : List (Nat × Nat)) (o : Nat) : Nat :=
  match dropRuns o runs with
  | r :: _ => r.1
  | [] => 0
/-- Where `n` bytes are taken from free runs: the first run that holds them, else the lowest pieces (DESIGN CHOICE,
assumption 20). -/
def pickRuns (n : Nat) (runs : List (Nat × Nat)) : Option (List (Nat × Nat)) :=
  match runs.find? fun r => n ≤ r.2 with
  | some r => some (if n = 0 then [] else [(r.1, n)])
  | none => if n ≤ runBytes runs then some (takeRuns n runs) else none

/-- Where `n` bytes are taken in one piece: the first run that holds them (assumption 20). -/
def pickWhole (n : Nat) (runs : List (Nat × Nat)) : Option (List (Nat × Nat)) :=
  (runs.find? fun r => n ≤ r.2).map fun r => [(r.1, n)]
/-- Where `k` slots of `s` bytes are taken, in whole extents and with no slot across two runs: the first run that holds
them, else the lowest pieces (assumption 20). -/
def pickSlots (s k : Nat) (runs : List (Nat × Nat)) : Option (List (Nat × Nat)) :=
  match runs.find? fun r => alignUp (k * s) extentBytes ≤ r.2 with
  | some r => some [(r.1, alignUp (k * s) extentBytes)]
  | none => pieces k runs
where
  /-- The lowest pieces for `k` slots. -/
  pieces : Nat → List (Nat × Nat) → Option (List (Nat × Nat))
    | _, [] => none
    | k, r :: rs => if k ≤ r.2 / s then some [(r.1, alignUp (k * s) extentBytes)] else (pieces (k - r.2 / s) rs).map (r :: ·)
/-- The address of slot `b` of runs with slots of `s` bytes. -/
def slotAt (s : Nat) : Nat → List (Nat × Nat) → Nat
  | _, [] => 0
  | b, r :: rs => if b < r.2 / s then r.1 + s * b else slotAt s (b - r.2 / s) rs
/-- What runs hold beyond their first `k` slots of `s` bytes, in whole blocks of 4 KiB. -/
def afterSlots (s : Nat) : Nat → List (Nat × Nat) → List (Nat × Nat)
  | _, [] => []
  | k, r :: rs =>
    if k ≤ r.2 / s then
      ((r.1 + s * k, r.2 - s * k) :: rs).filterMap fun x => if x.2 < 4096 then none else some (x.1, x.2 / 4096 * 4096)
    else afterSlots s (k - r.2 / s) rs
/-- The first byte at or after byte `o` of runs from which `n` bytes lie in one run. -/
def fitAt (n : Nat) : Nat → List (Nat × Nat) → Nat
  | o, [] => o
  | o, r :: rs => if o + n ≤ r.2 then o else if o < r.2 then r.2 + fitAt n 0 rs else r.2 + fitAt n (o - r.2) rs

/-- Where a waiting ARM of group TRC has placed the trace segments (R72). -/
def Hub.armedSegments (h : Hub) : List (Nat × Nat) := (h.arms.filterMap fun e => if e.2.segments = [] then none else some e.2.segments).headD []
/-- The slot space of node `p`: its mapped-in groups without the reserved shares and the trace segment (R240, R241),
in force or armed (R72). -/
def Hub.slotRuns (h : Hub) (p : Nat) : List (Nat × Nat) :=
  let runs := (h.groupsOf p).map fun g => (groupBase p g, 64 * mib)
  let runs := cutRuns (h.ledgerShare p, 24 * mib) runs
  let runs := if h.segBase p = 0 then runs else cutRuns (h.segBase p, h.segSize) runs
  joinRuns (match (h.armedSegments)[p]? with
    | some x => cutRuns x runs
    | none => runs)
/-- The free slot space of node `p` (R242). -/
def Hub.freeRuns (h : Hub) (p : Nat) : List (Nat × Nat) := (h.heldExtents p).foldl (fun r x => cutRuns x r) (h.slotRuns p)
/-- The free part of node `p`'s incident share (R253). -/
def Hub.incidentRuns (h : Hub) (p : Nat) : List (Nat × Nat) :=
  (h.heldExtents p).foldl (fun r x => cutRuns x r) [(h.incidentShare p, 16 * mib)]
/-- Where a capture takes space on node `p`. -/
def Hub.spaceFor (h : Hub) (incident : Bool) (p : Nat) : List (Nat × Nat) :=
  if incident then h.incidentRuns p else h.freeRuns p

/-! ### Sizing (R253 to R256) -/

/-- The node a region's blocks go to (R248). -/
def Hub.regionNode (h : Hub) (r : RegionX) : Nat :=
  if bitAt r.dest 7 then r.dest % 8
  else if r.kind = 3 then h.hearthDie
  else nodeOf (dieOf r.unit)
/-- The incident share of node `p` holds an unreleased capture, or a capture that is being sized is to write it (R253). -/
def Hub.shareTaken (h : Hub) (p : Nat) : Bool :=
  ((h.heldExtents p).any fun x => overlaps x (h.incidentShare p, 16 * mib)) ||
    h.captures.any fun e => e.2.state == 1 && e.2.plan.incident && e.2.plan.regions.any fun r => h.regionNode r == p
/-- Swage engine `p` failed its self-test (R548). -/
def Hub.swageBad (h : Hub) (p : Nat) : Bool := bitAt (h.get F.HRT_BOOT_STATUS_swage_bad) p
/-- A region with its node; at a node whose engine failed its self-test it is stored at 1:1 (R548). -/
def Hub.aimRegion (h : Hub) (r : RegionX) : RegionX :=
  let p := h.regionNode r
  { r with node := p, coder := if h.swageBad p then bits r.coder 3 1 * 8 else r.coder }

/-- The target ratio of a region as applied. -/
def RegionX.target (r : RegionX) : Nat := bits r.coder 0 2
/-- The region is predictive. -/
def RegionX.predictive (r : RegionX) : Bool := bitAt r.coder 2
/-- A region's slots in bytes. -/
def RegionX.slots (r : RegionX) : Nat := r.blocks * slotBytes r.target
/-- A region's overflow reserve in bytes: the rest of its raw size. -/
def RegionX.reserve (r : RegionX) : Nat := r.blocks * 4096 - r.slots
/-- What a region takes of its node, in whole extents (R253). -/
def RegionX.takes (r : RegionX) : Nat :=
  if r.omitted.isSome then 0 else alignUp (if r.raised then r.slots else r.blocks * 4096) extentBytes
/-- The blocks a plan sends to node `p`. -/
def blocksAt (rs : List RegionX) (p : Nat) : Nat :=
  ((rs.filter fun r => r.node = p ∧ r.omitted = none).map RegionX.blocks).foldl (· + ·) 0
/-- The dies' populated units, in ascending order (R275). -/
def unitsIn (mask : Nat) : List Nat := (maskList 32 mask).flatMap unitsOf
/-- The manifest's size (R274 to R276). -/
def PlanX.manifestBytes (p : PlanX) : Nat := 192 + 16 * (unitsIn p.dieMask).length + 64 * p.regions.length
/-- The node that holds the manifest: the active Hearth's, or the lowest an INCIDENT plan writes. -/
def Hub.manifestNode (h : Hub) (p : PlanX) : Nat :=
  if p.incident then (p.regions.map RegionX.node).foldl min 7 else h.hearthDie
/-- A node's demand (R253). -/
def nodeDemand (man manNode : Nat) (rs : List RegionX) (p : Nat) : Nat :=
  ((rs.filter fun r => r.node = p).map RegionX.takes).foldl (· + ·) 0 + alignUp (8 * blocksAt rs p) extentBytes
    + (if p = manNode then alignUp man extentBytes else 0)

/-- The planner's view while it sizes: the free bytes of each node, the manifest, and the regions. -/
structure Sizing where
  free : List Nat
  man : Nat
  manNode : Nat
  regions : List RegionX

/-- Node `p` is short. -/
def Sizing.short (z : Sizing) (p : Nat) : Bool := decide (natAt z.free p < nodeDemand z.man z.manNode z.regions p)
/-- Every node fits. -/
def Sizing.fits (z : Sizing) : Bool := (List.range 8).all fun p => !z.short p
/-- Walk the regions from the last toward the first, changing each with what has been decided so far. -/
def Sizing.walk (f : Sizing → RegionX → RegionX) (z : Sizing) : Sizing :=
  (List.range z.regions.length).reverse.foldl (fun z i =>
    match z.regions[i]? with
    | some r => { z with regions := setAt z.regions i (f z r) }
    | none => z) z
/-- Raise (R254). -/
def Sizing.raise (raiseMax : Nat) (z : Sizing) : Sizing :=
  z.walk fun z r =>
    if bitAt r.coder 4 && z.short r.node then
      { r with raised := true, coder := setBits r.coder 0 2 (max r.target raiseMax) }
    else r
/-- Spill (R254): unbacked reserves are backed in priority order, by the free runs of the spill buffer up to their end. -/
def Sizing.spill (free : List (Nat × Nat)) (z : Sizing) : Sizing :=
  { z with regions := (z.regions.foldl (fun (x : List RegionX × List (Nat × Nat)) r =>
      let n := if r.raised then min (runBytes x.2) (r.reserve / 4096 * 4096) else 0
      (x.1 ++ [{ r with spill := takeRuns n x.2 }], dropRuns n x.2)) ([], free)).1 }
/-- Omit (R254). -/
def Sizing.omitStep (z : Sizing) : Sizing :=
  z.walk fun z r => if z.short r.node then { r with omitted := some 6, spill := [] } else r

/-- The host path is healthy (R256). -/
def Hub.hostHealthy (h : Hub) : Bool := h.flag F.CRU_SPILL_valid && h.hostPath
/-- The runs of the spill buffer, by offset, that no capture has. -/
def Hub.spillFree (h : Hub) : List (Nat × Nat) :=
  ((h.captures.flatMap fun e => e.2.plan.regions.flatMap RegionX.spill).foldl (fun runs x => cutRuns x runs)
    [(0, h.get F.CRU_SPILL_size_mib * mib)])

/-- Size a plan against the space of now (R253, R254): its regions as they will be taken, or none where no fit is
reached or nothing would be read (R255). -/
def Hub.sizePlan (h : Hub) (p : PlanX) : Option (List RegionX) :=
  let p := { p with regions := p.regions.map h.aimRegion }
  let z0 : Sizing :=
    { free := (List.range 8).map fun n => runBytes (h.spaceFor p.incident n)
      man := p.manifestBytes, manNode := h.manifestNode p, regions := p.regions }
  let z1 := if z0.fits || !bitAt p.flags 3 then z0 else z0.raise p.raiseMax
  let z2 := if z1.fits || !bitAt p.flags 4 || !h.hostHealthy then z1 else z1.spill h.spillFree
  let z3 := if z2.fits || !bitAt p.flags 5 then z2 else z2.omitStep
  if z3.fits && z3.regions.any (fun r => r.omitted.isNone) then some z3.regions else none

/-- Every registered plan is sized again after free space has changed (R251). -/
def Hub.resizePlans (h : Hub) : Hub :=
  h.plans.foldl (fun h e => h.put F.CRU_PLAN_state e.1 (if (h.sizePlan e.2).isSome then 1 else 2)) h

end Sys2Proof.Machine
end

