-- ==== Sys2Proof/Machine/UnitAccess.lean ====
section
/-! DEFINITION. Unit access: PEEK, QPEEK, POKE and POKEP (R107, R112 to R117, R526). -/

namespace Sys2Proof.Machine

open Sys2Proof

/-- How an access reaches a window word. -/
inductive Path where
  | functional | quiet | scan
  deriving DecidableEq, Repr

/-- The state an access meets: a QUENCHED unit that met silence is served as an UNRESPONSIVE one (R174). -/
def Hub.accessState (h : Hub) (u : Nat) : RunState :=
  if h.runState u = .quenched ∧ h.uget F.SPK_UNIT_STATE_silent u = 1 then .unresponsive else h.runState u

/-- The quiet path, else scan, else neither (R112). -/
def quietOrScan (r : WinRange) : Except Status Path :=
  if r.quiet then .ok .quiet else if r.scan then .ok .scan else .error .noPath

/-- The path of a PEEK (`quiet` false) or QPEEK in a run state (R112); an unbacked word has none (R526). -/
def readPath (st : RunState) (quiet : Bool) (r : Option WinRange) : Except Status Path :=
  match st with
  | .gated => .error .gated
  | .resetting => .error .resetting
  | .running | .fenced | .haltPending =>
    match r with
    | none => .error .noPath
    | some r => if !quiet then .ok .functional else if r.quiet then .ok .quiet else .error .sideEffect
  | .halted | .haltedHolding | .quenched =>
    match r with
    | none => .error .noPath
    | some r => if !quiet && r.sideEffect then .error .held else quietOrScan r
  | .unresponsive =>
    if !quiet then .error .unresponsive
    else
      match r with
      | none => .error .noPath
      | some r => if r.scan then .ok .scan else .error .noPath

/-- A window word that a read returns: the word as known while the unit's clock stands still, else a value the spec
leaves open. A word read while the clock stands still stays known. -/
def Hub.windowWord (u w : Nat) (h : Hub) : Word × Hub :=
  match aGet (fun _ => none) (h.unit u).win w with
  | some v => (v, h)
  | none =>
    let v := h.freeWord
    let h := h.drew
    if (h.runState u).still ∧ (h.unit u).step.isNone then
      (v, h.modUnit u fun x => { x with win := aPut (fun _ => none) w (some v) x.win })
    else (v, h)

/-- The status of a read that took place by a path (R112). -/
def Path.status : Path → Status
  | .scan => .viaScan
  | _ => .ok

/-- A PEEK that performs a side effect writes a class 0xC2 record naming its issuer (R113). -/
def Hub.peekRecord (t u w issuer : Nat) (h : Hub) : Hub := h.emit t u 0xC2 none (issuer % 4096 * 65536 + w)

/-- A read of window word `w` of unit `u` for hub source `issuer` (R112 to R114): its status, the word where it took
place, and what it leaves. -/
def Hub.readUnit (t u w : Nat) (quiet : Bool) (issuer : Nat) (h : Hub) : Status × Word × Hub :=
  let r := rangeOf u w
  match readPath (h.accessState u) quiet r with
  | .error st => (st, 0, h)
  | .ok p =>
    let (answered, h) := if p = .scan then (true, h) else h.handshake u
    if !answered then
      let h := h.fallSilent t u
      if !quiet || !((r.map WinRange.scan).getD false) then (.timeout, 0, h)
      else
        let ok := h.freeWord.toNat % 2 == 0
        let h := h.drew
        if ok then
          let (v, h) := h.windowWord u w
          (.viaScan, v, h)
        else (.timeout, 0, h)
    else
      let h := if p = .functional && ((r.map WinRange.sideEffect).getD false) then h.peekRecord t u w issuer else h
      let (v, h) := h.windowWord u w
      (p.status, v, h)

/-- PEEK or QPEEK of core `c`. -/
def effPeek (t c : Nat) (rd : RegNo) (x : UnitTarget) (quiet : Bool) (h : Hub) : Effect :=
  if x.reservedSet then h.endStatus c .reserved
  else if !unitOk x.target then h.endStatus c .noUnit
  else if h.coreLevel c < 2 then h.authRefused.endStatus c .auth
  else if !h.spokeOn (dieOf x.target) then h.endStatus c .poweredOff
  else
    let r := h.readUnit t x.target x.word quiet c
    r.2.2.endResult c rd r.2.1 r.1

/-- PEEK (R112). -/
def execPeek (c : Nat) (rd rs1 : RegNo) (off : BitVec 13) (s : State) : Out :=
  s.instr c fun t h => sEffect rd (effPeek t c rd (unitTarget (h.gpr c rs1) off false) false h)

/-- QPEEK (R112). -/
def execQpeek (c : Nat) (rd rs1 : RegNo) (off : BitVec 13) (s : State) : Out :=
  s.instr c fun t h => sEffect rd (effPeek t c rd (unitTarget (h.gpr c rs1) off false) true h)

/-! ### Writes -/

/-- The status with which a POKE, or a POKE with FORCE, meets a run state (R112); OK where it is carried out. -/
def pokeState (st : RunState) (force : Bool) : Status :=
  match st with
  | .running => if force then .notHeld else .ok
  | .fenced => .fenced
  | .haltPending => if force then .busy else .held
  | .halted | .haltedHolding | .quenched => if force then .ok else .held
  | .gated => .gated
  | .resetting => .resetting
  | .unresponsive => if force then .ok else .unresponsive

/-- A poke that a fenced partition's boundary refuses is new work that it counts (R365, R366). -/
def Hub.countFenced (u : Nat) (st : Status) (h : Hub) : Hub :=
  if st = .fenced then h.sbump F.ANV_RCV_COUNT_refused_new (nodeOf (dieOf u)) 0 1 else h

/-- A write to window word `w` of unit `u` (R112, R526): by the functional path, or by scan with FORCE. -/
def Hub.writeUnit (t u w : Nat) (data : Word) (force : Bool) (h : Hub) : Status × Hub :=
  let st := pokeState (h.accessState u) force
  if st ≠ .ok then (st, h.countFenced u st)
  else
    match rangeOf u w with
    | none => (.noPath, h)
    | some r =>
      if !r.writable || (force && !r.scan) then (.noPath, h)
      else
        let (answered, h) := if force then (true, h) else h.handshake u
        if answered then (.ok, h.applyPoke t u w data (if force then 2 else 0)) else (.timeout, h.fallSilent t u)

/-- The status with which a POKEP meets a run state (R112). -/
def pokepState : RunState → Status
  | .running => .notHeld
  | .fenced => .fenced
  | .haltPending | .halted | .haltedHolding | .quenched => .staged
  | .gated => .gated
  | .resetting => .resetting
  | .unresponsive => .unresponsive

/-- A staged write joins the pending-poke queue of its unit's spoke (R112, R115, R526). -/
def Hub.queuePoke (u w stager : Nat) (data : Word) (h : Hub) : Status × Hub :=
  let st := pokepState (h.accessState u)
  if st ≠ .staged then (st, h.countFenced u st)
  else if !((rangeOf u w).map WinRange.writable).getD false then (.noPath, h)
  else if 16 ≤ (h.spoke (dieOf u)).ppq.length then (.queueFull, h)
  else (.staged, h.modSpoke (dieOf u) fun x => { x with ppq := x.ppq ++ [{ unit := u, off13 := w, stager, data }] })

/-- A POKE or POKEP on every unit of a group, each on its own (R117). -/
def Hub.pokeEach (f : Nat → Hub → Status × Hub) (us : List Nat) (h : Hub) : List (Nat × Status) × Hub :=
  us.foldl (fun r u =>
    let x := match r.2.refusesUnit u with
      | some st => (st, r.2)
      | none => f u r.2
    (r.1 ++ [(u, x.1)], x.2)) ([], h)

/-- POKE or POKEP of core `c`: the refusals of R567, of which staging checks no NO_UNIT (R430), staging (R109), and the write to one unit or to a group with its
result vector (R117, R120, R123). -/
def effPoke (c : Nat) (x : UnitTarget) (group : Bool) (act : StagedAct) (f : Nat → Hub → Status × Hub) (h : Hub) :
    Effect :=
  if x.reservedSet then h.endStatus c .reserved
  else if !group && !unitOk x.target && (h.openTxn (.core c)).isNone then h.endStatus c .noUnit
  else if h.coreLevel c < 3 then h.authRefused.endStatus c .auth
  else
    match h.openTxn (.core c) with
    | some n =>
      let r := h.stage n act
      r.2.endStatus c r.1
    | none =>
      if h.retired ∧ (group ∨ h.spokeOn (dieOf x.target)) then h.endStatus c .retired
      else
        let r := h.pokeEach f (h.targets x.target group)
        (if group then r.2.coreVector c r.1 else r.2).endStatus c (overall group r.1)

/-- POKE, with FORCE and GROUP as flags (R112, R117). -/
def execPoke (c : Nat) (rs2 rs1 : RegNo) (off : BitVec 13) (force group : Bool) (s : State) : Out :=
  s.instr c fun t h =>
    let x := unitTarget (h.gpr c rs1) off group
    let v := h.gpr c rs2
    effPoke c x group (.poke x.target group x.word v force) (fun u h => h.writeUnit t u x.word v force) h

/-- POKEP, with GROUP as a flag (R115, R117). -/
def execPokep (c : Nat) (rs2 rs1 : RegNo) (off : BitVec 13) (group : Bool) (s : State) : Out :=
  s.instr c fun _ h =>
    let x := unitTarget (h.gpr c rs1) off group
    let v := h.gpr c rs2
    effPoke c x group (.pokep x.target group x.word v) (fun u h => h.queuePoke u x.word c v) h

end Sys2Proof.Machine
end

