-- ==== Sys2Proof/Machine/Capture.lean ====
section
/-! DEFINITION. Captures: their start, reading, close and release (R249 to R277). -/

namespace Sys2Proof.Machine

open Sys2Proof

/-! ### Jobs and their ends (R150, R272, R313) -/

/-- The capture of a handle. -/
def Hub.capture (h : Hub) (k : Nat) : Option CaptureX := aFind k h.captures
/-- Replace a capture. -/
def Hub.setCapture (k : Nat) (x : CaptureX) (h : Hub) : Hub :=
  { h with captures := if h.captures.any (fun e => e.1 = k) then
      h.captures.map fun e => if e.1 = k then (k, x) else e
    else h.captures ++ [(k, x)] }
/-- Change a capture. -/
def Hub.modCapture (k : Nat) (f : CaptureX → CaptureX) (h : Hub) : Hub :=
  { h with captures := h.captures.map fun e => if e.1 = k then (k, f e.2) else e }
/-- The capture in a job slot that is between start and close, or was the last to close there. -/
def Hub.slotCapture (h : Hub) (slot : Nat) : Option (Nat × CaptureX) :=
  h.captures.find? fun e => e.1 = h.get F.CRU_JOB_handle slot ∧ e.2.slot = slot

/-- What a CWAIT on a Swage handle finds (R313): the job's engine and slot. -/
def Hub.swageSlot (h : Hub) (handle : Nat) : Option Nat :=
  (h.swg.find? fun e => e.2.handle = handle).map Prod.fst

/-- What CWAIT returns for a handle: nothing while the job runs; else the status, the result, and whether rd is
written (R90, R270, R272, R313). -/
def Hub.jobOutcome (h : Hub) (handle : Nat) : Option (Status × Nat × Bool) :=
  if h.heldJobs.any fun e => e.1 = handle then none
  else if bitAt handle 15 then
    match h.swageSlot handle with
    | none => some (.noUnit, 0, false)
    | some k =>
      match h.get F.SWG_JOB_state k with
      | 2 => some (.swgNeedbuf, 0, false)
      | 3 => some (Status.ofCode (h.get F.SWG_JOB_status k), ((aFind k h.swg).map SwgJob.out).getD 0, true)
      | _ => none
  else
    match h.capture handle with
    | none => some (.noUnit, 0, false)
    | some x => if x.state = 4 then some (Status.ofCode x.status, x.manifest, (Status.ofCode x.status).took) else none

/-- An outcome in the registers of the CWAIT that waited for it. -/
def Hub.endCwait (c : Nat) (rd : RegNo) (o : Status × Nat × Bool) (h : Hub) : Hub :=
  (if o.2.2 then h.setGpr c rd (BitVec.ofNat 64 o.2.1) else h).setStatus c o.1

/-- The job of a handle has ended, or is suspended: the cores that wait for it go on, and JOB slots deliver (R150). -/
def Hub.jobReport (t handle : Nat) (st : Status) (h : Hub) : Hub :=
  let h := if st = .swgNeedbuf then h else { h with doneJobs := aPut (fun _ => 2 ^ 16) handle st.code h.doneJobs }
  let h := match h.jobOutcome handle with
    | none => h
    | some o => allCores.foldl (fun h c =>
        match (h.core c).wait with
        | .cwait rd k _ => if k = handle then (h.endCwait c rd o).retire t c (h.pc c + 4) else h
        | _ => h) h
  h.jobEvent t handle st

/-- A job ends: during a handover a capture's end is reported at the handover instant (R267). -/
def Hub.jobDone (t handle : Nat) (st : Status) (h : Hub) : Hub :=
  if h.failover && !bitAt handle 15 then { h with heldJobs := h.heldJobs ++ [(handle, st)] }
  else h.jobReport t handle st

/-- A handle is new: nothing is known of an earlier job that carried it. -/
def Hub.freshJob (handle : Nat) (issuer : Option Nat) (h : Hub) : Hub :=
  let h := { h with doneJobs := aKeep (· ≠ handle) h.doneJobs }
  let h := { h with cores := h.cores.map fun e => (e.1, { e.2 with jobs := e.2.jobs.filter (· ≠ handle) }) }
  match issuer with
  | some c => h.modCore c fun x => { x with jobs := x.jobs ++ [handle] }
  | none => h

/-- CWAIT (R313). A status below 0x0100 that delivers nothing leaves rd as it was, as the DEADLINE of a wait does. DESIGN
CHOICE (assumption 65): R90 states no value of rd there. -/
def effCwait (t c : Nat) (rd : RegNo) (arg deadline : Nat) (h : Hub) : Effect :=
  if 65536 ≤ arg then h.endStatus c .reserved
  else
    match h.jobOutcome arg with
    | some o => .done (h.endCwait c rd o)
    | none =>
      if deadlinePast t deadline then h.endStatus c .pending
      else .stay (h.modCore c fun x => { x with wait := .cwait rd arg deadline })

/-- CWAIT (R313). -/
def execCwait (c : Nat) (rd rs1 rs2 : RegNo) (s : State) : Out :=
  s.instr c fun t h => sEffect rd (effCwait t c rd (h.gpr c rs1).toNat (h.gpr c rs2).toNat h)

/-- CWAIT_DEADLINE (R313). -/
def execCwaitDeadline (c : Nat) (s : State) : Out :=
  if coreOk c then s.liftAt (s.hub.waitDue c Wait.isCwait) fun t h => h.endWaitStatus t c .pending
  else .refused .illFormed

/-! ### Placing a capture (R242, R253) -/

/-- A region has its final state: omitted, or every block has a status and a scan was valid (R264). -/
def RegionX.finished (r : RegionX) : Bool :=
  r.omitted.isSome || (r.blk.length == r.blocks && (r.kind != 1 || r.scanOk || r.reason != 0 || r.stopped.isSome))

/-- CRU_JOB_s and CRU_JOB_MANIFEST_s follow a capture. -/
def Hub.syncJob (k : Nat) (h : Hub) : Hub :=
  match h.capture k with
  | none => h
  | some x =>
    if h.get F.CRU_JOB_handle x.slot ≠ k then h
    else
      h.put F.CRU_JOB_state x.slot x.state
        |>.put F.CRU_JOB_status x.slot x.status
        |>.put F.CRU_JOB_regions_open x.slot
          (if x.state = 4 then 0 else sat 16 (x.plan.regions.filter fun r => !r.finished).length)
        |>.put F.CRU_JOB_MANIFEST_addr x.slot x.manifest

/-- A capture takes `n` bytes of node `p`, in whole extents. -/
def Hub.takeSpace (k p n : Nat) (h : Hub) : Option (List (Nat × Nat) × Hub) :=
  match h.capture k with
  | none => none
  | some x =>
    (pickRuns (alignUp n extentBytes) (h.spaceFor x.plan.incident p)).map fun runs =>
      (runs, h.modCapture k fun x => { x with extents := x.extents ++ runs })

/-- A capture takes `n` bytes of node `p` in one piece, in whole extents (assumption 20). -/
def Hub.takeWhole (k p n : Nat) (h : Hub) : Option (Nat × Hub) :=
  match h.capture k with
  | none => none
  | some x =>
    (pickWhole (alignUp n extentBytes) (h.spaceFor x.plan.incident p)).map fun runs =>
      (runAt runs 0, h.modCapture k fun x => { x with extents := x.extents ++ runs })
/-- A capture takes a region's space (R253): its slots with its backed reserve, or a raised region's slots alone. -/
def Hub.takeRegion (k : Nat) (r : RegionX) (h : Hub) : Option (List (Nat × Nat) × Hub) :=
  if r.omitted.isSome then some ([], h)
  else if !r.raised then h.takeSpace k r.node r.takes
  else
    match h.capture k with
    | none => none
    | some x =>
      (pickSlots (slotBytes r.target) r.blocks (h.spaceFor x.plan.incident r.node)).map fun runs =>
        (runs, h.modCapture k fun x => { x with extents := x.extents ++ runs })

/-- A capture gives extents back. -/
def Hub.giveSpace (k : Nat) (runs : List (Nat × Nat)) (h : Hub) : Hub :=
  h.modCapture k fun x => { x with extents := x.extents.flatMap fun e => runs.foldl (fun l r => cutRuns r l) [e] }

/-- Place the regions of a capture (R253), in plan order. -/
def placeRegions (k : Nat) : List RegionX → Hub → Option (List RegionX × Hub)
  | [], h => some ([], h)
  | r :: rs, h =>
    match h.takeRegion k r with
    | none => none
    | some (runs, h) =>
      let r' := { r with area := runs, ovf := if r.raised || r.target = 0 then []
                                              else afterSlots (slotBytes r.target) r.blocks runs }
      (placeRegions k rs h).map fun x => (r' :: x.1, x.2)

/-- Place the block indexes of a capture (R253). -/
def placeIndexes (k : Nat) (rs : List RegionX) : List Nat → Hub → Option Hub
  | [], h => some h
  | p :: ps, h =>
    let n := blocksAt rs p
    if n = 0 then placeIndexes k rs ps h
    else
      match h.takeWhole k p (8 * n) with
      | none => none
      | some (a, h) => placeIndexes k rs ps (h.modCapture k fun x => { x with idx := x.idx ++ [(p, (a, n))] })

/-- A sized capture takes its space: manifest, block indexes, regions (R253); none where it does not fit. -/
def Hub.placeCapture (k : Nat) (h : Hub) : Option Hub :=
  match h.capture k with
  | none => none
  | some x =>
    match h.sizePlan x.plan with
    | none => none
    | some rs =>
      let p := { x.plan with regions := rs }
      match h.takeWhole k (h.manifestNode p) p.manifestBytes with
      | none => none
      | some (a, h1) =>
        let h1 := h1.modCapture k fun x => { x with manifest := a }
        match placeIndexes k rs (List.range 8) h1 with
        | none => none
        | some h2 =>
          match placeRegions k rs h2 with
          | none => none
          | some (rs', h3) =>
            some (h3.modCapture k fun x => { x with state := 2, plan := { x.plan with regions := rs' } })

/-- A capture ends with a status (R270): its handle is DONE, and its end is reported. -/
def Hub.finishCapture (t k : Nat) (st : Status) (h : Hub) : Hub :=
  match h.capture k with
  | none => h
  | some x =>
    let h := (h.setCapture k { x with state := 4, status := st.code, closedAt := t }).syncJob k
    let h := if x.number = 0xFF then h
      else h.heldEvent t 2 (x.number * 2 ^ 8 + x.starter * 2 ^ 14 + st.code * 2 ^ 16 + k * 2 ^ 32)
    ((h.jobDone t k st).resizePlans.incidentClosed t k).mapOutWaits

/-! ### Starting (R249 to R252, R44) -/

/-- An action that needs a part Ember switched off starts the exit (R44, R561). -/
def Hub.wakeEmber (t cause : Nat) (h : Hub) : Hub :=
  let p := h.get F.HRT_EMBER_STATUS_phase
  if p = 1 ∨ p = 2 then
    { (h.put F.HRT_EMBER_STATUS_phase 0 3).put F.HRT_EMBER_STATUS_last_exit_cause 0 cause with emberExitAt := t }
  else h

/-- The run state, resume state and held sync object of a unit, as a manifest gives them (R275). -/
def Hub.unitEntry (h : Hub) (u : Nat) : Nat × Nat :=
  let st := h.runState u
  let res := h.uget F.SPK_UNIT_STATE_resume u
  let holds := st = .haltedHolding ∨ (st = .quenched ∧ res = 2)
  (st.code + res * 16, if holds then h.uget F.SPK_UNIT_STATE_hold_sync u else 0)

/-- The next sequence count that gives slot `slot` a handle no held capture carries (R272). -/
def Hub.nextSequence (h : Hub) (slot : Nat) : Nat → Nat → Nat
  | 0, seq => seq
  | fuel + 1, seq =>
    let seq := (seq + 1) % 8192
    if (h.capture (slot + 4 * seq)).isSome then h.nextSequence slot fuel seq else seq

/-- A capture starts: a job slot that no running capture has, a handle, and the units as they stand (R249, R275). The
sequence count is the hub's, one for each start (DESIGN CHOICE, assumption 21). -/
def Hub.openCapture (t : Nat) (p : PlanX) (number starter : Nat) (issuer : Option Nat) (h : Hub) : Nat × Hub :=
  let busy := fun s => h.captures.any fun e => e.2.slot = s ∧ e.2.state < 4
  let slot := ((List.range 4).find? fun s => !busy s).getD 0
  let seq := h.nextSequence slot (h.captures.length + 1) h.captureSeq
  let k := slot + 4 * seq
  let x : CaptureX :=
    { slot, plan := p, number, starter, startedAt := t, q := if p.quenched then h.get F.HRT_QCH_TIME_q_first else 0
      unitsAtStart := if p.quenched then [] else (unitsIn p.dieMask).map fun u => (u, h.unitEntry u) }
  let h := { h with captureSeq := seq }
  (k, ((h.setCapture k x).put F.CRU_JOB_handle slot k).syncJob k |>.freshJob k issuer)

/-- The refusals of R249 and R253 that depend on the machine, in order (R543 among BUSY). -/
def Hub.captureRefusal (h : Hub) (p : PlanX) : Option Status :=
  if h.planNotHeld p then some .notHeld
  else if 4 ≤ h.capturesRunning ∨ (p.quenched ∧ h.warmRunning) then some .busy
  else if p.incident ∧ p.regions.any (fun r => h.shareTaken (h.regionNode r)) then some .busy
  else none

/-- The body of CAPT once the Hearth serves it (R249). -/
def effCapt (t c : Nat) (rd : RegNo) (addr : Word) (h : Hub) : Effect :=
  match h.checkPlan addr.toNat (h.coreLevel c) with
  | .error st => (if st = .auth then h.authRefused else h).endStatus c st
  | .ok p =>
    match h.captureRefusal p with
    | some st => h.endStatus c st
    | none =>
      let (k, h) := (h.wakeEmber t 2).openCapture t p 0xFF 3 (some c)
      h.endResult c rd (BitVec.ofNat 64 k) .ok

/-- CAPT (R249). -/
def execCapt (c : Nat) (rd rs1 : RegNo) (s : State) : Out :=
  s.instr c fun t h => sEffect rd (hearthEffect c (.capt rd (h.gpr c rs1)) (effCapt t c rd (h.gpr c rs1)) h)

/-- A registered plan is started by number (R252): the status, and the handle where it starts. -/
def Hub.startNumber (t n starter : Nat) (h : Hub) : Status × Nat × Hub :=
  match aFind n h.plans with
  | none => (.notHeld, 0, h)
  | some p =>
    match h.captureRefusal p with
    | some st => (st, 0, h)
    | none =>
      if h.get F.CRU_PLAN_state n ≠ 1 ∨ (h.sizePlan p).isNone then (.noSpace, 0, h)
      else
        let (k, h) := (h.wakeEmber t 2).openCapture t p n starter none
        match h.placeCapture k with
        | some h => (.ok, k, (h.syncJob k).resizePlans)
        | none => (.noSpace, 0, h.finishCapture t k .noSpace)

/-- CRU_RESULT of a master. -/
def Hub.captureResult (m : Master) (handle : Nat) (st : Status) (h : Hub) : Hub :=
  (h.put F.CRU_RESULT_handle m.idx handle).put F.CRU_RESULT_status m.idx st.code

/-- A write to CRU_PLAN_n with valid set (R251). -/
def cmdPlanRegister (m : Master) (n a : Nat) : RegCmd :=
  { pre := fun _ => if !inScratch a 64 then some .unmapped else if a % 8 ≠ 0 then some .align else none
    body := fun _ h =>
      let h := { (h.put F.CRU_PLAN_addr n a).put F.CRU_PLAN_valid n 1 with plans := aKeep (· ≠ n) h.plans }
      match h.checkPlan a (h.levelOf m) with
      | .error st => (.ok, (h.put F.CRU_PLAN_state n 3).captureResult m 0 st)
      | .ok p =>
        let h := { h with plans := aKeep (· < n) h.plans ++ [(n, p)] ++ aKeep (n < ·) h.plans }
        (.ok, h.resizePlans.captureResult m 0 .ok) }
/-- The word of CRU_PLAN_n that registers a plan. -/
def planWord (a : Nat) (valid : Bool) : Word := BitVec.ofNat 64 (a % 2 ^ 48 + b2n valid * 2 ^ 48)

/-- PLAN_REGISTER (R251). -/
def execPlanRegister (m : Master) (n addr : Nat) (s : State) : Out :=
  if n < 64 ∧ addr < 2 ^ 48 then
    s.cmd m 3 (cmdPlanRegister m n addr |>.at s.hub .CRU_PLAN n (planWord addr true))
  else .refused .illFormed

/-- A write to CRU_PLAN_n with valid clear (R251). -/
def cmdPlanClear (n : Nat) (addr : Option Nat) : RegCmd :=
  plainCmd false fun _ h =>
    let h := match addr with
      | some a => h.put F.CRU_PLAN_addr n a
      | none => h
    { (h.put F.CRU_PLAN_valid n 0).put F.CRU_PLAN_state n 0 with plans := aKeep (· ≠ n) h.plans }

/-- PLAN_CLEAR (R251): the address field keeps its value. -/
def execPlanClear (m : Master) (n : Nat) (s : State) : Out :=
  if n < 64 then
    s.cmd m 3 (cmdPlanClear n none |>.at s.hub .CRU_PLAN n (planWord (s.hub.get F.CRU_PLAN_addr n) false))
  else .refused .illFormed

/-- A write to CRU_START (R249, R252): level 3 for a plan with QUENCHED or INCIDENT set. -/
def cmdCaptureStart (m : Master) (n : Nat) : RegCmd :=
  { txn := .refuse
    body := fun t h =>
      if h.levelOf m < ((aFind n h.plans).map PlanX.level).getD 2 then (.auth, h.authRefused)
      else
        let r := h.startNumber t n 2
        (.ok, r.2.2.captureResult m r.2.1 r.1) }

/-- CAPTURE_START_REG (R252). -/
def execCaptureStartReg (m : Master) (n : Nat) (s : State) : Out :=
  if n < 64 then s.cmd m 2 (cmdCaptureStart m n) else .refused .illFormed

/-- The scan segments that running captures need, 64 per die: those of the units they read by scan (R511, R533). -/
def Hub.scanSegments (h : Hub) : List Nat :=
  h.captures.flatMap fun e =>
    if e.2.state ≠ 2 then []
    else (e.2.plan.regions.filter fun r =>
        r.omitted.isNone && (r.kind == 1 || !r.queued.isEmpty || e.2.silentBanks.any (fun b => b.1 == dieOf r.unit && r.kind == 0))
          && decide (r.blk.length < r.blocks)).map fun r =>
      dieOf r.unit * 64 + Config.scanSegment r.unit % 64
/-- A segment that a capture needs is taken from JTAG at once: its SIB closes (R511). -/
def Hub.closeSibs (h : Hub) : Hub :=
  let used := h.scanSegments
  { h with tap := { h.tap with sibs := h.tap.sibs.filter fun x => !used.contains x } }

/-- The planner finishes sizing the capture of a slot (R250, R254, R255); it waits while the hub leaves Ember (R44). -/
def Hub.sizingDone (t slot : Nat) (h : Hub) : Hub :=
  match h.slotCapture slot with
  | none => h
  | some (k, x) =>
    if x.state ≠ 1 ∨ h.get F.HRT_EMBER_STATUS_phase ≠ 0 then h
    else
      match h.placeCapture k with
      | some h => ((h.syncJob k).resizePlans).closeSibs
      | none => h.finishCapture t k .noSpace

/-- SIZING_DONE (R254). -/
def execSizingDone (slot : Nat) (s : State) : Out := s.liftIf (decide (slot < 4)) fun t h => h.sizingDone t slot

/-! ### Reading (R259 to R265) -/

/-- The spoke that reads a region. -/
def RegionX.spoke (r : RegionX) : Nat := (r.die).getD r.node
/-- A region of a running capture: the capture's handle, the capture, the region. -/
def Hub.openRegion (h : Hub) (slot i : Nat) : Option (Nat × CaptureX × RegionX) :=
  match h.slotCapture slot with
  | none => none
  | some (k, x) =>
    if x.state ≠ 2 ∨ x.cancelled ∨ h.get F.HRT_EMBER_STATUS_phase ≠ 0 then none
    else (x.plan.regions[i]?).bind fun r => if r.omitted.isSome then none else some (k, x, r)
/-- Replace region `i` of a capture. -/
def Hub.setRegion (k i : Nat) (r : RegionX) (h : Hub) : Hub :=
  h.modCapture k fun x => { x with plan := { x.plan with regions := setAt x.plan.regions i r } }
/-- A region's reads are stamped (R265). -/
def RegionX.stamped (t : Nat) (r : RegionX) : RegionX :=
  { r with begun := true, first := if r.begun then r.first else t, last := t }
/-- A block of a region gets its status. -/
def RegionX.setBlk (b : Nat) (x : BlockX) (r : RegionX) : RegionX :=
  { r with blk := aPut (fun _ => { status := 8 }) b x r.blk }
/-- A block of a region cannot be read (R264): its status, and the region's first reason. -/
def RegionX.lose (b reason : Nat) (r : RegionX) : RegionX :=
  if reason = 8 then r.setBlk b { status := 4 }
  else { r.setBlk b { status := 3 } with reason := if r.reason = 0 then reason else r.reason }
/-- The blocks of a region without a status. -/
def RegionX.unread (r : RegionX) : List Nat := (List.range r.blocks).filter fun b => (aFind b r.blk).isNone
/-- Every block of a region without a status gets one. -/
def RegionX.loseAll (reason : Nat) (r : RegionX) : RegionX := r.unread.foldl (fun r b => r.lose b reason) r

/-- Blocks of region `i` are recorded as lost for a reason (8: GATED), and counted at the spoke. -/
def Hub.loseBlocks (k i : Nat) (r : RegionX) (bs : List Nat) (reason : Nat) (h : Hub) : Hub :=
  let h := h.setRegion k i (bs.foldl (fun r b => r.lose b reason) r)
  if reason = 8 then h.syncJob k
  else (h.sbump F.SPK_CAP_ERR_unreadable_blocks r.spoke 0 bs.length).syncJob k

/-- Why a region cannot be read at its start or any more (R260, R265, R559): 8 stands for GATED. -/
def Hub.regionBarred (h : Hub) (r : RegionX) : Option Nat :=
  if r.kind = 1 ∨ r.kind = 2 then
    match r.stopped with
    | some .gated => some 8
    | some _ => some 3
    | none =>
      if !h.spokeOn (dieOf r.unit) then some 1
      else
        match h.runState r.unit with
        | .gated => some 8
        | .resetting => some 3
        | .halted | .haltedHolding | .quenched | .unresponsive => none
        | _ => if r.kind = 1 ∧ !r.begun then some 4 else none
  else if r.kind = 0 ∧ !h.spokeOn (dieOf r.unit) then some 1
  else none

/-- The SRAM bank that holds block `b` of a region (R247). -/
def RegionX.bank (r : RegionX) (b : Nat) : Nat × Nat :=
  (dieOf r.unit, (r.off + 4096 * b) / bankSize (dieOf r.unit))
/-- Block `b` of an SRAM region is read through scan (R263, R528). -/
def CaptureX.byScan (x : CaptureX) (r : RegionX) (b : Nat) : Bool :=
  r.kind == 0 && (x.silentBanks.contains (r.bank b) || r.queued.contains b)

/-- Block `b` of a region goes through the scan engine of its spoke, and else through the read-out engine (R259). DEDUCED
(assumption 70): R259 names no source of WINDOW and HUB blocks. -/
def CaptureX.scans (x : CaptureX) (r : RegionX) (b : Nat) : Bool := r.kind == 1 || x.byScan r b
/-- A region has blocks left for the read-out engine, or for the scan engine, of a spoke. -/
def CaptureX.leaves (x : CaptureX) (n : Nat) (scan : Bool) (r : RegionX) : Bool :=
  r.omitted.isNone && r.spoke == n && r.unread.any fun b => x.scans r b == scan
/-- A capture with URGENT set. -/
def CaptureX.urgent (x : CaptureX) : Bool := bitAt x.plan.flags 2
/-- The captures that read, in the order in which they started (R267). -/
def Hub.reading (h : Hub) : List (Nat × CaptureX) := h.captures.filter fun e => e.2.state == 2 && !e.2.cancelled
/-- The reading captures that go before capture `k` (R267): those that started earlier, and the urgent ones before one
that is not. -/
def Hub.before (h : Hub) (k : Nat) : List (Nat × CaptureX) :=
  let urgent := (h.capture k).map CaptureX.urgent == some true
  let earlier := h.reading.takeWhile fun e => e.1 ≠ k
  let later := (h.reading.dropWhile fun e => e.1 ≠ k).drop 1
  if urgent then earlier.filter fun e => e.2.urgent else earlier ++ later.filter fun e => e.2.urgent
/-- Region `r` of capture `k` may be read at a source now (R267): it has begun, or it is its capture's turn there and no
region of another capture is under way. -/
def Hub.mayRead (h : Hub) (k n : Nat) (scan : Bool) (r : RegionX) : Bool :=
  r.begun || (!(h.before k).any fun e => e.2.plan.regions.any (e.2.leaves n scan)) &&
    !h.reading.any fun e => e.1 != k && e.2.plan.regions.any fun q => q.begun && e.2.leaves n scan q
/-- A base die's SRAM waits for that of its node's compute dies (R258), in this capture and those before it. -/
def Hub.baseWaits (h : Hub) (k : Nat) (r : RegionX) : Bool :=
  r.kind == 0 && decide (dieOf r.unit < 8) &&
    ((h.reading.filter fun e => e.1 == k) ++ h.before k).any fun e => e.2.plan.regions.any fun q =>
      q.kind == 0 && q.omitted.isNone && decide (8 ≤ dieOf q.unit) && nodeOf (dieOf q.unit) == dieOf r.unit &&
        decide (q.blk.length < q.blocks)
/-- The memory-access scan of a bank waits for the bank's blocks that the capture reads through its port (R263). -/
def CaptureX.scanWaits (x : CaptureX) (r : RegionX) (b : Nat) : Bool :=
  r.kind == 0 && x.byScan r b && x.plan.regions.any fun q =>
    q.kind == 0 && q.omitted.isNone && q.unread.any fun c => q.bank c == r.bank b && !x.byScan q c
/-- The credits a source holds (R259): 8, less one for each block it reads, which are as many of those left as it has
credits for; none while no capture reads from it. DEDUCED (assumption 70). -/
def Hub.credits (h : Hub) (n : Nat) (scan : Bool) : Nat :=
  let mine := h.reading.flatMap fun e => (e.2.plan.regions.filter fun r => r.omitted.isNone && r.spoke == n).map fun r => (e.2, r)
  if mine.isEmpty then 0
  else 8 - min 8 ((mine.map fun e => (e.2.unread.filter fun b => e.1.scans e.2 b == scan).length).foldl (· + ·) 0)

/-- The words of a block of a WINDOW region, each read as QPEEK would (R262): the bytes, whether some came through
scan, and the first refusal. -/
def Hub.windowBlock (t : Nat) (r : RegionX) (b : Nat) (h : Hub) : List Byte × Bool × Option Status × Hub :=
  (List.range (min 512 (r.len / 8 - 512 * b))).foldl (fun x w =>
    let y := x.2.2.2.readUnit t r.unit ((r.off / 8 + 512 * b + w) % 8192) true 0xFFFF
    (x.1 ++ bytesLE 8 y.2.1.toNat, x.2.1 || y.1 == .viaScan,
      if x.2.2.1.isNone && !y.1.took then some y.1 else x.2.2.1, y.2.2)) ([], false, none, h)
/-- The reason a refused word gives its block (R262, R276). -/
def windowReason : Status → Nat
  | .gated => 8
  | .resetting => 3
  | .timeout => 1
  | _ => 2

/-- Write bytes at byte `o` of runs. -/
def Hub.writeRuns (runs : List (Nat × Nat)) (o : Nat) (bs : List Byte) (h : Hub) : Hub :=
  ((dropRuns o runs).foldl (fun (x : List Byte × Hub) r => (x.1.drop r.2, x.2.setBytes r.1 (x.1.take r.2))) (bs, h)).2

/-- A location in an index entry: KiB from the node's Crucible base (R277). -/
def locOf (p a : Nat) : Nat := (a - nodeBase p) / 1024

/-- The raw original of a block whose coding did not fit (R257): into the region's own reserve, its share of the spill
buffer while the host path is healthy, or the node's leftover space; else it stays where it is until the close. -/
def Hub.overflow (k i b : Nat) (r : RegionX) (raw : List Byte) (scan : Bool) (h : Hub) : Hub :=
  let base : BlockX := { status := 2, size := 4, viaScan := scan }
  if r.ovfUsed + 4096 ≤ runBytes r.ovf then
    (h.writeRuns r.ovf r.ovfUsed raw).setRegion k i
      { r.setBlk b { base with loc := locOf r.node (runAt r.ovf r.ovfUsed) } with ovfUsed := r.ovfUsed + 4096 }
  else if r.spillUsed + 4096 ≤ runBytes r.spill ∧ h.hostHealthy then
    (h.setBytes (hostBase + h.get F.CRU_SPILL_BASE_base + runAt r.spill r.spillUsed) raw).setRegion k i
      { r.setBlk b { base with loc := runAt r.spill r.spillUsed / 1024, host := true }
        with spillUsed := r.spillUsed + 4096 }
  else
    match h.takeSpace k r.node 4096 with
    | some (runs, h) =>
      (h.writeRuns runs 0 raw).setRegion k i
        { r.setBlk b { base with loc := locOf r.node (runAt runs 0) } with
          ovf := r.ovf ++ runs, ovfUsed := runBytes r.ovf + 4096 }
    | none => h.setRegion k i (r.setBlk b { base with kept := some raw })

/-- A block passes the Swage engine of its node (SWG_ENG, SWG_COUNT). -/
def Hub.swageCount (p : Nat) (fixed nofit : Nat) (h : Hub) : Hub :=
  h.bump F.SWG_ENG_blocks_total p 1 |>.bump F.SWG_COUNT_fixed_blocks p fixed |>.bump F.SWG_COUNT_nofit p nofit

/-- A block that was read is stored as its region's coder says (R259, R296, R300). -/
def Hub.storeBlock (k i b : Nat) (r : RegionX) (raw : List Byte) (scan : Bool) (h : Hub) : Hub :=
  let l16 := bitAt r.coder 3
  if r.predictive then
    let code := (smaller (constBlock l16 0 raw) (predBlock l16 false 0 raw)).getD raw
    let kib := (code.length + 1023) / 1024
    let size := min 4 kib
    let o := fitAt (size * 1024) r.tail r.area
    let x : BlockX := { status := b2n (size ≠ 4), size, viaScan := scan, loc := locOf r.node (runAt r.area o) }
    (h.writeRuns r.area o (if 4 ≤ kib then raw else code)).swageCount r.node 0 0
      |>.setRegion k i { r.setBlk b x with tail := o + size * 1024 }
  else if r.target = 0 then
    (h.setBytes (slotAt 4096 b r.area) raw).setRegion k i
      (r.setBlk b { status := 0, size := 4, viaScan := scan, loc := locOf r.node (slotAt 4096 b r.area) })
  else
    match fixedCode l16 r.target 0 raw with
    | some code =>
      let a := slotAt (slotBytes r.target) b r.area
      (h.setBytes a code).swageCount r.node 1 0
        |>.setRegion k i (r.setBlk b { status := 1, size := 4 - r.target, viaScan := scan, loc := locOf r.node a })
    | none => (h.swageCount r.node 0 1).overflow k i b r raw scan

/-- One block of a region is committed (R258 to R265, R267), where its source may read it; `data` are the bytes of an SRAM
or SCAN block. -/
def Hub.blockCommit (t slot i b : Nat) (data : List Byte) (h : Hub) : Hub :=
  match h.openRegion slot i with
  | none => h
  | some (k, x, r) =>
    if r.blocks ≤ b ∨ (aFind b r.blk).isSome ∨ !h.mayRead k r.spoke (x.scans r b) r ∨ h.baseWaits k r ∨ x.scanWaits r b then h
    else
      match h.regionBarred r with
      | some reason => h.loseBlocks k i r r.unread reason
      | none =>
        let r := r.stamped t
        let n := r.spoke
        let same := h.sget F.SPK_CAP_STATUS_handle n = k
        let h := (h.sput F.SPK_CAP_STATUS_handle n 0 k).sput F.SPK_CAP_STATUS_blocks_done n 0
          ((if same then h.sget F.SPK_CAP_STATUS_blocks_done n else 0) + 1)
        let pad := fun bs : List Byte => bs ++ List.replicate (4096 - bs.length) 0
        let h := match r.kind with
          | 2 =>
            let y := h.windowBlock t r b
            match y.2.2.1 with
            | some st => y.2.2.2.loseBlocks k i r [b] (windowReason st)
            | none => y.2.2.2.storeBlock k i b r (pad y.1) y.2.1
          | 3 => h.storeBlock k i b r (pad (h.bytes (r.off + 4096 * b) (min 4096 (r.len - 4096 * b)))) false
          | _ => h.storeBlock k i b r data (r.kind == 1 || x.byScan r b)
        h.syncJob k

/-- BLOCK_COMMIT (R259): an SRAM or SCAN block has 4 KiB. -/
def execBlockCommit (slot region block : Nat) (data : List Byte) (s : State) : Out :=
  let sized := match s.hub.openRegion slot region with
    | some (_, _, r) => decide (2 ≤ r.kind) || data.length == 4096
    | none => true
  s.liftIf (decide (slot < 4) && sized) fun t h => h.blockCommit t slot region block data

/-- The blocks of a region that a failed scan loses: all of a SCAN region, those of an SRAM bank that scan reads. -/
def CaptureX.scanned (x : CaptureX) (r : RegionX) (bank : Nat) : List Nat :=
  if r.kind = 1 then List.range r.blocks else r.unread.filter fun b => x.byScan r b && (r.bank b).2 == bank

/-- A scan access of a region, or of one bank of an SRAM region, fails (R261, R263). -/
def Hub.scanFails (t slot i bank : Nat) (h : Hub) : Hub :=
  match h.openRegion slot i with
  | none => h
  | some (k, x, r) =>
    if 2 ≤ r.kind ∨ r.scanOk then h
    else
      match h.regionBarred r with
      | some reason => h.loseBlocks k i r r.unread reason
      | none =>
        (h.sbump F.SPK_CAP_ERR_scan_failures r.spoke 0 1).loseBlocks k i (r.stamped t) (x.scanned r bank) 1

/-- A region's scan has failed once and starts over (R261): what a SCAN region had stored is stored again. -/
def RegionX.retry (bank : Nat) (r : RegionX) : RegionX :=
  let r := { r with retried := bank :: r.retried }
  if r.kind = 1 then { r with blk := [], tail := 0, ovfUsed := 0, spillUsed := 0 } else r

/-- A scan read ends (R261): valid, tried once more, or failed; an SRAM region has one for each bank (R263). -/
def Hub.scanDone (t slot i bank : Nat) (ok : Bool) (h : Hub) : Hub :=
  match h.openRegion slot i with
  | none => h
  | some (k, _, r) =>
    if 2 ≤ r.kind ∨ r.scanOk then h
    else
      match h.regionBarred r with
      | some reason => h.loseBlocks k i r r.unread reason
      | none =>
        let bank := if r.kind = 1 then 0 else bank
        if ok then
          (h.setRegion k i { r.stamped t with scanOk := r.kind = 1, retried := r.retried.filter (· ≠ bank) }).syncJob k
        else if !r.retried.contains bank then
          ((h.sbump F.SPK_CAP_ERR_scan_retries r.spoke 0 1).setRegion k i ((r.stamped t).retry bank)).syncJob k
        else h.scanFails t slot i bank

/-- SCAN_READ_DONE (R261). -/
def execScanReadDone (slot : Nat) (scan : RegionScan) (sentinelOk : Bool) (s : State) : Out :=
  s.liftIf (decide (slot < 4) && decide (scan.bank < 8)) fun t h => h.scanDone t slot scan.region scan.bank sentinelOk

/-- SCAN_SILENCE (R261): no edge for 2 µs. -/
def execScanSilence (slot : Nat) (scan : RegionScan) (s : State) : Out :=
  s.liftIf (decide (slot < 4) && decide (scan.bank < 8)) fun t h => h.scanFails t slot scan.region scan.bank

/-- Act on every region of every running capture. -/
def Hub.eachRegion (f : Nat → CaptureX → Nat → RegionX → Hub → Hub) (h : Hub) : Hub :=
  h.captures.foldl (fun h e =>
    if e.2.state ≠ 2 then h
    else (List.range e.2.plan.regions.length).foldl (fun h i =>
      match (h.capture e.1).bind fun x => (x.plan.regions[i]?).map fun r => (x, r) with
      | some (x, r) => if r.omitted.isSome then h else f e.1 x i r h
      | none => h) h) h

/-- An SRAM read-out port falls silent (R263). -/
def Hub.portSilent (d bank : Nat) (h : Hub) : Hub :=
  let uses := fun (e : Nat × CaptureX) => e.2.state == 2 && e.2.plan.regions.any fun r =>
    r.kind == 0 && r.unread.any fun b => r.bank b == (d, bank)
  if !h.captures.any uses then h
  else
    let h := h.sbump F.SPK_CAP_ERR_port_silence d 0 1
    let caps := h.captures.map fun e =>
      if uses e then (e.1, { e.2 with silentBanks := e.2.silentBanks ++ [(d, bank)] }) else e
    let h := { h with captures := caps }
    h.eachRegion fun k x i r h =>
      if r.kind = 0 ∧ x.plan.fallbackMs = 0 then
        h.loseBlocks k i r (r.unread.filter fun b => r.bank b = (d, bank)) 1
      else h

/-- SRAM_PORT_SILENCE (R263). -/
def execSramPortSilence (die bank : Nat) (s : State) : Out :=
  s.liftIf (decide (die < 32) && decide (bank < 8)) fun _ h => (h.portSilent die bank).closeSibs

/-- A block with an uncorrectable error is treated as if the port had fallen silent (R263, R528). -/
def Hub.uncorrectable (slot i b : Nat) (h : Hub) : Hub :=
  match h.openRegion slot i with
  | none => h
  | some (k, x, r) =>
    if r.kind ≠ 0 ∨ r.blocks ≤ b ∨ (aFind b r.blk).isSome then h
    else if x.plan.fallbackMs = 0 then h.loseBlocks k i r [b] 1
    else h.setRegion k i { r with queued := r.queued ++ [b] }

/-- SRAM_UNCORRECTABLE (R528). -/
def execSramUncorrectable (slot region block : Nat) (s : State) : Out :=
  s.liftIf (decide (slot < 4)) fun _ h => (h.uncorrectable slot region block).closeSibs

/-- When the scan fallback of a capture ends (R263). -/
def Hub.fallbackDue (h : Hub) (slot : Nat) : Option Nat :=
  (h.slotCapture slot).bind fun e =>
    if e.2.state = 2 ∧ e.2.plan.fallbackMs ≠ 0 then some (e.2.startedAt + ms e.2.plan.fallbackMs) else none

/-- The fallback deadline passes (R263): blocks still to be scanned are UNREADABLE with reason DEADLINE. -/
def Hub.fallbackEnds (slot : Nat) (h : Hub) : Hub :=
  match h.slotCapture slot with
  | none => h
  | some e => h.eachRegion fun k x i r h =>
      if k = e.1 ∧ r.kind = 0 then h.loseBlocks k i r (r.unread.filter (x.byScan r)) 5 else h

/-- SRAM_FALLBACK_DEADLINE (R263). -/
def execSramFallbackDeadline (slot : Nat) (s : State) : Out :=
  if slot < 4 then s.liftAt (s.hub.fallbackDue slot) fun _ h => h.fallbackEnds slot else .refused .illFormed

/-- The spill-backed reserves of running captures become unbacked; what they hold stays (R256). -/
def Hub.unbackSpill (h : Hub) : Hub :=
  { h with captures := h.captures.map fun e =>
      if e.2.state < 4 then
        (e.1, { e.2 with plan := { e.2.plan with
          regions := e.2.plan.regions.map fun r => { r with spill := takeRuns r.spillUsed r.spill } } })
      else e }

/-! ### Closing (R257, R269 to R277) -/

/-- How many blocks of a region have a status. -/
def RegionX.count (st : Nat) (r : RegionX) : Nat := (r.blk.filter fun e => e.2.status = st).length
/-- A region's status (R269) by the codes of R276. -/
def RegionX.status (r : RegionX) : Nat :=
  if r.omitted.isSome then 5
  else if r.count 3 ≠ 0 then 3
  else if r.count 4 ≠ 0 then 4
  else if r.count 2 ≠ 0 then 2
  else if r.count 1 ≠ 0 then 1
  else 0
/-- A region's reason (R276). -/
def RegionX.shownReason (r : RegionX) : Nat := r.omitted.getD (if r.status = 3 then r.reason else 0)

/-- At the close, regions that cannot be read are recorded so (R260, R265). -/
def Hub.barUnread (k : Nat) (h : Hub) : Hub :=
  h.eachRegion fun k' _ i r h =>
    if k' ≠ k ∨ r.finished then h
    else match h.regionBarred r with
      | some reason => h.loseBlocks k i r r.unread reason
      | none => h

/-- The regions of a cancelled capture that are not finished are OMITTED with reason CANCELLED (R271). -/
def Hub.omitUnread (k : Nat) (h : Hub) : Hub :=
  h.modCapture k fun x => { x with plan := { x.plan with regions := x.plan.regions.map fun r =>
    if r.finished then r else { r with omitted := some 7 } } }

/-- The raw originals of a region that have no space yet. -/
def RegionX.keptBlocks (r : RegionX) : List (Nat × List Byte) :=
  r.blk.filterMap fun e => e.2.kept.map fun bs => (e.1, bs)

/-- Every original of a region finds space, or none of them. -/
def Hub.settleRegion (k i : Nat) (r : RegionX) (h : Hub) : Option Hub :=
  if r.keptBlocks.isEmpty then some h
  else
    (h.takeSpace k r.node (4096 * r.keptBlocks.length)).map fun x =>
      let s := r.keptBlocks.foldl (fun (y : RegionX × Nat × Hub) b =>
        let runs := x.1
        (y.1.setBlk b.1 { (aGet (fun _ => { status := 2, size := 4 }) y.1.blk b.1) with
            kept := none, loc := locOf r.node (runAt runs y.2.1) },
          y.2.1 + 4096, y.2.2.writeRuns runs y.2.1 b.2)) (r, 0, x.2)
      s.2.2.setRegion k i s.1

/-- Settle the overflow of the regions `i` to `n − 1` in priority order (R257): regions that do not all find space are
omitted from the end, one at a time, and their space goes to the regions still waiting. -/
def Hub.settleOverflow (k : Nat) : Nat → Hub → Hub
  | 0, h => h
  | fuel + 1, h =>
    match h.capture k with
    | none => h
    | some x =>
      let waits := (List.range x.plan.regions.length).filter fun i =>
        match x.plan.regions[i]? with
        | some r => r.omitted.isNone && !r.keptBlocks.isEmpty
        | none => false
      let all := waits.foldl (fun (o : Option Hub) i =>
        o.bind fun h => match (h.capture k).bind fun x => x.plan.regions[i]? with
          | some r => h.settleRegion k i r
          | none => some h) (some h)
      match all with
      | some h => h
      | none =>
        let stuck := fun p => (waits.filter fun i => ((x.plan.regions[i]?).map RegionX.node).getD 8 = p)
          |>.foldl (fun (o : Option Hub) i => o.bind fun h => match x.plan.regions[i]? with
            | some r => h.settleRegion k i r
            | none => some h) (some h) |>.isNone
        match waits.reverse.find? fun i => stuck (((x.plan.regions[i]?).map RegionX.node).getD 8) with
        | none => h
        | some i =>
          match x.plan.regions[i]? with
          | none => h
          | some r =>
            ((h.giveSpace k (r.area ++ r.ovf)).setRegion k i
              { r with omitted := some 6, blk := [], spillUsed := 0 }).settleOverflow k fuel

/-- An index entry (R277). -/
def BlockX.entry (b : BlockX) : Nat :=
  if b.status = 3 ∨ b.status = 4 then b.status * 2 ^ 35 + b2n b.viaScan * 2 ^ 38
  else b.loc + b.size * 2 ^ 32 + b.status * 2 ^ 35 + b2n b.viaScan * 2 ^ 38 + b2n b.host * 2 ^ 39
/-- The index entries of node `p`, in region order (R277). -/
def indexEntries (rs : List RegionX) (p : Nat) : List Nat :=
  (rs.filter fun r => r.node = p ∧ r.omitted = none).flatMap fun r =>
    (List.range r.blocks).map fun b => (aGet (fun _ => { status := 3 }) r.blk b).entry
/-- The first block of region `i` in its node's index (R276). -/
def firstBlock (rs : List RegionX) (i p : Nat) : Nat := blocksAt (rs.take i) p

/-- A region's entry in the manifest (R276); in an image the blocks of its node are numbered from `base` (R278). -/
def regionEntry (rs : List RegionX) (i : Nat) (r : RegionX) (base : Nat := 0) : List Byte :=
  let gone := r.omitted.isSome
  bytesLE 1 r.kind ++ bytesLE 1 r.status ++ bytesLE 1 r.shownReason ++ bytesLE 1 r.coder ++ bytesLE 2 r.unit
    ++ bytesLE 1 r.node ++ bytesLE 1 0 ++ bytesLE 8 r.off ++ bytesLE 8 r.len
    ++ bytesLE 4 (base + firstBlock rs i r.node) ++ bytesLE 4 (if gone then 0 else r.blocks)
    ++ bytesLE 4 (r.count 1) ++ bytesLE 4 (r.count 2) ++ bytesLE 4 (r.count 3) ++ bytesLE 4 (r.count 4)
    ++ bytesLE 8 r.first ++ bytesLE 8 r.last

/-- A unit's entry in the manifest (R275). -/
def Hub.unitBytes (h : Hub) (x : CaptureX) (u : Nat) : List Byte :=
  let e := if x.plan.quenched then h.unitEntry u else aGet (fun _ => (0, 0)) x.unitsAtStart u
  let q := x.plan.quenched
  bytesLE 2 u ++ bytesLE 1 e.1 ++ bytesLE 1 (if q then b2n (h.unit u).noAck else 0) ++ bytesLE 2 e.2 ++ bytesLE 2 0
    ++ bytesLE 8 (if q then (h.unit u).stopAt else 0)

/-- A capture's flags in its manifest (R274). -/
def CaptureX.flags (x : CaptureX) (st : Status) : Nat := x.plan.flags % 4 + (if st = .partialResult then 4 else 0)
/-- Overflow blocks of a capture, and of them the spilled ones (R274). -/
def CaptureX.overflows (x : CaptureX) (host : Bool) : Nat :=
  ((x.plan.regions.filter fun r => r.omitted = none).map fun r =>
    (r.blk.filter fun e => e.2.status = 2 ∧ (!host || e.2.host)).length).foldl (· + ·) 0

/-- The manifest of a capture (R274 to R276). -/
def Hub.manifest (h : Hub) (t k : Nat) (st : Status) (x : CaptureX) : List Byte :=
  let us := unitsIn x.plan.dieMask
  let rs := x.plan.regions
  bytesLE 2 1 ++ bytesLE 2 (x.flags st) ++ bytesLE 2 k ++ bytesLE 1 x.number ++ bytesLE 1 0 ++ bytesLE 2 st.code
    ++ bytesLE 2 0 ++ bytesLE 4 us.length ++ bytesLE 4 rs.length ++ bytesLE 4 x.plan.dieMask ++ bytesLE 8 x.plan.tag
    ++ bytesLE 8 x.q ++ bytesLE 8 x.startedAt ++ bytesLE 8 t ++ bytesLE 4 (x.overflows false)
    ++ bytesLE 4 (x.overflows true)
    ++ ((List.range 8).flatMap fun p =>
      let e := aGet (fun _ => (0, 0)) x.idx p
      bytesLE 8 e.1 ++ bytesLE 4 (blocksAt rs p) ++ bytesLE 4 0)
    ++ us.flatMap (h.unitBytes x) ++ (rs.zipIdx.flatMap fun r => regionEntry rs r.2 r.1)

/-- The indexes and the manifest are sealed (R274, R277). -/
def Hub.seal (t k : Nat) (st : Status) (h : Hub) : Hub :=
  match h.capture k with
  | none => h
  | some x =>
    let h := x.idx.foldl (fun h e => h.setBytes e.2.1 ((indexEntries x.plan.regions e.1).flatMap (bytesLE 8))) h
    h.setBytes x.manifest (h.manifest t k st x)

/-- A capture closes once every region is finished (R264, R270). -/
def Hub.closeCapture (t k : Nat) (h : Hub) : Hub :=
  match h.capture k with
  | none => h
  | some x =>
    if x.state ≠ 2 then h
    else
      let h := if x.cancelled then h.omitUnread k else h.barUnread k
      match h.capture k with
      | none => h
      | some y =>
        if y.plan.regions.any (fun r => !r.finished) then h
        else
          let h := (h.modCapture k (fun x => { x with state := 3 })).settleOverflow k (y.plan.regions.length + 1)
          let bad := ((h.capture k).map fun x => x.plan.regions.any fun r => decide (3 ≤ r.status)).getD false
          let st : Status := if bad then .partialResult else .ok
          (h.seal t k st).finishCapture t k st

/-- CAPTURE_CLOSE (R270). -/
def execCaptureClose (slot : Nat) (s : State) : Out :=
  s.liftIf (decide (slot < 4)) fun t h =>
    match h.slotCapture slot with
    | some e => h.closeCapture t e.1
    | none => h

/-! ### Cancel and release (R271, R272) -/

/-- A capture is stopped at the next block boundary of each source (R271). -/
def Hub.cancelCapture (k : Nat) (h : Hub) : Hub := h.modCapture k fun x => { x with cancelled := true }

/-- A write to CRU_CANCEL (R271, R272). -/
def cmdCaptureCancel (k : Nat) : RegCmd :=
  { txn := .refuse
    pre := fun h => if (h.capture k).isNone then some .noUnit else none
    body := fun _ h =>
      match h.capture k with
      | some x => if x.state = 4 then (.notHeld, h) else (.ok, h.cancelCapture k)
      | none => (.noUnit, h) }

/-- CAPTURE_CANCEL (R271). -/
def execCaptureCancel (m : Master) (handle : Nat) (s : State) : Out :=
  if handle < 65536 then s.cmd m 3 (cmdCaptureCancel handle) else .refused .illFormed

/-- A closed capture's extents are freed once its exports have ended (R272). -/
def Hub.releaseCapture (k : Nat) (h : Hub) : Hub :=
  match h.capture k with
  | none => h
  | some x =>
    if x.exports ≠ 0 then h.modCapture k fun x => { x with releaseAsked := true }
    else { h with captures := aKeep (· ≠ k) h.captures }.resizePlans

/-- A write to CRU_RELEASE (R272). -/
def cmdCaptureRelease (k : Nat) : RegCmd :=
  { txn := .refuse
    pre := fun h => if (h.capture k).isNone then some .noUnit else none
    body := fun _ h =>
      match h.capture k with
      | some x => if x.state ≠ 4 then (.busy, h) else (.ok, h.releaseCapture k)
      | none => (.noUnit, h) }

/-- CAPTURE_RELEASE (R272). -/
def execCaptureRelease (m : Master) (handle : Nat) (s : State) : Out :=
  if handle < 65536 then s.cmd m 3 (cmdCaptureRelease handle) else .refused .illFormed

end Sys2Proof.Machine
end

