-- ==== Sys2Proof/Machine/Swage.lean ====
section
/-! DEFINITION. Swage jobs: SWG, the blocks an engine codes, buffer chains, and their end (R307 to R316). -/

namespace Sys2Proof.Machine

open Sys2Proof

/-- The copy number of job slot `s` of engine `p`. -/
def jobSlot (p s : Nat) : Nat := p * 4 + s
/-- The job in a slot. -/
def Hub.job (h : Hub) (k : Nat) : Option SwgJob := aFind k h.swg
/-- Replace the job in a slot. -/
def Hub.setJob (k : Nat) (j : SwgJob) (h : Hub) : Hub :=
  { h with swg := aKeep (· < k) h.swg ++ [(k, j)] ++ aKeep (k < ·) h.swg }
/-- A job is open: running or suspended. -/
def Hub.jobOpen (h : Hub) (k : Nat) : Bool := h.get F.SWG_JOB_state k == 1 || h.get F.SWG_JOB_state k == 2
/-- Some job is open on some engine (R316). -/
def Hub.anyJobOpen (h : Hub) : Bool := (List.range 32).any h.jobOpen
/-- SWG_ENG.jobs_open follows the slots of engine `p`. -/
def Hub.countJobs (p : Nat) (h : Hub) : Hub :=
  h.put F.SWG_ENG_jobs_open p ((List.range 4).filter fun s => h.jobOpen (jobSlot p s)).length
/-- SWG_JOB_PROG_s follows a job. -/
def Hub.progress (k : Nat) (j : SwgJob) (h : Hub) : Hub :=
  (h.setJob k j).put F.SWG_JOB_PROG_blocks k (sat 20 j.blocks)
    |>.put F.SWG_JOB_PROG_nofit k (sat 16 j.nofit)
    |>.put F.SWG_JOB_PROG_out_64 k (if j.desc.op = 2 then 0 else j.out / 64)

/-! ### Address checks (R245, R307 to R309) -/

/-- `n` bytes at `a` lie in Hearth scratch or the Crucible. -/
def inHubMem (a n : Nat) : Bool := inScratch a n || inCrucible a n
/-- The boot flash window (R35). -/
def flashBase : Nat := 0x2000000000
/-- `n` bytes at `a` lie in the flash window. -/
def inFlash (a n : Nat) : Bool := decide (flashBase ≤ a) && decide (a + n ≤ flashBase + 0x4000000)
/-- The range touches a Crucible bank group that is mapped out (R39). -/
def Hub.mappedOut (h : Hub) (a n : Nat) : Bool :=
  (List.range 8).any fun p => (List.range 8).any fun g =>
    !h.mappedIn p g && overlaps (a, n) (groupBase p g, 64 * mib)
/-- The range touches an extent held by a capture (R245). -/
def Hub.inHeld (h : Hub) (a n : Nat) : Bool := (List.range 8).any fun p => (h.heldExtents p).any (overlaps (a, n))
/-- The range touches a reserved share or a trace segment (R245). -/
def Hub.inReserved (h : Hub) (a n : Nat) : Bool :=
  (List.range 8).any fun p =>
    overlaps (a, n) (h.ledgerShare p, 24 * mib) || (h.segBase p != 0 && overlaps (a, n) (h.segBase p, h.segSize))
/-- A master other than an engine may not write the range (R245). -/
def Hub.crucibleReadOnly (h : Hub) (a n : Nat) : Bool := h.inHeld a n || h.inReserved a n

/-- The buffers of the chain of descriptors from `d` on, as the descriptors stand. -/
def Hub.chainRanges (h : Hub) : Nat → List Nat → Nat → List (Nat × Nat)
  | 0, _, _ => []
  | fuel + 1, seen, d =>
    if d = 0 ∨ !inHubMem d 32 ∨ seen.contains d then []
    else (h.rd d 8, h.rd (d + 8) 4) :: h.chainRanges fuel (d :: seen) (h.rd (d + 16) 8)
/-- The buffers of a job that it has not reached: the rest of its chain, and the appended ones (R311). -/
def Hub.unreached (h : Hub) (j : SwgJob) : List (Nat × Nat) :=
  let rest := match j.bufs.getLast? with
    | none => j.desc.chain
    | some b => b.next
  h.chainRanges (2 ^ 20) [] rest ++ j.queue.flatMap (h.chainRanges (2 ^ 20) [])
/-- Ranges that the open jobs but job `k` read or write (R308). -/
def Hub.jobRanges (h : Hub) (k : Nat) : List (Nat × Nat) :=
  (h.swg.filter fun e => e.1 ≠ k ∧ h.jobOpen e.1).flatMap fun e =>
    (e.2.desc.source, e.2.desc.length) :: (e.2.bufs.map fun b => (b.addr, b.size)) ++
      if e.2.desc.op = 2 then [] else h.unreached e.2

/-- The buffer descriptor at an address, checked (R308, R309): its status, or the buffer. -/
def Hub.readBuf (h : Hub) (k d : Nat) : Except Status SwgBuf :=
  let a := h.rd d 8
  let size := h.rd (d + 8) 4
  if !inHubMem d 32 then .error .unmapped
  else if size % 64 ≠ 0 ∨ size < 4160 then .error .reserved
  else if !inHubMem a size then .error .unmapped
  else if d % 8 ≠ 0 ∨ a % 64 ≠ 0 then .error .align
  else if h.mappedOut a size then .error .mappedOut
  else if h.crucibleReadOnly a size then .error .readOnly
  else if (h.jobRanges k).any (overlaps (a, size)) then .error .busy
  else .ok { desc := d, addr := a, size, next := h.rd (d + 16) 8 }

/-- The job descriptor at an address (R307). -/
def Hub.readJob (h : Hub) (a : Nat) : SwgDesc :=
  { op := h.rd (a + 6) 1, coder := h.rd (a + 7) 1 % 16, policy := h.rd (a + 8) 1, left := h.rd (a + 9) 1 == 1
    pitch := h.rd (a + 10) 2, source := h.rd (a + 16) 8, length := h.rd (a + 24) 8, chain := h.rd (a + 32) 8
    outLimit := h.rd (a + 40) 8, list := h.rd (a + 48) 6, listCap := h.rd (a + 54) 2 }

/-- The target ratio of a COMPRESS job. -/
def SwgDesc.target (d : SwgDesc) : Nat := d.coder % 4
/-- 16-bit lanes. -/
def SwgDesc.lane16 (d : SwgDesc) : Bool := bitAt d.coder 3
/-- A predictive COMPRESS. -/
def SwgDesc.predictive (d : SwgDesc) : Bool := bitAt d.coder 2
/-- A fixed-ratio COMPRESS. -/
def SwgDesc.fixed (d : SwgDesc) : Bool := d.op == 0 && !d.predictive

/-- The descriptor holds a reserved encoding (R307, R308). -/
def Hub.jobBad (h : Hub) (a : Nat) : Bool :=
  let d := h.readJob a
  let coder := h.rd (a + 7) 1
  let lists := h.rd (a + 48) 8
  let most := if d.lane16 then 2047 else 4095
  h.rd a 4 != 0x44475753 || h.rd (a + 4) 2 != 1 || decide (2 < d.op) || (d.op != 0 && coder != 0) ||
  !(decide (d.policy < 3) || (decide (8 ≤ d.policy) && decide (d.policy < 16))) || decide (1 < h.rd (a + 9) 1) ||
  (d.left && (d.pitch == 0 || decide (most < d.pitch))) || (!d.left && d.pitch != 0) ||
  d.length == 0 || decide (2 ^ 30 < d.length) || (d.op == 0 && d.length % laneBytes d.lane16 != 0) ||
  (d.op == 0 && d.target == 0 && !d.predictive) || (d.op == 0 && d.predictive && d.target != 0) ||
  (d.op == 2 && d.chain != 0) || (d.op == 1 && d.outLimit == 0) || (d.op != 1 && d.outLimit != 0) ||
  (!d.fixed && lists != 0)

/-- Where entry `i` of a job's list of blocks that did not fit stands (R307): a local address of the issuer, or a hub
address. -/
def listAddr (c : Nat) (d : SwgDesc) (i : Nat) : Nat :=
  (if d.list < localSize c then localBase c else 0) + d.list + 4 * i
/-- The list lies in the issuer's local memory, in Hearth scratch or in the Crucible. -/
def listMapped (c : Nat) (d : SwgDesc) : Bool :=
  d.listCap == 0 || decide (d.list + 4 * d.listCap ≤ localSize c) || inHubMem d.list (4 * d.listCap)

/-- The refusals of R308 in order, for core `c` at an engine; else the descriptor. -/
def Hub.checkJob (h : Hub) (c a : Nat) : Except Status (SwgDesc × Nat) :=
  if 2 ^ 48 ≤ a then .error .reserved
  else if !inHubMem a 64 then .error .unmapped
  else if h.jobBad a then .error .reserved
  else
    let d := h.readJob a
    let eng := h.rd (a + 12) 1
    let p := if bitAt eng 7 then eng % 8 else if isHearthCore c then h.hearthDie else nodeOf (dieOf c)
    let buf := h.readBuf 32 d.chain
    let held := h.inHeld d.source d.length
    let bufErr : Status → Bool := fun st => d.op != 2 && (match buf with | .error e => e == st | .ok _ => false)
    if bufErr .reserved then .error .reserved
    else if !(inHubMem d.source d.length || inFlash d.source d.length) || !listMapped c d then .error .unmapped
    else if bufErr .unmapped then .error .unmapped
    else if a % 8 ≠ 0 ∨ d.source % 8 ≠ 0 ∨ d.list % 4 ≠ 0 ∨ bufErr .align then .error .align
    else if h.coreLevel c < 2 ∨ (held ∧ h.coreLevel c < 3) then .error .auth
    else if h.mappedOut d.source d.length ∨ bufErr .mappedOut then .error .mappedOut
    else if bufErr .readOnly then .error .readOnly
    else if h.swageBad p then .error .unresponsive
    else if (List.range 4).all (fun s => h.jobOpen (jobSlot p s)) ∨ bufErr .busy then .error .busy
    else .ok (d, p)

/-- SWG (R307): the job takes a slot of its engine; in Ember it starts the exit and runs when its engine is powered
(R316). -/
def effSwg (t c : Nat) (rd : RegNo) (addr : Word) (h : Hub) : Effect :=
  let a := addr.toNat
  match h.checkJob c a with
  | .error st => (if st = .auth then h.authRefused else h).endStatus c st
  | .ok (d, p) =>
    let s := ((List.range 4).find? fun s => !h.jobOpen (jobSlot p s)).getD 0
    let k := jobSlot p s
    let seq := (h.swgSeq + 1) % 1024
    let handle := 2 ^ 15 + p * 2 ^ 12 + s * 2 ^ 10 + seq
    let h := { h.wakeEmber t 2 with swgSeq := seq }
    let h := h.progress k { handle, issuer := c, desc := d }
      |>.put F.SWG_JOB_handle k handle
      |>.put F.SWG_JOB_state k 1
      |>.put F.SWG_JOB_detail k 0
      |>.put F.SWG_JOB_status k 0
      |>.put F.SWG_JOB_DESC_addr k a
      |>.put F.SWG_JOB_DESC_issuer k c
      |>.countJobs p
      |>.freshJob handle (some c)
    h.endResult c rd (BitVec.ofNat 64 handle) .ok

/-- SWG (R307). -/
def execSwg (c : Nat) (rd rs1 : RegNo) (s : State) : Out :=
  s.instr c fun t h => sEffect rd (effSwg t c rd (h.gpr c rs1) h)

/-! ### Running a job (R310 to R312) -/

/-- The buffer a job fills. -/
def SwgJob.current (j : SwgJob) : Option SwgBuf := (j.bufs.getLast?).filter fun b => !b.closed
/-- Replace the last buffer of a job. -/
def SwgJob.setCurrent (b : SwgBuf) (j : SwgJob) : SwgJob := { j with bufs := j.bufs.dropLast ++ [b] }

/-- The current buffer of a job closes: used, blocks and the closed flag go to its descriptor (R309, R310), unless that
stands in a mapped-out bank group (R39). -/
def Hub.closeBuf (k : Nat) (h : Hub) : Hub :=
  match (h.job k).bind fun j => j.current.map fun b => (j, b) with
  | some (j, b) =>
    (if h.mappedOut b.desc 32 then h
      else ((h.wr (b.desc + 12) 4 b.used).wr (b.desc + 24) 4 b.blocks).wr (b.desc + 28) 4
        (setBits (h.rd (b.desc + 28) 4) 0 1 1)).setJob k (j.setCurrent { b with closed := true })
  | none => h

/-- A job ends with a status and a detail (R304, R312, R314). -/
def Hub.endJob (t k : Nat) (st : Status) (detail : Nat) (h : Hub) : Hub :=
  match h.job k with
  | none => h
  | some j =>
    let h := (h.closeBuf k).put F.SWG_JOB_state k 3
      |>.put F.SWG_JOB_status k st.code
      |>.put F.SWG_JOB_detail k detail
      |>.countJobs (k / 4)
    h.jobReport t j.handle st

/-- The descriptor of the next buffer of a job: the chain's first, the last buffer's next, or an appended one (R311),
with what waits after it. -/
def SwgJob.nextBuf (j : SwgJob) : Option (Nat × List Nat) :=
  match j.bufs.getLast? with
  | none => some (j.desc.chain, j.queue)
  | some b =>
    if b.next ≠ 0 then some (b.next, j.queue)
    else match j.queue with
      | d :: r => some (d, r)
      | [] => none

/-- The job suspends for lack of a buffer (R311). -/
def Hub.suspendJob (t k : Nat) (h : Hub) : Hub :=
  match h.job k with
  | none => h
  | some j => (h.put F.SWG_JOB_state k 2).jobReport t j.handle .swgNeedbuf

/-- A buffer with room for `n` bytes: the current one, or the next; else the job suspends or ends (R310, R311). -/
def Hub.needBuf (t k n : Nat) (h : Hub) : Option SwgBuf × Hub :=
  match h.job k with
  | none => (none, h)
  | some j =>
    match j.current.filter fun b => b.used + n ≤ b.size with
    | some b => (some b, h)
    | none =>
      let lost := (j.current.map fun b => h.mappedOut b.desc 32).getD false
      let h := h.closeBuf k
      let j := (h.job k).getD j
      if lost then (none, h.endJob t k .mappedOut 0)
      else match j.nextBuf with
      | none => (none, h.suspendJob t k)
      | some (d, rest) =>
        match h.readBuf k d with
        | .error st => (none, h.endJob t k st 0)
        | .ok b => (some b, h.setJob k { j with bufs := j.bufs ++ [b], queue := rest })

/-- A block's output goes whole to a buffer (R310); the job advances by `take` source bytes and counts `out` bytes. -/
def Hub.placeOut (t k take out : Nat) (bs : List Byte) (h : Hub) : Option Hub × Hub :=
  match h.needBuf t k bs.length with
  | (none, h) => (none, h)
  | (some b, h) =>
    match h.job k with
    | none => (none, h)
    | some j =>
      if h.mappedOut (b.addr + b.used) bs.length then (none, h.endJob t k .mappedOut 0)
      else
        let h := h.setBytes (b.addr + b.used) bs
        let j := j.setCurrent { b with used := b.used + bs.length, blocks := b.blocks + 1 }
        let h := h.progress k { j with pos := j.pos + take, blocks := j.blocks + 1, out := j.out + out }
        (some h, h)

/-- A job whose source is used up ends (R312). -/
def Hub.jobNext (t k : Nat) (h : Hub) : Hub :=
  match h.job k with
  | none => h
  | some j =>
    if j.pos < j.desc.length then h
    else h.endJob t k (if j.nofit = 0 then .ok else .swgNofit) 0

/-- One block of a COMPRESS job (R300, R310, R312). -/
def Hub.compressBlock (t k : Nat) (j : SwgJob) (h : Hub) : Hub :=
  let n := min 4096 (j.desc.length - j.pos)
  let src := h.bytes (j.desc.source + j.pos) n
  let d := j.desc
  let p := k / 4
  if d.predictive then
    let bs := predCode d.lane16 d.left d.pitch src
    match h.placeOut t k n bs.length bs with
    | (some h, _) => (h.swageCount p 0 0).jobNext t k
    | (none, h) => h
  else
    let code := fixedCode d.lane16 d.target d.policy src
    let slot := slotBytes d.target
    let bs := code.getD []
    match h.placeOut t k n slot (bs ++ List.replicate (slot - bs.length) 0) with
    | (none, h) => h
    | (some h, _) =>
      let h := h.swageCount p (b2n code.isSome) (b2n code.isNone)
      let h := if code.isSome then h
        else match h.job k with
          | none => h
          | some j' =>
            let a := listAddr j.issuer d j'.nofit
            if j'.nofit < d.listCap ∧ h.mappedOut a 4 then h.endJob t k .mappedOut 0
            else
              let h := if j'.nofit < d.listCap then h.wr a 4 (j.pos / 4096) else h
              h.progress k { j' with nofit := j'.nofit + 1 }
      if h.get F.SWG_JOB_state k = 3 then h else h.jobNext t k

/-- One block of a DECOMPRESS or CHECK job (R303 to R305, R310). -/
def Hub.decodeStep (t k : Nat) (j : SwgJob) (h : Hub) : Hub :=
  let src := h.bytes (j.desc.source + j.pos) (min 4160 (j.desc.length - j.pos))
  let fails := fun (e : Detail) =>
    (h.bump F.SWG_COUNT_dec_refused (k / 4) 1).endJob t k (if e.noSpace then .noSpace else .reserved) e.code
  match decodeBlock src with
  | .error e => fails e
  | .ok d =>
    let limit := min j.desc.outLimit (h.get F.SWG_DEC_LIMIT_limit_kib * 1024)
    if j.desc.op = 1 ∧ limit < j.out + d.data.length then fails .limit
    else if j.desc.op = 2 then
      (h.progress k { j with pos := j.pos + d.advance, blocks := j.blocks + 1, out := j.out + d.data.length }).swageCount
        (k / 4) 0 0 |>.jobNext t k
    else
      match h.placeOut t k d.advance d.data.length d.data with
      | (some h, _) => (h.swageCount (k / 4) 0 0).jobNext t k
      | (none, h) => h

/-- Capture blocks wait at engine `p` (R315): those of its regions that a running capture's sources read now. DEDUCED
(assumption 71). -/
def Hub.captureWaits (h : Hub) (p : Nat) : Bool :=
  h.reading.any fun e => e.2.plan.regions.any fun r =>
    r.node == p && r.omitted.isNone && !h.baseWaits e.1 r &&
      r.unread.any fun b => h.mayRead e.1 r.spoke (e.2.scans r b) r && !e.2.scanWaits r b
/-- The job slot of engine `p` whose turn it is: the running ones in ascending order, one block each (R315). -/
def Hub.swageTurn (h : Hub) (p : Nat) : Option Nat :=
  let last := aGet (fun _ => 3) h.swgTurn p
  ((List.range 4).map fun i => (last + 1 + i) % 4).find? fun s => h.get F.SWG_JOB_state (jobSlot p s) == 1
/-- A Swage engine takes one block of a running job whose turn it is, while no capture block waits there (R310, R315); a
cancel takes effect at this block boundary (R314). -/
def Hub.swageBlock (t k : Nat) (h : Hub) : Hub :=
  match h.job k with
  | none => h
  | some j =>
    if h.get F.SWG_JOB_state k ≠ 1 ∨ !h.domainOn (96 + k / 4) ∨ h.captureWaits (k / 4) ∨
        h.swageTurn (k / 4) ≠ some (k % 4) then h
    else
    let h := { h with swgTurn := aPut (fun _ => 3) (k / 4) (k % 4) h.swgTurn }
    if j.cancelled then h.endJob t k .cancelled 0
    else if j.desc.op = 0 then h.compressBlock t k j
    else h.decodeStep t k j

/-- SWAGE_BLOCK (R310). -/
def execSwageBlock (node slot : Nat) (s : State) : Out :=
  s.liftIf (decide (node < 8) && decide (slot < 4)) fun t h => h.swageBlock t (jobSlot node slot)

/-! ### Chain and cancel (R311, R314) -/

/-- The refusals that SWG_CHAIN and SWG_CANCEL share: no such job, another master's job, a job that has ended. -/
def Hub.jobRefusal (h : Hub) (m : Master) (handle : Nat) : Except Status Nat :=
  match h.swageSlot handle with
  | none => .error .noUnit
  | some k =>
    if ((h.job k).map fun j => decide (m = .core j.issuer)) ≠ some true then .error .notOwner
    else if !h.jobOpen k then .error .notHeld
    else .ok k

/-- A write to SWG_CHAIN (R311, R314). -/
def cmdSwgChain (m : Master) (handle d : Nat) : RegCmd :=
  { txn := .refuse
    pre := fun h => if !inHubMem d 32 then some .unmapped else if (h.swageSlot handle).isNone then some .noUnit
      else if d % 8 ≠ 0 then some .align else none
    body := fun _ h =>
      match h.jobRefusal m handle with
      | .error st => (st, h)
      | .ok k =>
        match h.job k with
        | none => (.noUnit, h)
        | some j =>
          if 8 ≤ j.queue.length then (.busy, h)
          else
            let h := h.setJob k { j with queue := j.queue ++ [d] }
            (.ok, if h.get F.SWG_JOB_state k = 2 then h.put F.SWG_JOB_state k 1 else h) }

/-- SWG_CHAIN_APPEND (R311). -/
def execSwgChainAppend (m : Master) (handle desc : Nat) (s : State) : Out :=
  if handle < 65536 ∧ desc < 2 ^ 48 then s.cmd m 3 (cmdSwgChain m handle desc) else .refused .illFormed

/-- A job is to stop at its next block boundary; a suspended one is at it (R314). -/
def Hub.cancelJob (t k : Nat) (h : Hub) : Hub :=
  if h.get F.SWG_JOB_state k = 2 then h.endJob t k .cancelled 0
  else
    match h.job k with
    | some j => if h.jobOpen k then h.setJob k { j with cancelled := true } else h
    | none => h

/-- A write to SWG_CANCEL (R314). -/
def cmdSwgCancel (m : Master) (handle : Nat) : RegCmd :=
  { txn := .refuse
    pre := fun h => if (h.swageSlot handle).isNone then some .noUnit else none
    body := fun t h =>
      match h.jobRefusal m handle with
      | .error st => (st, h)
      | .ok k => (.ok, h.cancelJob t k) }

/-- SWG_CANCEL (R314). -/
def execSwgCancel (m : Master) (handle : Nat) (s : State) : Out :=
  if handle < 65536 then s.cmd m 3 (cmdSwgCancel m handle) else .refused .illFormed

/-- The reset of a core cancels its jobs (R316). -/
def Hub.cancelJobsOf (t c : Nat) (h : Hub) : Hub :=
  (List.range 32).foldl (fun h k =>
    if h.jobOpen k && ((h.job k).map fun j => j.issuer == c).getD false then h.cancelJob t k else h) h

end Sys2Proof.Machine
end

