-- ==== Sys2Proof/Machine/Export.lean ====
section
/-! DEFINITION. Dump images (R278 to R280) and the export instances that deliver them (R497 to R503). -/

namespace Sys2Proof.Machine

open Sys2Proof

/-! ### The image -/

/-- Exactly `n` bytes. -/
def exportFit (n : Nat) (bs : List Byte) : List Byte := bs.take n ++ List.replicate (n - bs.length) 0
/-- An export instance. -/
def Hub.export_ (h : Hub) (id : Nat) : Option ExportX := aFind id h.exports
/-- Change an instance. -/
def Hub.modExport (id : Nat) (f : ExportX → ExportX) (h : Hub) : Hub :=
  { h with exports := h.exports.map fun e => if e.1 = id then (id, f e.2) else e }

/-- A block as an image holds it (R499, R500): its status, its bytes, and why it is lost there, which is SCAN_FAILED
after a failed VERIFY and NO_PATH without the host path. DESIGN CHOICE (assumption 79): R500 names no reason. -/
def Hub.exportBlock (h : Hub) (e : ExportX) (r : RegionX) (b : BlockX) : BlockX × List Byte × Nat :=
  let lost : BlockX := { status := 3, viaScan := b.viaScan }
  if b.size = 0 then (b, [], 0)
  else if b.host ∧ !h.hostHealthy then (lost, [], 2)
  else
    let a := (if b.host then hostBase + h.get F.CRU_SPILL_BASE_base else nodeBase r.node) + b.loc * 1024
    let bs := h.bytes a (b.size * 1024)
    let l16 := bitAt r.coder 3
    let b := { b with host := false }
    if b.status = 1 ∧ e.verify ∧ (decodeBlock bs matches .error _) then (lost, [], 1)
    else if b.status = 0 ∧ e.recode then
      let code := (smaller (constBlock l16 0 bs) (predBlock l16 false 0 bs)).getD bs
      let kib := (code.length + 1023) / 1024
      if 4 ≤ kib then (b, bs, 0) else ({ b with status := 1, size := kib }, exportFit (kib * 1024) code, 0)
    else (b, bs, 0)

/-- The regions of a capture as an image holds them, their data, and the blocks that failed VERIFY. -/
structure Recoded where
  regions : List RegionX
  data : List Byte := []
  fails : Nat := 0
  deriving DecidableEq, Repr

/-- A region, then those after it, join the data of an image. -/
def Hub.exportRegion (h : Hub) (e : ExportX) (i : Nat) (x : Recoded) : Recoded :=
  match x.regions[i]? with
  | none => x
  | some r =>
    let y := (List.range r.blocks).foldl (fun (y : RegionX × List Byte × Nat) b =>
      let z := h.exportBlock e r (aGet (fun _ => { status := 3 }) r.blk b)
      let r := y.1.setBlk b { z.1 with loc := if z.1.size = 0 then 0 else (x.data.length + y.2.1.length) / 1024 }
      ({ r with reason := if z.2.2 = 0 ∨ r.reason ≠ 0 then r.reason else z.2.2 }, y.2.1 ++ z.2.1,
        y.2.2 + b2n (z.2.2 == 1))) (r, [], 0)
    { regions := setAt x.regions i y.1, data := x.data ++ y.2.1, fails := x.fails + y.2.2 }
/-- The data of an image: node by node, in region order (R277, R278). -/
def Hub.exportData (h : Hub) (e : ExportX) (x : CaptureX) : Recoded :=
  let rs := x.plan.regions
  ((List.range 8).flatMap fun p => (List.range rs.length).filter fun i =>
    (rs[i]?.map fun r => r.node == p && r.omitted.isNone).getD false).foldl (fun y i => h.exportRegion e i y) { regions := rs }

/-- The manifest of an image: as it was sealed, with no index addresses and its regions as the image holds them
(R278). -/
def Hub.exportManifest (h : Hub) (x : CaptureX) (rs : List RegionX) : List Byte :=
  h.bytes x.manifest 64
    ++ ((List.range 8).flatMap fun p => bytesLE 8 0 ++ bytesLE 4 (blocksAt rs p) ++ bytesLE 4 0)
    ++ h.bytes (x.manifest + 192) (16 * (unitsIn x.plan.dieMask).length)
    ++ rs.zipIdx.flatMap fun r =>
      regionEntry rs r.2 r.1 (((List.range r.1.node).map (blocksAt rs)).foldl (· + ·) 0)

/-- The header of an image (R278). -/
def CaptureX.imageHeader (x : CaptureX) (k : Nat) (encrypted : Bool) (wrapper man idx data : Nat) : List Byte :=
  let at1 := 128 + wrapper
  bytesLE 4 0x49445852 ++ bytesLE 2 1
    ++ bytesLE 2 (b2n encrypted + 2 * b2n x.plan.quenched + 4 * b2n (x.status == Status.partialResult.code))
    ++ bytesLE 1 2 ++ bytesLE 3 0 ++ bytesLE 2 k ++ bytesLE 2 0 ++ exportFit 16 Config.chipIdentity ++ bytesLE 8 x.plan.tag
    ++ bytesLE 8 x.q ++ bytesLE 8 x.startedAt ++ bytesLE 8 x.closedAt
    ++ bytesLE 8 at1 ++ bytesLE 8 man ++ bytesLE 8 (at1 + man) ++ bytesLE 8 idx
    ++ bytesLE 8 (at1 + man + idx) ++ bytesLE 8 data ++ bytesLE 8 (if encrypted then 128 else 0) ++ bytesLE 8 0

/-- The first 256 bytes of the wrapper (R279, R280): K wrapped to the recipient's key. -/
def ExportX.wrapper (e : ExportX) (slot chunks : Nat) (header : List Byte) : List Byte :=
  let priv := scalarOf (Config.ephemeralKey e.draw)
  let kek := hkdf32 header (ecdhX priv e.key) ("RLX-DUMP-KEK-1".toList.map fun c => BitVec.ofNat 8 c.toNat)
  bytesLE 2 1 ++ bytesLE 2 1 ++ bytesLE 1 slot ++ bytesLE 3 0 ++ exportFit 48 (sha384 e.key)
    ++ exportFit 96 (p384Public priv) ++ exportFit 40 (aesKeyWrap kek (Config.dumpKey e.draw))
    ++ exportFit 8 (Config.noncePrefix e.draw) ++ bytesLE 4 chunks ++ bytesLE 1 20 ++ bytesLE 51 0

/-- The chunks of an image from the manifest on, encrypted under K (R279): the tag table and the ciphertext. -/
def ExportX.encrypt (e : ExportX) (aad plain : List Byte) : List Byte × List Byte :=
  (List.range ((plain.length + 0xFFFFF) / 0x100000)).foldl (fun (x : List Byte × List Byte) i =>
    let chunk := (plain.drop (i * 0x100000)).take 0x100000
    let nonce := exportFit 8 (Config.noncePrefix e.draw) ++ (bytesLE 4 i).reverse
    let y := aesGcm (Config.dumpKey e.draw) nonce aad chunk
    (x.1 ++ exportFit 16 y.2, x.2 ++ exportFit chunk.length y.1)) ([], [])

/-- The dump image of a capture for an instance, and the blocks that failed VERIFY (R278 to R280, R499, R500). -/
def Hub.image (h : Hub) (e : ExportX) (x : CaptureX) : List Byte × Nat :=
  let y := h.exportData e x
  let man := h.exportManifest x y.regions
  let idx := (List.range 8).flatMap fun p => (indexEntries y.regions p).flatMap (bytesLE 8)
  let plain := man ++ idx ++ y.data
  match e.recipient with
  | none => (x.imageHeader e.capture false 0 man.length idx.length y.data.length ++ plain, y.fails)
  | some slot =>
    let n := (plain.length + 0xFFFFF) / 0x100000
    let hd := x.imageHeader e.capture true (256 + 16 * n) man.length idx.length y.data.length
    let w := e.wrapper slot n hd
    let c := e.encrypt (hd ++ w) plain
    (hd ++ w ++ c.1 ++ c.2, y.fails)

/-! ### Opening and ending an instance -/

/-- The slot a recipient byte names: an error where it is reserved, none for PLAIN, or where it resolves to no slot
(R497). -/
def resolveRecipient (x : CaptureX) (r : Nat) : Option (Option Nat) :=
  if r < 8 then some (some r)
  else if r = 0xFE then some none
  else if r = 0xFF then some (if x.plan.recipient < 8 then some x.plan.recipient else none)
  else none
/-- A capture that can be exported: closed, not released, and sealed. -/
def Hub.exportable (h : Hub) (k : Nat) : Option CaptureX :=
  (h.capture k).filter fun x => x.state == 4 && !x.releaseAsked && x.manifest != 0
/-- The export ID that is free. -/
def Hub.freeExport (h : Hub) : Option Nat := (List.range 4).find? fun i => (h.export_ i).isNone

/-- What an open is refused with, in the order of R567 (R497, R498). A master of level 3 whose plan names no slot exports
without encryption (DEDUCED, assumption 41). -/
def Hub.openRefusal (h : Hub) (m : Master) (k recipient : Nat) : Except Status (CaptureX × Option Nat × Nat) :=
  if 8 ≤ recipient ∧ recipient < 0xFE then .error .reserved
  else
    match h.exportable k with
    | none => .error .noUnit
    | some x =>
      match resolveRecipient x recipient with
      | none => .error .reserved
      | some slot =>
        if slot.isNone ∧ h.levelOf m < 3 then .error .auth
        else if (slot.map fun n => !h.flag F.AUT_RCPT_valid n).getD false then .error .notHeld
        else
          match h.freeExport with
          | none => .error .busy
          | some id => .ok (x, slot, id)

/-- An instance opens: K is drawn (R498), and its layout is still to be fixed. -/
def Hub.openExport (t : Nat) (m : Master) (k tag recipient : Nat) (recode verify : Bool) (dest : Option (Nat × Nat))
    (h : Hub) : Except Status Nat × Hub :=
  match h.openRefusal m k recipient with
  | .error st => (.error st, h)
  | .ok (_, slot, id) =>
    let e : ExportX := { capture := k, owner := m, tag, recipient := slot, recode, verify, draw := h.fresh, dest
                         key := (slot.map fun n => aGet (fun _ => []) h.rcptKeys n).getD [] }
    let h := (h.drew.wakeEmber t 2).modCapture k fun x => { x with exports := x.exports + 1 }
    (.ok id, { h with exports := h.exports ++ [(id, e)] })

/-- HRT_EXP_STATUS of a master. -/
def Hub.expStatus (m : Master) (st : Status) (state : Nat) (h : Hub) : Hub :=
  (h.put F.HRT_EXP_STATUS_status m.idx st.code).put F.HRT_EXP_STATUS_state m.idx state

/-- An instance ends with a status (R502): a host export ends with an EXPORT_DONE notice (R503), and a release that waited
for it is carried out (R272). -/
def Hub.endExport (t id : Nat) (st : Status) (h : Hub) : Hub :=
  match h.export_ id with
  | none => h
  | some e =>
    let h := { h with exports := aKeep (· ≠ id) h.exports }
    let h := h.modCapture e.capture fun x => { x with exports := x.exports - 1 }
    let h := match h.capture e.capture with
      | some x => if x.releaseAsked then h.releaseCapture e.capture else h
      | none => h
    match e.dest with
    | none => h
    | some _ =>
      (h.expStatus e.owner st 3).notify t {
        type := 4
        body := bytesLE 2 e.capture ++ bytesLE 2 st.code ++ bytesLE 4 0 ++ bytesLE 8 (if st = .ok then e.image.length else 0)
        agent := match e.owner with
          | .host n => some n
          | _ => none }
/-- The instances of a master end with CANCELLED (R481). -/
def Hub.endExportsOf (t : Nat) (m : Master) (h : Hub) : Hub :=
  (h.exports.filter fun e => e.2.owner = m).foldl (fun h e => h.endExport t e.1 .cancelled) h

/-- The AUT_SESS number of a master's session. -/
def masterSession : Master → Nat
  | .host n => n
  | .sess n => 16 + n
  | .core _ => 20
/-- The master of a session. -/
def sessionMaster (s : Nat) : Master := if s < 16 then .host s else .sess (s - 16)

/-- The key wrap and sizing pass of an instance end: its layout is fixed and the size goes to its master (R498, R503). -/
def Hub.exportSized (t id : Nat) (h : Hub) : Hub :=
  match h.export_ id with
  | none => h
  | some e =>
    if e.ready ∨ h.failover ∨ h.get F.HRT_EMBER_STATUS_phase ≠ 0 then h
    else
      match h.capture e.capture with
      | none => h
      | some x =>
        let y := h.image e x
        let h := (h.modExport id fun e => { e with ready := true, image := y.1 }).put F.HRT_EXP_STATUS_check_fail e.owner.idx
          (sat 14 y.2)
        match e.dest with
        | none => h.sendInner t (masterSession e.owner) e.tag (.opened .ok id y.1.length)
        | some (_, limit) =>
          if limit * mib < y.1.length then h.endExport t id .noSpace else h.expStatus e.owner .ok 2

/-- EXPORT_SIZING_DONE (R498). -/
def execExportSizingDone (id : Nat) (s : State) : Out := s.lift fun t h => h.exportSized t id

/-! ### The inner frames of an export (R495, R501, R502) -/

/-- Session `s` is open, and its channel is served: a Vynuond link is UP, a host channel outside BOOT (R45, R505). -/
def Hub.served (h : Hub) (s : Nat) : Bool :=
  h.flag F.AUT_SESS_open s && match h.session s with
    | none => false
    | some x => match chanLink x.chan with
      | some k => (h.vlink k).state == 3
      | none => !h.booting
/-- A valid secured message of session `s` arrives (R487) and acts. -/
def Hub.fromSession (t s : Nat) (f : Hub → Hub) (h : Hub) : Hub :=
  if h.served s then
    f { h with sess := h.sess.map fun e => if e.1 = s then (s, { e.2 with lastAt := t }) else e }
  else h
/-- A command that is an inner frame of session `s`. -/
def State.inner (st : State) (s : Nat) (f : Nat → Hub → Hub) : Out :=
  st.liftIf (decide (s < 20)) fun t h => h.fromSession t s (f t)

/-- EXPORT_OPEN (R497, R498): a refusal is answered at once, an accepted open after its sizing. -/
def execExportOpen (s : Nat) (tag handle recipient flags : Nat) (st : State) : Out :=
  st.inner s fun t h =>
    if 4 ≤ flags then h.sendInner t s tag (.opened .reserved 0 0)
    else
      match h.openExport t (sessionMaster s) handle tag recipient (bitAt flags 0) (bitAt flags 1) none with
      | (.ok _, h) => h
      | (.error e, h) => (if e = .auth then h.authRefused else h).sendInner t s tag (.opened e 0 0)

/-- An instance of session `s`. -/
def Hub.exportOf (h : Hub) (s id : Nat) : Option ExportX :=
  (h.export_ id).filter fun e => e.owner == sessionMaster s && e.dest.isNone
/-- A request for a range of an image (R501). One that names no instance of the session, or comes before the layout is
fixed, is answered with a status of the model's (DESIGN CHOICE, assumption 42). -/
def Hub.exportRead (t s tag id offset length : Nat) (h : Hub) : Hub :=
  let no := fun st => h.sendInner t s tag (.data id st offset [] true)
  match h.exportOf s id with
  | none => no .noUnit
  | some e =>
    if !e.ready then no .busy
    else if e.image.length < offset + length then no .reserved
    else h.modExport id fun e => { e with reads := e.reads ++ [{ tag, offset, stop := offset + length }] }
/-- EXPORT_READ (R501). -/
def execExportRead (s tag id offset length : Nat) (st : State) : Out :=
  st.inner s fun t h => h.exportRead t s tag id offset length
/-- EXPORT_END (R502). -/
def execExportEnd (s _tag id : Nat) (st : State) : Out :=
  st.inner s fun t h => if (h.exportOf s id).isSome then h.endExport t id .ok else h

/-- The image bytes that an EXPORT_DATA frame of session `s` holds: its link's payload less the 42 bytes of R494 and R495. -/
def Hub.dataRoom (h : Hub) (x : SessX) : Nat :=
  (match chanLink x.chan with
    | some k => 256 * 2 ^ (h.vlink k).payload
    | none => 4096) - 42
/-- The next EXPORT_DATA frame of an instance (R501); the engine pauses without a STREAM credit, and in a failover
(R502). -/
def Hub.dataFrame (t id : Nat) (h : Hub) : Hub :=
  match h.export_ id with
  | none => h
  | some e =>
    let s := masterSession e.owner
    match e.reads, h.session s with
    | r :: rest, some x =>
      let n := min (h.dataRoom x) (r.stop - r.offset)
      let last := r.offset + n == r.stop
      let f := Inner.data id .ok r.offset ((e.image.drop r.offset).take n) last
      let credit := match chanLink x.chan with
        | some k => (h.vlink k).canSend 2 (.secured x.id r.tag f) && !(h.vlink k).waiting.any (fun w => w.1 == 2)
        | none => true
      if h.failover ∨ !credit then h
      else (h.modExport id fun e => { e with
          reads := if last then rest else { r with offset := r.offset + n } :: rest }).sendInner t s r.tag f
    | _, _ => h
/-- EXPORT_DATA_FRAME (R501). -/
def execExportDataFrame (id : Nat) (s : State) : Out := s.lift fun t h => h.dataFrame t id

/-! ### Host exports (R503) -/

/-- A write to HRT_EXP_CMD (R503): a reserved recipient refuses the write, every other outcome stands in
HRT_EXP_STATUS. -/
def cmdHostExport (m : Master) (k recipient : Nat) (recode verify : Bool) (limit : Nat) : RegCmd :=
  { pre := fun _ => if 8 ≤ recipient ∧ recipient < 0xFE then some .reserved else none
    body := fun t h =>
      if !h.hostHealthy ∧ (h.openRefusal m k recipient matches .ok _) then (.ok, h.expStatus m .busy 3)
      else
        match h.openExport t m k 0 recipient recode verify (some (h.get F.HRT_EXP_DEST_addr m.idx, limit)) with
        | (.ok _, h) => (.ok, (h.expStatus m .ok 1).put F.HRT_EXP_STATUS_check_fail m.idx 0 |>.put F.HRT_EXP_STATUS_done_mib m.idx 0)
        | (.error st, h) => (.ok, (if st = .auth then h.authRefused else h).expStatus m st 3) }
/-- HOST_EXPORT (R503). -/
def execHostExport (m : Master) (handle recipient : Nat) (recode verify : Bool) (limitMib : Nat) (s : State) : Out :=
  if handle < 2 ^ 16 ∧ recipient < 2 ^ 8 ∧ limitMib < 2 ^ 32 then
    s.cmd m 3 (cmdHostExport m handle recipient recode verify limitMib)
  else .refused .illFormed

/-- A host export writes its whole image into host memory and ends (R503). -/
def Hub.hostExported (t id : Nat) (h : Hub) : Hub :=
  match h.export_ id with
  | none => h
  | some e =>
    match e.dest with
    | none => h
    | some (a, _) =>
      if !e.ready ∨ h.failover then h
      else if !h.hostHealthy then h.endExport t id .busy
      else ((h.setBytes (hostBase + a) e.image).put F.HRT_EXP_STATUS_done_mib e.owner.idx (e.image.length / mib)).endExport t id .ok
/-- HOST_EXPORT_DONE (R503). -/
def execHostExportDone (id : Nat) (s : State) : Out := s.lift fun t h => h.hostExported t id

/-- The host path stops being healthy: spill-backed reserves become unbacked (R256), and host exports end with BUSY
(R503). -/
def Hub.hostLost (t : Nat) (h : Hub) : Hub :=
  (h.exports.filter fun e => e.2.dest.isSome).foldl (fun h e => h.endExport t e.1 .busy)
    ({ h with hostPath := false }.unbackSpill)
/-- HOST_PATH_LOSS (R256). -/
def execHostPathLoss (s : State) : Out := s.lift fun t h => h.hostLost t

/-! ### Recipient keys (R504) -/

/-- AUT_RCPT_CMD op REGISTER: the 96-byte key at `addr` of Hearth scratch. -/
def cmdRcptRegister (n addr : Nat) : RegCmd :=
  { pre := fun h =>
      if inScratch addr 96 && !onP384 (h.bytes addr 96) then some .reserved
      else if !(inScratch addr 96) then some .unmapped
      else if addr % 8 ≠ 0 then some .align
      else none
    body := fun _ h =>
      let key := h.bytes addr 96
      if h.flag F.AUT_RCPT_locked n then (.busy, h)
      else (.ok, { h with rcptKeys := aPut (fun _ => []) n key h.rcptKeys }.put F.AUT_RCPT_valid n 1
        |>.put F.AUT_RCPT_digest n (ofBytesLE ((sha384 key).take 4))) }
/-- Op CLEAR. -/
def cmdRcptClear (n : Nat) : RegCmd :=
  { body := fun _ h =>
      if h.flag F.AUT_RCPT_locked n then (.busy, h)
      else (.ok, { h with rcptKeys := aKeep (· ≠ n) h.rcptKeys }.put F.AUT_RCPT_valid n 0 |>.put F.AUT_RCPT_digest n 0) }
/-- Op LOCK. -/
def cmdRcptLock (n : Nat) : RegCmd := plainCmd false fun _ h => h.put F.AUT_RCPT_locked n 1
/-- RCPT_REGISTER (R504). -/
def execRcptRegister (m : Master) (slot addr : Nat) (s : State) : Out :=
  if slot < 8 ∧ addr < 2 ^ 48 then s.cmd m 3 (cmdRcptRegister slot addr) else .refused .illFormed
/-- RCPT_CLEAR (R504). -/
def execRcptClear (m : Master) (slot : Nat) (s : State) : Out :=
  if slot < 8 then s.cmd m 3 (cmdRcptClear slot) else .refused .illFormed
/-- RCPT_LOCK (R504). -/
def execRcptLock (m : Master) (slot : Nat) (s : State) : Out :=
  if slot < 8 then s.cmd m 3 (cmdRcptLock slot) else .refused .illFormed

end Sys2Proof.Machine
end

