-- ==== Sys2Proof/Machine/MapOut.lean ====
section
/-! DEFINITION. Mapping Crucible bank groups out and in (R243, R244, R450 to R452). -/

namespace Sys2Proof.Machine

open Sys2Proof

/-! ### Where things go -/

/-- Where the 64 KiB extents that move go, by extent number: source and destination. -/
abbrev Moves := List (Nat × Nat)
/-- The extent numbers of a range that begins and ends on extents. -/
def extentsOf (r : Nat × Nat) : List Nat := (List.range (r.2 / extentBytes)).map (r.1 / extentBytes + ·)
/-- An address after the moves. -/
def Moves.place (m : Moves) (a : Nat) : Nat :=
  match aFind (a / extentBytes) m with
  | some d => d * extentBytes + a % extentBytes
  | none => a
/-- Runs after the moves, in the order of their contents. -/
def Moves.runs (m : Moves) (rs : List (Nat × Nat)) : List (Nat × Nat) :=
  joinRuns (rs.flatMap fun r =>
    (List.range (r.2 / extentBytes + 2)).filterMap fun i =>
      let lo := max r.1 ((r.1 / extentBytes + i) * extentBytes)
      let hi := min (r.1 + r.2) ((r.1 / extentBytes + i + 1) * extentBytes)
      if lo < hi then some (m.place lo, hi - lo) else none)

/-- What a map-out of group `g` of node `p` does: the group that takes the reserved shares, the trace segment's new base,
and the moves. -/
structure MapPlan where
  shares : Nat
  seg : Nat
  moves : Moves
  deriving DecidableEq, Repr

/-- Where the trace segment goes when its group is mapped out or the reserved shares come to lie on it (R241, R243). -/
def Hub.newSegment (h : Hub) (p : Nat) (h' : Hub) : Option Nat :=
  let now := (h.segBase p, h.segSize)
  if h.segBase p = 0 ∨ h'.rangeFree p now then some (h.segBase p) else h'.placeSegment p h.segSize

/-- The moves of the extents of `ext`, one range after another, into free runs. -/
def packMoves : List (List Nat) → List (Nat × Nat) → Option Moves
  | [], _ => some []
  | [] :: rest, free => packMoves rest free
  | ns :: rest, free =>
    (pickRuns (ns.length * extentBytes) free).bind fun runs =>
      (packMoves rest (runs.foldl (fun f r => cutRuns r f) free)).map fun m => ns.zip (runs.flatMap extentsOf) ++ m

/-- The plan of a map-out of group `g` of node `p` (R243, R244), none where the other groups cannot hold the reserved
shares, the trace segment and the held extents. The segment is placed first, then each extent range in the lowest free
space (DESIGN CHOICE, assumption 39). -/
def Hub.mapPlan (h : Hub) (p g : Nat) : Option MapPlan :=
  let h' := h.setMapped false (8 * p + g)
  match (h'.groupsOf p).getLast? with
  | none => none
  | some top =>
    let k := if h.shareGroup p = g then top else h.shareGroup p
    let h' := h'.sput F.CRU_NODE_reserved_group p 0 k
    let old := h.incidentShare p
    (h.newSegment p h').bind fun seg =>
      let h' := h'.sput F.TRC_SEG_BASE_base p 0 seg
      let inShare := fun n => decide (old ≤ n * extentBytes) && decide (n * extentBytes < old + 16 * mib)
      let ok := h'.slotRuns p
      let stays := fun n => ok.any fun r => decide (r.1 ≤ n * extentBytes) && decide ((n + 1) * extentBytes ≤ r.1 + r.2)
      let held := (h.heldExtents p).map extentsOf
      let shift := (held.flatMap fun l => l.filter inShare).map fun n =>
        (n, n - old / extentBytes + h'.incidentShare p / extentBytes)
      (packMoves (held.map fun l => l.filter fun n => !inShare n && !stays n) (h'.freeRuns p)).map fun m =>
        { shares := k, seg, moves := m ++ (if k = h.shareGroup p then [] else shift) }

/-! ### The copy -/

/-- Copy `n` bytes of memory, whose source then reads as unwritten. -/
def Hub.moveBytes (src dst n : Nat) (h : Hub) : Hub :=
  if src = dst then h
  else
    let mine := h.mem.filter fun e => src ≤ e.1 ∧ e.1 < src + n
    let rest := h.mem.filter fun e => !(decide (src ≤ e.1) && decide (e.1 < src + n)) ∧ !(decide (dst ≤ e.1) && decide (e.1 < dst + n))
    mine.foldl (fun h e => h.setByte (e.1 - src + dst) e.2) { h with mem := rest }
/-- A region after the moves on node `p`. -/
def RegionX.moved (m : Moves) (p : Nat) (r : RegionX) : RegionX :=
  if r.node ≠ p then r
  else
    let base := nodeBase p
    { r with
      area := m.runs r.area
      ovf := m.runs r.ovf
      blk := r.blk.map fun e =>
        if e.2.host ∨ e.2.size = 0 then e else (e.1, { e.2 with loc := (m.place (base + e.2.loc * 1024) - base) / 1024 }) }
/-- A capture after the moves on node `p`. -/
def CaptureX.moved (m : Moves) (p : Nat) (x : CaptureX) : CaptureX :=
  { x with
    extents := m.runs x.extents
    idx := x.idx.map fun e => (e.1, (m.place e.2.1, e.2.2))
    manifest := m.place x.manifest
    plan := { x.plan with regions := x.plan.regions.map (RegionX.moved m p) } }
/-- The parts of a closed capture's index and manifest that a map-out changes are written again (R450, R451). -/
def Hub.reseal (k : Nat) (h : Hub) : Hub :=
  match h.capture k with
  | none => h
  | some x =>
    if x.state ≠ 4 ∨ x.manifest = 0 then h
    else
      let rs := x.plan.regions
      let h := x.idx.foldl (fun h e => h.setBytes e.2.1 ((indexEntries rs e.1).flatMap (bytesLE 8))) h
      let h := h.setBytes (x.manifest + 56) (bytesLE 4 (x.overflows false) ++ bytesLE 4 (x.overflows true) ++
        (List.range 8).flatMap fun p =>
          bytesLE 8 (aGet (fun _ => (0, 0)) x.idx p).1 ++ bytesLE 4 (blocksAt rs p) ++ bytesLE 4 0)
      (h.setBytes (x.manifest + 192 + 16 * (unitsIn x.plan.dieMask).length)
        (rs.zipIdx.flatMap fun r => regionEntry rs r.2 r.1)).syncJob k

/-- Blocks that the copy could not read become UNREADABLE (R451). -/
def Hub.unreadableBlocks (bs : List (Nat × Nat × Nat)) (h : Hub) : Hub :=
  bs.foldl (fun h b => h.modCapture b.1 fun x =>
    match x.plan.regions[b.2.1]? with
    | some r => { x with plan := { x.plan with regions := setAt x.plan.regions b.2.1 (r.lose b.2.2 1) } }
    | none => x) h
/-- The trace segment of node `p` stands at a new place: the writer goes on there with a trace-started record (R450). -/
def Hub.moveSegment (t p seg : Nat) (h : Hub) : Hub :=
  if seg = h.segBase p then h
  else
    let h := (h.setReg .TRC_SEG_STATUS (spokeInst .TRC_SEG_STATUS p 0)
      (BitVec.ofNat 64 (h.sget F.TRC_SEG_STATUS_stopped p * 2 ^ 30))).sput F.TRC_SEG_BASE_base p 0 seg
    if (h.node p).accept then h.tailWrite p (mkRec t (collectorOf p) 0xEA none h.time.startCount) else h
/-- Steps 3 and 4 of a map-out of group `g` of node `p`, after which the group is off and holds nothing (R450, R451). -/
def Hub.mapOut (t p g : Nat) (x : MapPlan) (unreadable : List (Nat × Nat × Nat)) (lost : List Nat) (h : Hub) : Hub :=
  let from_ := h.ledgerShare p
  let h := (x.moves.foldl (fun h e => h.moveBytes (e.1 * extentBytes) (e.2 * extentBytes) extentBytes) h).setMapped false (8 * p + g)
  let h := h.sput F.CRU_NODE_reserved_group p 0 x.shares
  let h := h.moveBytes from_ (h.ledgerShare p) (8 * mib)
  let h := lost.foldl (fun h s => h.setBytes (h.ledgerShare p + s * 128) (List.replicate 128 0)) h
  let h := Hub.unreadableBlocks unreadable { h with captures := h.captures.map fun e => (e.1, CaptureX.moved x.moves p e.2) }
  let h := h.captures.foldl (fun (h : Hub) e => h.reseal e.1) h
  let a := groupBase p g
  let h := { h with mem := h.mem.filter fun e => e.1 < a ∨ a + 64 * mib ≤ e.1 }
  ((h.setDomain (8 * p + g) false).moveSegment t p x.seg).resizePlans

/-! ### CRU_MAPOUT -/

/-- A map operation ends with a status. -/
def Hub.mapEnds (st : Status) (h : Hub) : Hub :=
  { h with mapOp := none }.put F.CRU_MAPOUT_STATUS_status 0 st.code |>.put F.CRU_MAPOUT_STATUS_busy 0 0
/-- What a map-out is refused with, in CRU_MAPOUT_STATUS (R450). -/
def Hub.mapOutRefusal (h : Hub) (p g : Nat) : Option Status :=
  if h.groupsOf p = [g] then some .busy
  else if (h.mapPlan p g).isNone then some .noSpace
  else if h.get F.HRT_EMBER_STATUS_phase ≠ 0 then some .busy
  else none
/-- A write to CRU_MAPOUT (R450, R452): refused with BUSY while another map operation runs. -/
def cmdMap (x : MapX) : RegCmd :=
  { txn := .refuse
    body := fun _ h =>
      if h.mapOp.isSome then (.busy, h)
      else
        match if x.mapIn then none else h.mapOutRefusal (x.group / 8) (x.group % 8) with
        | some st => (.ok, h.mapEnds st)
        | none => (.ok, ({ h with mapOp := some x }.put F.CRU_MAPOUT_STATUS_busy 0 1).mapOutWaits) }
/-- MAP_OUT (R450). -/
def execMapOut (m : Master) (group : Nat) (s : State) : Out :=
  if group < 64 then s.cmd m 3 (cmdMap { mapIn := false, group }) else .refused .illFormed
/-- MAP_IN (R452). -/
def execMapIn (m : Master) (group : Nat) (s : State) : Out :=
  if group < 64 then s.cmd m 3 (cmdMap { mapIn := true, group }) else .refused .illFormed

/-- The copy of a map-out has ended: CRU_MAPOUT_STATUS counts what it could not read. Space that captures took while it
waited can leave too little: then it ends with NO_SPACE and the group stays in. -/
def Hub.mapOutDone (t g : Nat) (unreadable : List (Nat × Nat × Nat)) (lost : List Nat) (h : Hub) : Hub :=
  if h.groupInUse g then h
  else
    match h.mapPlan (g / 8) (g % 8) with
    | none => (h.setMapped true g).mapEnds .noSpace
    | some x =>
      ((h.mapOut t (g / 8) (g % 8) x unreadable lost).mapEnds .ok).put F.CRU_MAPOUT_STATUS_unreadable 0 (sat 16 unreadable.length)
        |>.put F.CRU_MAPOUT_STATUS_lost 0 (sat 16 lost.length)
/-- MAPOUT_COPY_DONE (R450, R451): `unreadable` names blocks by handle, region and block, `lost` slots of the node's
ledger share. -/
def execMapoutCopyDone (unreadable : List (Nat × Nat × Nat)) (lost : List Nat) (s : State) : Out :=
  s.lift fun t h =>
    match h.mapOp with
    | some x => if x.mapIn then h else h.mapOutDone t x.group unreadable (lost.filter (· < 65536))
    | none => h
/-- The test pattern of a map-in ends (R452): a group that passes becomes slot space. -/
def Hub.mapInDone (g : Nat) (ok : Bool) (h : Hub) : Hub :=
  if ok then (((h.setMapped true g).setDomain g true).resizePlans).mapEnds .ok else h.mapEnds .unresponsive
/-- MAP_IN_TEST_DONE (R452). -/
def execMapInTestDone (ok : Bool) (s : State) : Out :=
  s.lift fun _ h =>
    match h.mapOp with
    | some x => if x.mapIn then h.mapInDone x.group ok else h
    | none => h

end Sys2Proof.Machine
end

