-- ==== Sys2Proof/Machine/Recovery.lean ====
section
/-! DEFINITION. The recovery commands and events (R362 to R389), unit reset (R383) and link retraining (R384). -/

namespace Sys2Proof.Machine

open Sys2Proof

/-! ### RCV_CMD (R362) -/

/-- The outcome of a recovery command in its master's RCV_RESULT (R362, R566). -/
def Hub.rcvResult (m : Master) (st : Status) (done : Bool) (h : Hub) : Hub :=
  (h.put F.RCV_RESULT_status m.idx st.code).putB F.RCV_RESULT_done m.idx done
    |>.modMaster m fun x => { x with rcv := none }

/-- What meets every operation: RETIRED (R46, R362), and BUSY during a warm reset (R543). -/
def Hub.rcvBarred (h : Hub) : Option Status :=
  if h.retired then some .retired else if h.warmRunning then some .busy else none

/-- A write to RCV_CMD: reserved codes refuse the write, every other outcome goes to RCV_RESULT. -/
def cmdRcv (m : Master) (bad : Bool) (f : Nat → Hub → Status × Hub) : RegCmd :=
  { pre := fun _ => if bad then some .reserved else none
    txn := .refuse
    body := fun t h =>
      match h.rcvBarred with
      | some st => (.ok, h.rcvResult m st true)
      | none => let r := f t h; (.ok, r.2.rcvResult m r.1 true) }

/-- A move of a lane: during a handover it waits for the handover instant (R388). -/
def Hub.laneMove (x : LaneMove) (f : Hub → Hub) (h : Hub) : Hub :=
  if h.failover then { h with laneMoves := h.laneMoves ++ [x] } else f h

/-- A fence commanded or started by the sequencer: it waits for a handover under way (R388), and while the hub is in
Ember it starts the exit and waits for it (R44, R561). -/
def Hub.startFence (t p reason : Nat) (fenceOnly : Bool) : Hub → Hub := Hub.laneMove (.fence p reason fenceOnly) fun h =>
  if h.get F.HRT_EMBER_STATUS_phase = 0 then h.fence t p reason fenceOnly
  else { h.wakeEmber t 2 with emberActs := h.emberActs ++ [(p, reason, fenceOnly)] }

/-- A fence of partition `p` waits for the end of Ember mode or of a handover. -/
def Hub.fenceWaits (h : Hub) (p : Nat) : Bool :=
  (h.emberActs.any fun e => e.1 = p) || h.laneMoves.any fun
    | .fence q _ _ => q == p
    | _ => false

/-- RECOVER or FENCE_ONLY. -/
def cmdFence (m : Master) (p reason : Nat) (fenceOnly : Bool) : RegCmd :=
  cmdRcv m (decide (4 < reason)) fun t h =>
    if h.step p ≠ 0 ∨ h.fenceWaits p then (.busy, h) else (.ok, h.startFence t p reason fenceOnly)

/-- RCV_RECOVER (R363). -/
def execRcvRecover (m : Master) (p reason : Nat) (s : State) : Out :=
  if p < 8 ∧ reason < 16 then s.cmd m 3 (cmdFence m p reason false) else .refused .illFormed
/-- RCV_FENCE_ONLY (R363). -/
def execRcvFenceOnly (m : Master) (p reason : Nat) (s : State) : Out :=
  if p < 8 ∧ reason < 16 then s.cmd m 3 (cmdFence m p reason true) else .refused .illFormed

/-- A lane enters INCIDENT (R368): the registered plan starts, or the step ends at once. -/
def Hub.enterIncident (t p : Nat) (h : Hub) : Hub :=
  let h := (h.setStep p 3).modLane p fun x => { x with incident := none }
  if h.flag F.RCV_CFG_incident_en then
    let r := h.startNumber t (h.get F.RCV_CFG_incident_plan) 1
    if r.1 = .ok then r.2.2.modLane p fun x => { x with incident := some r.2.1 }
    else (r.2.2.sput F.ANV_RCV_STATUS_incident_skipped p 0 1).laneProgress t p
  else h.laneProgress t p

/-- RCV_CMD op CONTINUE. -/
def cmdContinue (m : Master) (p : Nat) : RegCmd :=
  cmdRcv m false fun t h => if h.step p ≠ 9 then (.notHeld, h) else (.ok, h.laneMove (.resume p) (Hub.enterIncident t p))
/-- RCV_CMD op UNFENCE. -/
def cmdUnfence (m : Master) (p : Nat) : RegCmd :=
  cmdRcv m false fun t h => if h.step p ≠ 9 then (.notHeld, h) else (.ok, h.laneMove (.unfence p) (Hub.unfence t p false))
/-- RCV_CMD op RETIRE (R386). -/
def cmdRetire (m : Master) : RegCmd := cmdRcv m false fun t h => (.ok, h.laneMove .retire (Hub.escalate t none 5))

/-- RCV_CONTINUE (R362). -/
def execRcvContinue (m : Master) (p : Nat) (s : State) : Out :=
  if p < 8 then s.cmd m 3 (cmdContinue m p) else .refused .illFormed
/-- RCV_UNFENCE (R377). -/
def execRcvUnfence (m : Master) (p : Nat) (s : State) : Out :=
  if p < 8 then s.cmd m 3 (cmdUnfence m p) else .refused .illFormed
/-- RCV_RETIRE (R386). -/
def execRcvRetire (m : Master) (s : State) : Out := s.cmd m 3 (cmdRetire m)

/-! ### The lane's events (R366 to R376) -/

/-- The drain of lane `p` has ended: it passes to HELD or INCIDENT (R363), at the handover instant if one is under way
(R388). -/
def Hub.drainProgress (t p : Nat) (h : Hub) : Hub :=
  if h.failover ∨ h.step p ≠ 2 ∨ !(h.lane p).drained then h
  else if (h.lane p).fenceOnly then h.setStep p 9
  else h.enterIncident t p

/-- When the drain of lane `p` ends. -/
def Hub.laneDrainDue (h : Hub) (p : Nat) : Option Nat :=
  if h.step p = 2 then (h.lane p).drain.bind Countdown.due else none

/-- 50 µs of drain have passed (R366): `completed` requests had completed, each of the `outstanding` ones is answered
with the error of R365, and the commands in flight on the partition's engines are aborted. -/
def Hub.drainEnd (t p completed : Nat) (outstanding : List NewWork) (h : Hub) : Hub :=
  let h := (h.sput F.ANV_RCV_COUNT_drained_ok p 0 (sat 16 completed)).sput F.ANV_RCV_COUNT_answered_err p 0
    (sat 16 outstanding.length)
  let h := outstanding.foldl (fun h k => h.say (.fenced p k)) h
  let h := (h.abortOn t fun u => nodeOf (dieOf u) == p).modLane p fun x => { x with drain := none, drained := true }
  (h.sweep t).drainProgress t p

/-- DRAIN_END (R366). -/
def execDrainEnd (p completed : Nat) (outstanding : List NewWork) (s : State) : Out :=
  if p < 8 then s.liftAt (s.hub.laneDrainDue p) fun t h => h.drainEnd t p completed outstanding else .refused .illFormed

/-- New work is refused at partition `p` (R365), and from HOLD until RESUME has ended what the partition's own units ask
of its memory (R369). -/
def Hub.refusesWork (h : Hub) (p : Nat) : NewWork → Bool
  | .unitMemory => (h.step p == 4 && (h.lane p).asked) || decide (5 ≤ h.step p ∧ h.step p ≤ 7)
  | _ => h.fenced p

/-- FENCED_NEW_REQUEST (R365, R369): new work at a fenced boundary is answered with the FENCED error. -/
def execFencedNewRequest (p : Nat) (kind : NewWork) (s : State) : Out :=
  s.liftIf (decide (p < 8)) fun _ h =>
    if h.refusesWork p kind then (h.sbump F.ANV_RCV_COUNT_refused_new p 0 1).say (.fenced p kind) else h

/-- SELF_REFRESH_CONFIRM (R369). -/
def execSelfRefreshConfirm (stack : Nat) (s : State) : Out :=
  s.liftIf (decide (stack < 16)) fun t h =>
    let p := stack / 2
    if h.step p ≠ 4 ∨ !(h.lane p).asked then h
    else (h.sput (if stack % 2 = 0 then F.ANV_RCV_STATUS_sr_a else F.ANV_RCV_STATUS_sr_b) p 0 1).laneProgress t p

/-- When HOLD's 1 ms ends. -/
def Hub.laneHoldDue (h : Hub) (p : Nat) : Option Nat :=
  if h.step p = 4 ∧ !(h.lane p).holdOver then (h.lane p).hold.bind Countdown.due else none

/-- HOLD_TIMEOUT (R370). -/
def execHoldTimeout (p : Nat) (s : State) : Out :=
  if p < 8 then
    s.liftAt (s.hub.laneHoldDue p) fun t h =>
      let both := h.sget F.ANV_RCV_STATUS_sr_a p == 1 && h.sget F.ANV_RCV_STATUS_sr_b p == 1
      let h := if both then h else h.sput F.ANV_RCV_STATUS_dram_kept p 0 0
      (h.modLane p fun x => { x with holdOver := true }).laneProgress t p
  else .refused .illFormed

/-- Steps 3 and 4 of R371: the reset is released, and each unit has 100 µs. -/
def Hub.releaseReset (t p : Nat) (h : Hub) : Hub :=
  let h := (partitionUnits p).foldl (fun h u =>
    if h.runState u = .resetting then h.modUnit u fun x => { x with resetDue := some (t + us 100) } else h) h
  (h.say (.partitionReset p false)).modLane p fun x => { x with release := none, check := some (t + us 100) }

/-- PARTITION_RESET_RELEASE (R371). -/
def execPartitionResetRelease (p : Nat) (s : State) : Out :=
  if p < 8 then s.liftAt (s.hub.lane p).release fun t h => h.releaseReset t p else .refused .illFormed

/-- A unit's reset has ended one way or the other: its master's RCV_RESULT says how (R383). -/
def Hub.unitResetEnds (u : Nat) (st : Status) (h : Hub) : Hub :=
  (h.masters.filter fun e => e.2.rcv = some (.unit u)).foldl (fun h e =>
    { (h.put F.RCV_RESULT_status e.1 st.code).put F.RCV_RESULT_done e.1 1 with
      masters := aPut (fun _ => {}) e.1 { (aGet (fun _ => {}) h.masters e.1) with rcv := none } h.masters }) h

/-- A unit completes its reset (R174). -/
def Hub.unitResetDone (t u : Nat) (h : Hub) : Hub :=
  if h.runState u ≠ .resetting ∨ (h.unit u).resetDue.isNone then h
  else
    let next : RunState := if h.fenced (nodeOf (dieOf u)) then .fenced else .running
    let h := h.changeState t u next (causeOf 0x15 (b2n (h.unit u).partReset))
    (h.modUnit u fun x => { x with resetDue := none, partReset := false }).unitResetEnds u .ok

/-- UNIT_RESET_DONE (R174). -/
def execUnitResetDone (unit : Nat) (s : State) : Out := s.liftIf (unitOk unit) fun t h => h.unitResetDone t unit

/-- A unit's reset is not complete after 100 µs (R174, R371, R383): it is UNRESPONSIVE, and a unit reset that times out
starts a recovery of its partition. -/
def Hub.unitResetTimeout (t u : Nat) (h : Hub) : Hub :=
  if h.runState u ≠ .resetting then h.modUnit u fun x => { x with resetDue := none }
  else
    let part := (h.unit u).partReset
    let p := nodeOf (dieOf u)
    let h := h.changeState t u .unresponsive (causeOf 0x16 (b2n part))
    let h := (h.modUnit u fun x => { x with resetDue := none, partReset := false }).unitResetEnds u .timeout
    if !part && h.flag F.RCV_CFG_auto_escalate && h.step p == 0 && h.rcvBarred.isNone then h.startFence t p 5 false else h

/-- UNIT_RESET_TIMEOUT (R174). -/
def execUnitResetTimeout (unit : Nat) (s : State) : Out :=
  if unitOk unit then s.liftAt (s.hub.unit unit).resetDue fun t h => h.unitResetTimeout t unit else .refused .illFormed

/-- The end of step 4 (R371, R372): units that are not out of reset are UNRESPONSIVE; any such unit repeats the reset
once, and then escalates. -/
def Hub.resetCheck (t p : Nat) (h : Hub) : Hub :=
  let h := (partitionUnits p).foldl (fun h u => if h.runState u = .resetting then h.unitResetTimeout t u else h) h
  if (partitionUnits p).any fun u => h.runState u = .unresponsive then
    if (h.lane p).repeated then h.laneEscalates t p 3
    else (h.modLane p fun x => { x with repeated := true }).assertReset t p
  else h.enterRetrain t p

/-- When the check falls due; during a handover it waits (R388). -/
def Hub.laneCheckDue (h : Hub) (p : Nat) : Option Nat := if h.failover then none else (h.lane p).check

/-- PARTITION_RESET_CHECK (R372). -/
def execPartitionResetCheck (p : Nat) (s : State) : Out :=
  if p < 8 then s.liftAt (s.hub.laneCheckDue p) fun t h => h.resetCheck t p else .refused .illFormed

/-- A list of trainings with one entry replaced or removed. -/
def setTries (k : Nat) (v : Option Nat) (l : List (Nat × Nat)) : List (Nat × Nat) :=
  match v with
  | some n => l.map fun e => if e.1 = k then (k, n) else e
  | none => l.filter fun e => e.1 ≠ k

/-- A channel group's training ends (R373, R374): its record is kept as a seed; a first failure is retried, a second
escalates. -/
def Hub.memoryTrained (t g : Nat) (ok : Bool) (record : List Byte) (h : Hub) : Hub :=
  let p := g / 4
  match h.step p, aFind g (h.lane p).mem with
  | 6, some n =>
    if ok then
      let h := { h with seeds := aPut (fun _ => []) g (codeSeed record) h.seeds }
      (h.modLane p fun x => { x with mem := setTries g none x.mem }).laneProgress t p
    else if n = 0 then h.modLane p fun x => { x with mem := setTries g (some 1) x.mem }
    else h.laneEscalates t p 4
  | _, _ => h

/-- A link's training attempt ends (R373, R384): `n` attempts had failed; the result is the attempts failed now, none
when the training has ended. -/
def Hub.linkAttempt (t l n : Nat) (ok : Bool) (h : Hub) : Option Nat × Hub :=
  if ok then (none, h.linkTrained t l)
  else if n < 2 then (some (n + 1), h)
  else (none, h.setLink t l 5)

/-- A link's training has ended: its master's RCV_RESULT says how (R384). -/
def Hub.retrainEnds (l : Nat) (ok : Bool) (h : Hub) : Hub :=
  (h.masters.filter fun e => e.2.rcv = some (.link l)).foldl (fun h e =>
    { (h.put F.RCV_RESULT_status e.1 (if ok then Status.ok else .unresponsive).code).put F.RCV_RESULT_done e.1 1 with
      masters := aPut (fun _ => {}) e.1 { (aGet (fun _ => {}) h.masters e.1) with rcv := none } h.masters }) h

/-- A training attempt of a link ends, in a recovery or for LINK_RETRAIN. -/
def Hub.linkTrain (t l : Nat) (ok : Bool) (h : Hub) : Hub :=
  let p := l / 6
  match h.step p, aFind l (h.lane p).links, aFind l h.retrains with
  | 6, some n, _ =>
    let r := h.linkAttempt t l n ok
    let h := r.2.modLane p fun x => { x with links := setTries l r.1 x.links }
    let h := if r.1.isNone && !ok then
        h.sput F.ANV_RCV_STATUS_failed_links p 0 (setBits (h.sget F.ANV_RCV_STATUS_failed_links p) (l % 6) 1 1)
      else h
    h.laneProgress t p
  | _, _, some n =>
    let r := h.linkAttempt t l n ok
    let h := { r.2 with retrains := setTries l r.1 h.retrains }
    if r.1.isSome then h else h.retrainEnds l ok
  | _, _, none => h

/-- RESUME_DONE (R375): `okA` and `okB` say of each stack that it left self-refresh with its pattern intact. -/
def execResumeDone (p : Nat) (okA okB : Bool) (s : State) : Out :=
  s.liftIf (decide (p < 8)) fun t h =>
    if h.step p ≠ 7 then h
    else
      let h := if okA && okB then h else h.sput F.ANV_RCV_STATUS_dram_kept p 0 0
      (h.modLane p fun x => { x with resumed := true }).laneProgress t p

/-- When the limit of R376 passes: it counts through a handover, whose end the escalation waits for (R388). -/
def Hub.laneLimitDue (h : Hub) (p : Nat) : Option Nat :=
  if 5 ≤ h.step p ∧ h.step p ≤ 7 then (h.lane p).limit else none

/-- PARTITION_LIMIT_EXPIRY (R376). -/
def execPartitionLimitExpiry (p : Nat) (s : State) : Out :=
  if p < 8 then
    s.liftAt (s.hub.laneLimitDue p) fun t h => (h.modLane p fun x => { x with limit := none }).laneEscalates t p 2
  else .refused .illFormed

/-! ### Unit reset and link retraining (R383, R384) -/

/-- UNIT_RESET of a unit (R383): its refusal, or its reset begins. -/
def Hub.unitReset (t : Nat) (m : Master) (u : Nat) (h : Hub) : Hub :=
  let refuse := fun st => h.rcvResult m st true
  if !unitOk u then refuse .noUnit
  else if !h.spokeOn (dieOf u) then refuse .poweredOff
  else
    match h.rcvBarred, h.runState u with
    | some st, _ => refuse st
    | none, .quenched => refuse .held
    | none, .gated => refuse .gated
    | none, .resetting => refuse .busy
    | none, _ =>
      let h := (h.resetUnit t u false).modUnit u fun x => { x with resetDue := some (t + us 100) }
      let h := (h.say (.unitReset u)).abortOn t (· == u)
      let h := match linkOfUnit u with
        | some l => (h.linkDown t l).peerHold t
        | none => h
      (h.put F.RCV_RESULT_done m.idx 0).modMaster m fun x => { x with rcv := some (.unit u) }

/-- RCV_CMD op UNIT_RESET. -/
def cmdUnitReset (m : Master) (u : Nat) : RegCmd := { txn := .refuse, body := fun t h => (.ok, (h.unitReset t m u).sweep t) }
/-- RCV_UNIT_RESET (R383). -/
def execRcvUnitReset (m : Master) (unit : Nat) (s : State) : Out :=
  if unit < 65536 then s.cmd m 3 (cmdUnitReset m unit) else .refused .illFormed

/-- LINK_RETRAIN of a link (R384). -/
def Hub.linkRetrain (t : Nat) (m : Master) (l : Nat) (h : Hub) : Hub :=
  let refuse := fun st => h.rcvResult m st true
  match h.rcvBarred with
  | some st => refuse st
  | none =>
    if (h.linkState l ≠ 0 ∧ h.linkState l ≠ 5) ∨ h.step (l / 6) ≠ 0 then refuse .busy
    else if h.runState (unitOfLink l) ≠ .running then refuse .notHeld
    else
      { (h.setLink t l 1).put F.RCV_RESULT_done m.idx 0 with retrains := aPut (fun _ => 3) l 0 h.retrains }.modMaster m
        fun x => { x with rcv := some (.link l) }

/-- RCV_CMD op LINK_RETRAIN. -/
def cmdLinkRetrain (m : Master) (l : Nat) : RegCmd :=
  { pre := fun _ => if 48 ≤ l then some .reserved else none, txn := .refuse
    body := fun t h => (.ok, h.linkRetrain t m l) }
/-- RCV_LINK_RETRAIN (R384). -/
def execRcvLinkRetrain (m : Master) (link : Nat) (s : State) : Out :=
  if link < 65536 then s.cmd m 3 (cmdLinkRetrain m link) else .refused .illFormed

/-! ### Group RCV (R426) -/

/-- The ARM's checks of RCV_CFG. -/
def Hub.rcvRefused (h : Hub) : Bool :=
  h.shGet F.RCV_CFG_esc_limit == 0 || h.shGet F.RCV_CFG_esc_window_s == 0 ||
    decide (h.shGet F.RCV_CFG_partition_limit_s < 5)

/-- A move that a handover held back is made (R388). -/
def LaneMove.made (t : Nat) (h : Hub) (x : LaneMove) : Hub :=
  if h.retired then h
  else
    match x with
    | .fence p reason fenceOnly => if h.step p = 0 then h.startFence t p reason fenceOnly else h
    | .resume p => if h.step p = 9 then h.enterIncident t p else h
    | .unfence p => if h.step p = 9 then h.unfence t p false else h
    | .retire => h.escalate t none 5

/-- The lanes make the transitions that a handover held back (R388). -/
def Hub.lanesResume (t : Nat) (h : Hub) : Hub :=
  let h := (List.range 8).foldl (fun h p => (h.drainProgress t p).laneProgress t p) h
  h.laneMoves.foldl (LaneMove.made t) { h with laneMoves := [] }

/-- The fences that waited for the end of Ember mode (R44, R562). -/
def Hub.fencesResume (t : Nat) (h : Hub) : Hub :=
  h.emberActs.foldl (fun h e => if h.step e.1 = 0 ∧ !h.retired then h.startFence t e.1 e.2.1 e.2.2 else h)
    { h with emberActs := [] }

end Sys2Proof.Machine
end

