-- ==== Sys2Proof/Machine/Debug.lean ====
section
/-! DEFINITION. The debugger of the Striker cores and the virtual terminal's debugger side (R456 to R471, R476). -/

namespace Sys2Proof.Machine

open Sys2Proof

/-- The power domain of a core (R558). -/
def coreDomain (c : Nat) : Nat :=
  if isHearthCore c then (if dieOf c = 0 then 112 else 115) else spokeDomain (dieOf c)
/-- A core's power domain is on. -/
def Hub.coreOn (h : Hub) (c : Nat) : Bool := h.domainOn (coreDomain c)

/-- The core runs on from a debug halt (R463, R467, R468): a BREAK is passed, a breakpoint is stepped over, and the
watchdog restarts at the larger of what was left and 1,000 µs. -/
def Hub.resumeCore (t c steps : Nat) (h : Hub) : Hub :=
  let cause := h.cget F.STK_DBG_STATUS_cause c
  let h := if cause = 2 then h.setPc c (h.pc c + 4) else h
  let h := (h.cput F.STK_DBG_STATUS_core_state c 0).cput F.STK_DBG_STATUS_steps_left c steps
  (h.modCore c fun x => { x with bpSkip := cause == 3 }).wdogLoad t c
    (max 1000 (h.cget F.STK_WDOG_COUNT_remaining_us c)) |>.takeWatchdog c

/-- The owner of a core's debugger. -/
def Hub.debugOwner (h : Hub) (c : Nat) (m : Master) : Bool :=
  h.attached c && h.cget F.STK_DBG_STATUS_owner_kind c == m.kind && h.cget F.STK_DBG_STATUS_owner_id c == m.id

/-- The owner detaches, or is lost: a HALTED core resumes (R460, R461). -/
def Hub.detach (t c : Nat) (h : Hub) : Hub :=
  let h := (h.cput F.STK_DBG_CTL_attach c 0).cput F.STK_DBG_STATUS_owner_kind c 0 |>.cput F.STK_DBG_STATUS_owner_id c 0
  if h.coreState c = 1 then h.resumeCore t c 0 else h
/-- A master that has ended detaches from every core it owns (R461). -/
def Hub.detachOwned (t : Nat) (m : Master) (h : Hub) : Hub :=
  allCores.foldl (fun h c => if h.debugOwner c m then h.detach t c else h) h

/-- A write to STK_DBG_CTL (R460, R462, R465 to R467). RESUME and STEP need a HALTED core (DESIGN CHOICE, assumption 36,
for a core that is RUNNING or in RESET). -/
def cmdDbgCtl (m : Master) (c : Nat) (v : Nat) : RegCmd :=
  { pre := fun _ => if bitAt v 3 && bits v 16 16 == 0 then some .reserved else none
    body := fun t h =>
      if h.attached c && !h.debugOwner c m then (.notOwner, h)
      else if (bitAt v 2 || bitAt v 3) && h.coreState c != 1 then (.notHeld, h)
      else
        let h :=
          if bitAt v 0 then
            (h.cput F.STK_DBG_CTL_attach c 1).cput F.STK_DBG_STATUS_owner_kind c m.kind
              |>.cput F.STK_DBG_STATUS_owner_id c m.id
          else if h.attached c then h.detach t c
          else h
        let h := (h.cput F.STK_DBG_CTL_halt_on_reset c (bits v 4 1)).cput F.STK_DBG_CTL_xhalt c (bits v 5 1)
          |>.cput F.STK_DBG_CTL_step_count c (bits v 16 16)
        let h := if bitAt v 1 then h.requestDebugHalt t c else h
        (.ok, if (bitAt v 2 || bitAt v 3) && h.coreState c == 1 then
            h.resumeCore t c (if bitAt v 3 then bits v 16 16 else 0)
          else h) }

/-- STK_DBG_CTL as it reads, with its write-only bits clear. -/
def Hub.dbgCtl (h : Hub) (c : Nat) : Nat := (h.reg .STK_DBG_CTL (coreIdx c)).toNat

/-- A debugger's write to STK_DBG_CTL of core `c`. -/
def State.dbg (s : State) (m : Master) (c v : Nat) : Out :=
  if coreOk c then s.cmd m 3 (cmdDbgCtl m c v |>.at s.hub .STK_DBG_CTL (coreIdx c) (BitVec.ofNat 64 v))
  else .refused .illFormed

/-- DBG_ATTACH (R460): attach is written 1, the other settings as they stand. -/
def execDbgAttach (m : Master) (c : Nat) (s : State) : Out := s.dbg m c (setBits (s.hub.dbgCtl c) 0 1 1)
/-- DBG_DETACH (R460). -/
def execDbgDetach (m : Master) (c : Nat) (s : State) : Out := s.dbg m c (setBits (s.hub.dbgCtl c) 0 1 0)
/-- DBG_HALT (R462). -/
def execDbgHalt (m : Master) (c : Nat) (s : State) : Out := s.dbg m c (setBits (s.hub.dbgCtl c) 1 1 1)
/-- DBG_RESUME (R467). -/
def execDbgResume (m : Master) (c : Nat) (s : State) : Out := s.dbg m c (setBits (s.hub.dbgCtl c) 2 1 1)
/-- DBG_STEP (R467). -/
def execDbgStep (m : Master) (c : Nat) (count : Nat) (s : State) : Out :=
  s.dbg m c (setBits (setBits (s.hub.dbgCtl c) 3 1 1) 16 16 count)

/-- BREAKPOINT_HIT (R464): the instruction the core fetches next stands at an enabled breakpoint. -/
def execBreakpointHit (c : Nat) (s : State) : Out :=
  s.liftIf (coreOk c) fun t h =>
    if h.ready c && h.breakpointHit c (h.pc c).toNat && !(h.core c).bpSkip then h.debugHalt t c 3 else h

/-! ### Local memory, PC and general registers (R458, R470, R471) -/

/-- Why an access to STK_DBG_LDATA is refused; in RESET with BUSY (DESIGN CHOICE, assumption 36). -/
def Hub.ldataRefusal (h : Hub) (c : Nat) : Option Status :=
  if localSize c ≤ h.cget F.STK_DBG_LADDR_addr c * 8 then some .unmapped else none
/-- The refusals of LDATA that come after the level. -/
def Hub.ldataState (h : Hub) (c : Nat) : Option Status :=
  if !h.coreOn c then some .poweredOff else if h.coreState c = 3 then some .busy else none
/-- The address moves on after an access with inc set. -/
def Hub.ldataNext (c : Nat) (h : Hub) : Hub :=
  if h.cget F.STK_DBG_LADDR_inc c = 1 then h.cput F.STK_DBG_LADDR_addr c (h.cget F.STK_DBG_LADDR_addr c + 1) else h
/-- Where LDATA stands in the store. -/
def Hub.ldataAt (h : Hub) (c : Nat) : Nat := localBase c + h.cget F.STK_DBG_LADDR_addr c * 8

/-- A write to STK_DBG_LDATA (R471). -/
def cmdLdata (c : Nat) (v : Word) : RegCmd :=
  { pre := fun h => h.ldataRefusal c
    body := fun _ h =>
      match h.ldataState c with
      | some st => (st, h)
      | none => (.ok, (h.wr (h.ldataAt c) 8 v.toNat).ldataNext c) }

/-- A read of STK_DBG_LDATA (R471): its status, its word, and what it leaves. -/
def Hub.readLdata (c : Nat) (h : Hub) : Status × Word × Hub :=
  match (h.ldataRefusal c).orElse fun _ => h.ldataState c with
  | some st => (st, 0, h)
  | none => (.ok, BitVec.ofNat 64 (h.rd (h.ldataAt c) 8), h.ldataNext c)

/-- DBG_LDATA_ACCESS (R471): a write of a word, or a read. -/
def execDbgLdataAccess (m : Master) (c : Nat) (write : Option Word) (s : State) : Out :=
  if !coreOk c then .refused .illFormed
  else
    match write with
    | some v => s.cmd m 3 (cmdLdata c v |>.at s.hub .STK_DBG_LDATA (coreIdx c) v)
    | none =>
      s.readCmd m 2 (·.ldataRefusal c) (·.ldataState c) (fun h => (h.readLdata c).2.1) fun h => (h.readLdata c).2.2

/-- A write to STK_DBG_PC or STK_DBG_GPR_n (R470). -/
def cmdCoreReg (r : Reg) (i c : Nat) (v : Word) : RegCmd :=
  { pre := fun _ => if r == .STK_DBG_PC && v.toNat % 4 != 0 then some .align else none
    body := fun _ h =>
      if !h.coreOn c then (.poweredOff, h)
      else if h.coreState c ≠ 1 then (.busy, h)
      else if r == .STK_DBG_GPR && i % 32 == 0 then (.ok, h)
      else (.ok, h.setReg r i v) }

/-- A write to STK_DBG_LADDR: an address that is not a multiple of 8 is refused with ALIGN (R471). -/
def cmdLaddr (i : Nat) (v : Nat) : RegCmd :=
  { pre := fun _ => if bits v 0 3 ≠ 0 then some .align else none
    body := fun _ h => (.ok, (h.put F.STK_DBG_LADDR_addr i (bits v 3 17)).put F.STK_DBG_LADDR_inc i (bits v 32 1)) }

/-! ### TRST_N (R456, R457) -/

/-- The debug-domain registers of core `c` return to reset (R456); what the core itself shows there stays. -/
def Hub.resetDebug (c : Nat) (h : Hub) : Hub :=
  let i := coreIdx c
  let h := [Reg.STK_DBG_CTL, .STK_DBG_LADDR, .STK_VT_OUT, .STK_VT_IN, .STK_VT_STAT].foldl (fun h r =>
    h.setReg r i (r.init i)) h
  let h := (h.cput F.STK_DBG_STATUS_cause c 0).cput F.STK_DBG_STATUS_steps_left c 0
  [2 * i, 2 * i + 1].foldl (fun h k => h.setReg .STK_DBG_BP k (Reg.STK_DBG_BP.init k)) h
/-- TRST_N is asserted: every core detaches, and the debug domain is reset (R456, R457, R510). -/
def Hub.trst (t : Nat) (h : Hub) : Hub :=
  let h := allCores.foldl (fun h c => (if h.coreState c = 1 ∨ h.attached c then h.detach t c else h).resetDebug c) h
  { h with tap := {} }
/-- TRST (R457). -/
def execTrst (s : State) : Out := s.lift fun t h => h.trst t

end Sys2Proof.Machine
end

