-- ==== Sys2Proof/Machine/TxnOps.lean ====
section
/-! DEFINITION. Opening, committing and aborting a transaction (R429, R431, R436, R437), up to the prepare. -/

namespace Sys2Proof.Machine

open Sys2Proof

/-- The state of transaction `x`: 0 FREE, 1 OPEN, 2 PREPARING, 3 PREPARED, 4 COMMITTED, 5 DONE, 6 ABORTED. -/
def Hub.txnState (h : Hub) (x : Nat) : Nat := h.get F.TXN_STATE_state x
/-- The master that owns transaction `x`. -/
def Hub.txnMaster (h : Hub) (x : Nat) : Master := Master.ofKind (h.get F.TXN_OWNER_kind x) (h.get F.TXN_OWNER_id x)

/-- STK_TXN of a core follows its open transaction. -/
def Hub.showTxn (m : Master) (h : Hub) : Hub :=
  match m with
  | .core c =>
    (h.cput F.STK_TXN_open c (b2n (h.openTxn m).isSome)).cput F.STK_TXN_id c ((h.openTxn m).getD 0)
  | _ => h

/-- The ID of transaction `x` is released. -/
def Hub.freeTxn (x : Nat) (h : Hub) : Hub :=
  (h.setReg .TXN_STATE x 0).setReg .TXN_TIME x 0 |>.setReg .TXN_OWNER x 0 |>.modTxn x fun _ => {}

/-- A transaction that is neither FREE nor DONE nor ABORTED. -/
def Hub.txnLive (h : Hub) (x : Nat) : Bool := decide (1 ≤ h.txnState x) && decide (h.txnState x ≤ 4)

/-- A master opens a transaction (R429, R438): the status and the ID. The lowest FREE ID is taken, else the lowest that
is DONE or ABORTED (DESIGN CHOICE, assumption 33). -/
def Hub.openTransaction (m : Master) (h : Hub) : Status × Nat × Hub :=
  if (h.openTxn m).isSome ∨ (List.range 16).all h.txnLive then (.busy, 0, h)
  else
    let ended := (List.range 16).filter fun x => 5 ≤ h.txnState x ∧ h.txnOwner x m
    let h := ended.foldl (fun h x => h.freeTxn x) h
    let x := ((List.range 16).find? fun x => h.txnState x = 0).getD
      (((List.range 16).find? fun x => !h.txnLive x).getD 0)
    let h := h.freeTxn x
    let h := (h.put F.TXN_STATE_state x 1).put F.TXN_OWNER_kind x m.kind |>.put F.TXN_OWNER_id x m.id
    let rpt := (h.reg .TXN_RPT m.idx).toNat
    let h := h.modTxn x fun _ => { rptAddr := bits rpt 0 48, rptCap := bits rpt 48 16 }
    (.ok, x, h.showTxn m)

/-- What a commit request finds (R431). -/
inductive Commit where
  | refused (st : Status)
  | empty
  | starts
  deriving DecidableEq, Repr

/-- The commit of transaction `x` at `c` is asked for by master `m` (R431). The lead is checked before the count of
actions (DESIGN CHOICE, assumption 34). -/
def Hub.commitTxn (t : Nat) (m : Master) (x c : Nat) (viaReg : Bool) (h : Hub) : Commit × Hub :=
  if 15 < x ∨ h.txnState x ≠ 1 ∨ !h.txnOwner x m then (.refused .noTxn, h)
  else if c < t + us 2 then (.refused .txnLead, h)
  else
    let h := (h.setReg .TXN_TIME x (BitVec.ofNat 64 c)).modTxn x fun y => { y with viaReg }
    if (h.txn x).acts.isEmpty then (.empty, ((h.put F.TXN_STATE_state x 4).finishTxn t x).showTxn m)
    else (.starts, (h.put F.TXN_STATE_state x 2).showTxn m)

/-- The outcome of a commit reaches its owner (R431, R434). -/
def Hub.txnResult (t x : Nat) (st : Status) (h : Hub) : Hub :=
  let m := h.txnMaster x
  if (h.txn x).viaReg then
    (h.put F.TXN_RESULT_status m.idx st.code).put F.TXN_RESULT_done m.idx 1 |>.put F.TXN_RESULT_id m.idx x
  else
    match m with
    | .core c =>
      match (h.core c).wait with
      | .txc rd _ => h.endWait t c rd (h.reg .TXN_TIME x) st
      | _ => h
    | _ => h

/-- Transaction `x` aborts: every staged action is discarded and every claim released (R434, R436, R437). -/
def Hub.abortTxn (t x cause : Nat) (h : Hub) : Hub :=
  let was := h.txnState x
  let h := (h.put F.TXN_STATE_state x 6).put F.TXN_STATE_abort_cause x cause |>.put F.TXN_STATE_actions x 0
    |>.modTxn x (fun y => { y with acts := [], fails := [], waiting := [], endedAt := t })
    |>.showTxn (h.txnMaster x)
  if was = 2 then h.txnResult t x .txnAborted else h

/-- The causes of TXN_STATE_t.abort_cause. -/
def abortPrepare : Nat := 1
/-- COMMANDED. -/
def abortCommanded : Nat := 2
/-- LATE. -/
def abortLate : Nat := 3
/-- OWNER_RESET. -/
def abortOwner : Nat := 4
/-- HEARTH_RESTART. -/
def abortHearth : Nat := 5

/-- TXA, or op ABORT (R436). A prepare under way is refused with BUSY (DEDUCED, assumption 34). -/
def Hub.commandedAbort (t : Nat) (m : Master) (x : Nat) (h : Hub) : Status × Hub :=
  if 15 < x ∨ !h.txnLive x ∨ !h.txnOwner x m then (.noTxn, h)
  else if h.txnState x = 1 ∨ (h.txnState x = 3 ∧ t + us 1 < h.get F.TXN_TIME_commit_time x) then
    (.ok, h.abortTxn t x abortCommanded)
  else (.busy, h)

/-- The OPEN or PREPARING transactions of a master that is reset or ends abort (R437). -/
def Hub.abortOwned (t : Nat) (m : Master) (h : Hub) : Hub :=
  ((List.range 16).filter fun x => (h.txnState x = 1 ∨ h.txnState x = 2) ∧ h.txnOwner x m).foldl (fun h x =>
    h.abortTxn t x abortOwner) h
/-- Every transaction not yet at its commit instant aborts (R437). -/
def Hub.abortAll (t : Nat) (h : Hub) : Hub :=
  ((List.range 16).filter fun x => 1 ≤ h.txnState x ∧ h.txnState x ≤ 3).foldl (fun h x => h.abortTxn t x abortHearth) h

/-! ### TXB, TXC and TXA -/

/-- TXB once the Hearth serves it. -/
def effTxb (c : Nat) (rd : RegNo) (h : Hub) : Effect :=
  let (st, x, h) := h.openTransaction (.core c)
  h.endResult c rd (BitVec.ofNat 64 x) st

/-- TXC once the Hearth serves it: it waits until the prepare ends (R431). -/
def effTxc (t c : Nat) (rd : RegNo) (id at_ : Word) (h : Hub) : Effect :=
  if 15 < id.toNat then h.endStatus c .reserved
  else
    match h.commitTxn t (.core c) id.toNat at_.toNat false with
    | (.refused st, h) => h.endStatus c st
    | (.empty, h) => h.endResult c rd at_ .ok
    | (.starts, h) => .stay (h.modCore c fun y => { y with wait := .txc rd id.toNat })

/-- TXA once the Hearth serves it. -/
def effTxa (t c : Nat) (id : Word) (h : Hub) : Effect :=
  if 15 < id.toNat then h.endStatus c .reserved
  else
    let (st, h) := h.commandedAbort t (.core c) id.toNat
    h.endStatus c st

/-- TXB (R429). -/
def execTxb (c : Nat) (rd : RegNo) (s : State) : Out :=
  s.instr c fun _ h => sEffect rd <| hearthEffect c (.txb rd) (effTxb c rd) h
/-- TXC (R431). -/
def execTxc (c : Nat) (rd rs1 rs2 : RegNo) (s : State) : Out :=
  s.instr c fun t h => sEffect rd <|
    hearthEffect c (.txc rd (h.gpr c rs1) (h.gpr c rs2)) (effTxc t c rd (h.gpr c rs1) (h.gpr c rs2)) h
/-- TXA (R436). -/
def execTxa (c : Nat) (rs1 : RegNo) (s : State) : Out :=
  s.instr c fun t h => hearthEffect c (.txa (h.gpr c rs1)) (effTxa t c (h.gpr c rs1)) h

/-! ### TXN_CMD -/

/-- The outcome of a write to TXN_CMD that ends at once. -/
def Hub.txnCmdEnds (m : Master) (x : Nat) (st : Status) (h : Hub) : Hub :=
  (h.put F.TXN_RESULT_status m.idx st.code).put F.TXN_RESULT_done m.idx 1 |>.put F.TXN_RESULT_id m.idx x

/-- TXN_CMD op OPEN (R429). -/
def cmdTxnOpen (m : Master) : RegCmd :=
  { body := fun _ h =>
      let (st, x, h) := h.openTransaction m
      (.ok, h.txnCmdEnds m x st) }
/-- TXN_CMD op COMMIT (R431). -/
def cmdTxnCommit (m : Master) (x : Nat) : RegCmd :=
  { body := fun t h =>
      match h.commitTxn t m x (h.get F.TXN_AT_commit_time m.idx) true with
      | (.refused st, h) => (.ok, h.txnCmdEnds m x st)
      | (.empty, h) => (.ok, h.txnCmdEnds m x .ok)
      | (.starts, h) => (.ok, (h.put F.TXN_RESULT_done m.idx 0).put F.TXN_RESULT_id m.idx x) }
/-- TXN_CMD op ABORT (R436). -/
def cmdTxnAbort (m : Master) (x : Nat) : RegCmd :=
  { body := fun t h =>
      let (st, h) := h.commandedAbort t m x
      (.ok, h.txnCmdEnds m x st) }

/-- TXN_OPEN (R429). -/
def execTxnOpen (m : Master) (s : State) : Out := s.cmd m 3 (cmdTxnOpen m)
/-- TXN_COMMIT (R431). -/
def execTxnCommit (m : Master) (id : Nat) (s : State) : Out :=
  if id < 16 then s.cmd m 3 (cmdTxnCommit m id) else .refused .illFormed
/-- TXN_ABORT (R436). -/
def execTxnAbort (m : Master) (id : Nat) (s : State) : Out :=
  if id < 16 then s.cmd m 3 (cmdTxnAbort m id) else .refused .illFormed

/-- 10 ms after a transaction reached DONE or ABORTED (R429). -/
def Hub.txnIdDue (h : Hub) (x : Nat) : Option Nat :=
  if 5 ≤ h.txnState x then some ((h.txn x).endedAt + ms 10) else none
/-- TXN_ID_TIMEOUT (R429). -/
def execTxnIdTimeout (id : Nat) (s : State) : Out :=
  if id < 16 then s.liftAt (s.hub.txnIdDue id) fun _ h => h.freeTxn id else .refused .illFormed

end Sys2Proof.Machine
end

