-- ==== Sys2Proof/Machine/Spdm.lean ====
section
/-! DEFINITION. SPDM and sessions (R478 to R487). The order of SPDM requests and the errors for a request out of order or
for a message that does not verify are the SPDM standard's (PRESUMED, assumption 43). -/

namespace Sys2Proof.Machine

open Sys2Proof

/-! ### Sessions -/

/-- AUT_STATUS.sessions_open follows AUT_SESS_s. -/
def Hub.countSessions (h : Hub) : Hub :=
  h.put F.AUT_STATUS_sessions_open 0 ((List.range 20).filter fun s => h.flag F.AUT_SESS_open s).length
/-- A session ends, whatever the reason (R481). The end of a host agent's session is the agent's reset of R125. DESIGN
CHOICE (assumption 67): the spec names no other event that tells the hub of one. -/
def Hub.endSession (t s : Nat) (h : Hub) : Hub :=
  let m := sessionMaster s
  let h := ((h.setReg .AUT_SESS s 0).breakLocksOf t m).abortOwned t m
  let h := (h.detachOwned t m).endExportsOf t m
  { h with sess := aKeep (· ≠ s) h.sess }.countSessions
/-- The highest level a session on a transport may hold (R478). -/
def transportCap : Chan → Nat
  | .pcie _ => 3
  | .i3c => 1
  | .vyn => 4
  | .jtag => 4
/-- The code of a transport in AUT_SESS_s. -/
def transportCode : Chan → Nat
  | .pcie _ => 0
  | .i3c => 1
  | .vyn => 2
  | .jtag => 3
/-- A session opens with a level. -/
def Hub.openSession (s : Nat) (x : SessX) (level : Nat) (h : Hub) : Hub :=
  let h := { h with sess := aKeep (· ≠ s) h.sess ++ [(s, x)] }
  ((h.setReg .AUT_SESS s 0).put F.AUT_SESS_open s 1).put F.AUT_SESS_level s level
    |>.put F.AUT_SESS_transport s (transportCode x.chan) |>.put F.AUT_SESS_anchor s x.anchor
    |>.put F.AUT_SESS_session_id s x.id |>.countSessions
/-- The lowest free session number of a channel's kind (R487). -/
def Hub.freeSession (h : Hub) (ch : Chan) : Option Nat :=
  let free := fun s => (h.session s).isNone
  if (chanLink ch).isSome then ((List.range 4).map (16 + ·)).find? free else (List.range 16).find? free
/-- In DEVELOPMENT a JTAG session holds level 4 from the first MBOX frame, without SPDM (R482). -/
def Hub.developmentSession (t : Nat) (h : Hub) : Hub :=
  if Config.production ∨ h.sess.any (fun e => e.2.chan == .jtag) then h
  else
    match h.freeSession .jtag with
    | some s => h.openSession s { chan := .jtag, id := 0, phase := 3, maxLevel := 4, lastAt := t } 4
    | none => h

/-- When a session has had no valid secured message for 10 s (R487). -/
def Hub.sessionDue (h : Hub) (s : Nat) : Option Nat :=
  ((h.session s).filter fun x => x.phase == 3).map fun x => x.lastAt + secs 10
/-- SESSION_TIMEOUT (R487). -/
def execSessionTimeout (s : Nat) (st : State) : Out :=
  if s < 20 then st.liftAt (st.hub.sessionDue s) fun t h => h.endSession t s else .refused .illFormed

/-! ### A connection -/

/-- The number under which a channel's connection is kept. -/
def chanIdx : Chan → Nat
  | .i3c => 0
  | .vyn => 1
  | .jtag => 2
  | .pcie e => 3 + e
/-- A channel's connection. -/
def Hub.conn (h : Hub) (ch : Chan) : SpdmX := aGet (fun _ => {}) h.spdm (chanIdx ch)
/-- Change a channel's connection. -/
def Hub.modConn (ch : Chan) (f : SpdmX → SpdmX) (h : Hub) : Hub :=
  { h with spdm := aPut (fun _ => {}) (chanIdx ch) (f (h.conn ch)) h.spdm }
/-- SPDM is served on a channel: in BOOT on the Vynuond port and JTAG only (R487), on a Vynuond link while it is UP. -/
def Hub.spdmServed (h : Hub) (ch : Chan) : Bool :=
  h.powered && match chanLink ch with
    | some k => (h.vlink k).state == 3
    | none => !h.booting
/-- A request on a channel that needs `need` of the first three requests answered before it: what it does, or an error. -/
def State.spdm (s : State) (ch : Chan) (need : Nat) (f : Nat → Hub → Hub) : Out :=
  s.lift fun t h =>
    if !h.spdmServed ch then h
    else if (h.conn ch).done < need then h.sendSpdm t ch (.error .unexpectedRequest)
    else f t h

/-- GET_VERSION (R483): versions 1.2 and 1.3; it begins a connection. -/
def execGetVersion (ch : Chan) (s : State) : Out :=
  s.spdm ch 0 fun t h => (h.modConn ch fun _ => { done := 1 }).sendSpdm t ch (.version [0x12, 0x13])
/-- GET_CAPABILITIES (R484). -/
def execGetCapabilities (ch : Chan) (s : State) : Out :=
  s.spdm ch 1 fun t h => (h.modConn ch fun x => { x with done := max x.done 2 }).sendSpdm t ch .capabilities
/-- The hub's one choice is among the offered values of every field (R483). -/
def AlgOffer_ok (o : AlgOffer) : Bool := o.asym && o.hash && o.dhe && o.aead && o.schedule && o.spec && o.specHash
/-- NEGOTIATE_ALGORITHMS (R483). -/
def execNegotiateAlgorithms (ch : Chan) (offer : AlgOffer) (s : State) : Out :=
  s.spdm ch 2 fun t h =>
    if AlgOffer_ok offer then (h.modConn ch fun x => { x with done := 3 }).sendSpdm t ch .algorithms
    else h.sendSpdm t ch (.error .invalidRequest)

/-- GET_DIGESTS (R484, R485): slots 0 and 1. -/
def execGetDigests (ch : Chan) (s : State) : Out := s.spdm ch 3 fun t h => h.sendSpdm t ch (.digests 3)
/-- GET_CERTIFICATE (R484, R485): slots 2 to 7 are empty. -/
def execGetCertificate (ch : Chan) (slot : Nat) (s : State) : Out :=
  s.spdm ch 3 fun t h => h.sendSpdm t ch (if slot < 2 then .certificate slot else .error .invalidRequest)
/-- CHALLENGE (R484): slot 0. -/
def execChallenge (ch : Chan) (slot : Nat) (s : State) : Out :=
  s.spdm ch 3 fun t h => h.sendSpdm t ch (if slot = 0 then .challengeAuth 0 else .error .invalidRequest)

/-- The words of the patch set in force (R486). -/
def Hub.patchSet (h : Hub) : List Word := (List.range 64).flatMap fun n => [h.reg .PAT_ADDR n, h.reg .PAT_DATA n]
/-- The boot image of a slot: its bytes up to image_size (R551). -/
def Hub.bootImage (h : Hub) (slot : Nat) : List Byte :=
  let a := 0x2000000000 + if slot = 0 then 0x100000 else 0x2000000
  h.bytes a (h.rd (a + 16) 4)
/-- Core `c` holds a loaded recipe: it runs it, or is a core of the ready standby, which is held in reset (R439). -/
def Hub.holdsRecipe (h : Hub) (c : Nat) : Bool :=
  (h.core c).released || (h.flag F.HRT_STATE_standby_ready && isHearthCore c && dieOf c != h.hearthDie)
/-- The value of a measurement (R486). -/
def Hub.measure (h : Hub) (i : Nat) : List Byte :=
  match i with
  | 2 => (h.boot.slot.map fun n => sha384 (h.bootImage n)).getD []
  | 3 => sha384 ((allCores.filter h.holdsRecipe).flatMap fun c =>
      ((h.core c).image.map ImageX.sig).getD [])
  | 4 => Config.measurement 4 h.patchSet
  | _ => Config.measurement i []
/-- GET_MEASUREMENTS (R484, R486): signed with slot 0. -/
def execGetMeasurements (ch : Chan) (index : Nat) (s : State) : Out :=
  s.spdm ch 3 fun t h =>
    h.sendSpdm t ch (if 1 ≤ index ∧ index ≤ 5 then .measurements index (h.measure index) else .error .invalidRequest)

/-! ### The handshake (R479, R484, R487) -/

/-- The handshake under way on a channel, in a phase. -/
def Hub.shaking (h : Hub) (ch : Chan) (phase : Nat) : Option (Nat × SessX) :=
  ((h.conn ch).handshake.bind fun s => (h.session s).map fun x => (s, x)).filter fun x => x.2.phase == phase
/-- A handshake that has not finished is given up. -/
def Hub.dropHandshake (ch : Chan) (h : Hub) : Hub :=
  match (h.conn ch).handshake with
  | none => h
  | some s =>
    let h := h.modConn ch fun x => { x with handshake := none }
    { h with sess := h.sess.filter fun e => e.1 ≠ s ∨ e.2.phase = 3 }
/-- A handshake goes on to a phase. -/
def Hub.setPhase (s : Nat) (f : SessX → SessX) (h : Hub) : Hub :=
  { h with sess := h.sess.map fun e => if e.1 = s then (s, f e.2) else e }
/-- A request of the handshake: served in its phase, and an error otherwise. -/
def State.shake (s : State) (ch : Chan) (phase : Nat) (f : Nat → Nat × SessX → Hub → Hub) : Out :=
  s.spdm ch 3 fun t h =>
    match h.shaking ch phase with
    | some x => f t x h
    | none => h.sendSpdm t ch (.error .unexpectedRequest)

/-- KEY_EXCHANGE (R479, R487): mutual authentication is asked for, HeartbeatPeriod is 5 s. -/
def execKeyExchange (ch : Chan) (sessionId : Nat) (s : State) : Out :=
  s.spdm ch 3 fun t h =>
    let h := h.dropHandshake ch
    match h.freeSession ch with
    | none => h.sendSpdm t ch (.error .sessionLimitExceeded)
    | some n =>
      let y : SessX := { chan := ch, id := sessionId % 2 ^ 32 }
      let h := { h with sess := h.sess ++ [(n, y)] }.modConn ch fun x => { x with handshake := some n }
      h.sendSpdm t ch (.keyExchange (sessionId % 2 ^ 32) true 5)
/-- GET_ENCAPSULATED_REQUEST (R484): the hub asks for the requester's chain. -/
def execGetEncapsulatedRequest (ch : Chan) (s : State) : Out :=
  s.shake ch 0 fun t x h => (h.setPhase x.1 fun y => { y with phase := 1 }).sendSpdm t ch .encapsulatedRequest
/-- The unrevoked trust anchor with a root digest (R479). -/
def anchorOf (digest : List Byte) : Option Nat :=
  (List.range 8).find? fun n => bitAt (Config.anchorBits n) 0 && !bitAt (Config.anchorBits n) 1 && Config.anchorDigest n == digest
/-- DELIVER_ENCAPSULATED_RESPONSE (R479, R484): the requester's chain, which must verify and end at a trust anchor. -/
def execDeliverEncapsulatedResponse (ch : Chan) (rootDigest : List Byte) (chainOk : Bool) (s : State) : Out :=
  s.shake ch 1 fun t x h =>
    match (anchorOf rootDigest).filter fun _ => chainOk with
    | some n => (h.setPhase x.1 fun y => { y with
        phase := 2, anchor := n, maxLevel := bits (Config.anchorBits n) 2 3 }).sendSpdm t ch .encapsulatedAck
    | none => (h.dropHandshake ch).sendSpdm t ch (.error .invalidRequest)
/-- FINISH (R479): the session opens at level 0. -/
def execFinish (ch : Chan) (ok : Bool) (s : State) : Out :=
  s.shake ch 2 fun t x h =>
    if ok then
      ((h.openSession x.1 { x.2 with phase := 3, lastAt := t } 0).modConn ch fun y => { y with handshake := none }).sendSpdm t ch .finish
    else (h.dropHandshake ch).sendSpdm t ch (.error .decryptError)

/-! ### In a session -/

/-- HEARTBEAT (R484, R487). -/
def execHeartbeat (s : Nat) (st : State) : Out :=
  st.inner s fun t h => h.sendInner t s 0 (.spdm .heartbeatAck)
/-- KEY_UPDATE (R484). -/
def execKeyUpdate (s : Nat) (st : State) : Out :=
  st.inner s fun t h => h.sendInner t s 0 (.spdm .keyUpdateAck)
/-- END_SESSION (R484, R487). -/
def execEndSession (s : Nat) (st : State) : Out :=
  st.inner s fun t h => (h.sendInner t s 0 (.spdm .endSessionAck)).endSession t s
/-- The request codes of R484, as the SPDM standard numbers them (PRESUMED, assumption 43). -/
def spdmCodes : List Nat :=
  [0x84, 0xE1, 0xE3, 0x81, 0x82, 0x83, 0xE0, 0xE4, 0xE5, 0xE8, 0xE9, 0xEA, 0xEB, 0xEC]
/-- SPDM_UNSUPPORTED_REQUEST (R484). -/
def execSpdmUnsupportedRequest (ch : Chan) (code : Nat) (s : State) : Out :=
  if spdmCodes.contains code then .refused .illFormed
  else s.spdm ch 0 fun t h => h.sendSpdm t ch (.error .unsupportedRequest)

/-- AUT_REQ (R479): the level asked for, up to the smaller of the anchor's maximum and the transport cap. -/
def Hub.autReq (t s tag level : Nat) (notices : Bool) (h : Hub) : Hub :=
  match h.session s with
  | none => h
  | some x =>
    if min x.maxLevel (transportCap x.chan) < level then h.sendInner t s tag (.aut .auth (h.get F.AUT_SESS_level s))
    else ((h.put F.AUT_SESS_level s level).putB F.AUT_SESS_notices s notices).sendInner t s tag (.aut .ok level)
/-- AUT_REQ (R479). -/
def execAutReq (s tag level : Nat) (notices : Bool) (st : State) : Out :=
  if level < 8 then st.inner s fun t h => h.autReq t s tag level notices else .refused .illFormed
/-- The inner opcodes to the hub (R495). -/
def innerOpcodes : List Nat := [0x01, 0x10, 0x12, 0x20, 0x22, 0x24]
/-- INNER_UNKNOWN (R495): every other opcode is answered with RESERVED. -/
def execInnerUnknown (s tag opcode : Nat) (st : State) : Out :=
  if innerOpcodes.contains opcode then .refused .illFormed
  else st.inner s fun t h => h.sendInner t s tag (.unknown .reserved)

end Sys2Proof.Machine
end

