-- ==== Sys2Proof/Machine/Vyn.lean ====
section
/-! DEFINITION. Receiving on the Vynuond port and the JTAG mailbox instrument (R488 to R494, R512). -/

namespace Sys2Proof.Machine

open Sys2Proof

/-! ### The link's states -/

/-- The PHY loses its link. -/
def Hub.vynDown (h : Hub) : Hub := (h.setVlink 0 0).put F.VYN_STATUS_lanes 0 0
/-- VYN_LINK_TRAINED (R488, R493): the PHY has trained on one or two lanes; a HELLO is awaited. VYN_CFG.enable takes effect
here: 0 holds the PHY down with its domain off, and 1 powers it again (R558), but for a domain that Ember mode or a
fault has switched off. -/
def Hub.vynTrained (lanes : Nat) (h : Hub) : Hub :=
  if h.get F.HRT_BOOT_STATUS_stage = 0 ∨ h.isolated 118 ∨ (!h.domainOn 118 ∧ h.flag F.HRT_STATE_ember) then h
  else if !h.flag F.VYN_CFG_enable then h.vynDown.setDomain 118 false
  else (((h.requeue 0).modVlink 0 fun x => { x with rxNext := 0, txNext := 0 }).setVlink 0 2).put F.VYN_STATUS_lanes 0 lanes
    |>.setDomain 118 true
/-- VYN_LINK_TRAINED (R488). -/
def execVynLinkTrained (lanes : Nat) (s : State) : Out :=
  if lanes = 1 ∨ lanes = 2 then s.lift fun _ h => h.vynTrained lanes else .refused .illFormed
/-- VYN_LINK_DOWN (R488). -/
def execVynLinkDown (s : State) : Out := s.lift fun _ h => h.vynDown

/-- A frame was replayed 8 times: the port retrains (R491); the mailbox instrument, which has no PHY, negotiates again. -/
def Hub.retrain (k : Nat) (h : Hub) : Hub :=
  let h := h.requeue k
  if k = 0 then (h.setVlink 0 1).bump F.VYN_STATUS_retrains 0 1 else h.setVlink k 2

/-! ### Replay (R491) -/

/-- The frames of the replay buffer from link sequence `n` on are sent again; those before it have been received. -/
def Hub.replayFrom (t k n : Nat) (h : Hub) : Hub :=
  let x := h.vlink k
  let rest := x.replay.dropWhile fun f => f.frame.seq ≠ n
  if rest.isEmpty then h
  else if rest.any fun f => 8 ≤ f.replays then h.retrain k
  else
    let rest := rest.map fun f => { f with at_ := t, replays := f.replays + 1 }
    let h := (h.modVlink k fun x => { x with replay := rest }).bump F.VYN_ERR_replays 0 rest.length
    rest.foldl (fun h f => h.say (.frame (k == 1) f.frame)) h
/-- When link `k`'s frame with a link sequence falls due for replay. -/
def Hub.replayDueOn (h : Hub) (n k : Nat) : Option Nat :=
  ((h.vlink k).replay.find? fun f => f.frame.seq = n).map fun f => f.at_ + us 100
/-- The link whose frame with a link sequence falls due for replay first, the port before the mailbox instrument, and
when (R491, R512). -/
def Hub.replayNext (h : Hub) (n : Nat) : Option (Nat × Nat) :=
  match h.replayDueOn n 0, h.replayDueOn n 1 with
  | some a, some b => some (if a ≤ b then (0, a) else (1, b))
  | some a, none => some (0, a)
  | none, some b => some (1, b)
  | none, none => none
/-- REPLAY_TIMEOUT (R491). -/
def execReplayTimeout (seq : Nat) (s : State) : Out :=
  s.liftAt ((s.hub.replayNext seq).map (·.2)) fun t h => h.replayFrom t (((s.hub.replayNext seq).map (·.1)).getD 0) seq
/-- The frames up to an acknowledged one leave the replay buffer (R489). -/
def Hub.acked (k ack : Nat) (h : Hub) : Hub :=
  h.modVlink k fun x =>
    if x.replay.any fun f => f.frame.seq == ack then
      { x with replay := (x.replay.dropWhile fun f => f.frame.seq ≠ ack).drop 1 }
    else x

/-! ### A frame arrives -/

/-- The link of a header. -/
def hdrLink (x : VynHdr) : Nat := b2n x.jtag
/-- The frame opcodes (R489). -/
def frameOpcodes : List Nat := [0x01, 0x02, 0x03, 0x04, 0x10, 0x11]
/-- The frame is malformed (R492). -/
def VynX.malformed (x : VynX) (f : VynHdr) : Bool :=
  let up := x.state == 3
  f.version != (if up then x.version else 1) || !frameOpcodes.contains f.opcode || decide (2 < f.cls) ||
    f.length % 4 != 0 || decide ((if up then 256 * 2 ^ x.payload else 1024) < f.length)
/-- The hub listens on a link: the port from NEGOTIATE on, the mailbox instrument always. -/
def Hub.listens (h : Hub) (k : Nat) : Bool := h.powered && (k == 1 || decide (2 ≤ (h.vlink k).state))

/-- A frame arrives, which is acted on only where its CRC, its form, its sequence and its credit allow (R490 to R492). NAK
has no sequence of its own, and HELLO, CREDIT and NAK need no credit. A frame without credit leaves the expected
sequence as it is (DESIGN CHOICE, assumption 44). The credit a frame used is returned at once. -/
def Hub.receive (t : Nat) (f : VynHdr) (act : Hub → Hub) (h : Hub) : Hub :=
  let k := hdrLink f
  let x := h.vlink k
  if !h.listens k then h
  else if !f.crcOk then (h.bump F.VYN_ERR_crc_errors 0 1).sendNak k
  else if x.malformed f then (h.bump F.VYN_ERR_frame_errors 0 1).sendNak k
  else if f.opcode = 0x04 then act (h.acked k f.ack)
  else if f.seq ≠ x.rxNext then h.sendNak k
  else if 0x10 ≤ f.opcode ∧ creditOf x.given f.cls = 0 then h.bump F.VYN_ERR_credit_errors 0 1
  else
    let h := (h.modVlink k fun x => { x with rxNext := (x.rxNext + 1) % 65536, words := [] }).acked k f.ack
    let h := if f.jtag then h.developmentSession t else h
    let h := act h
    if 0x10 ≤ f.opcode then
      h.sendFrame t k 0 (.credit (creditMod (fun _ => 1) f.cls { control := 0, access := 0, stream := 0 }))
    else h
/-- A command that is a frame with an opcode: one with a reserved opcode is malformed, one with another frame's opcode is
not this command. -/
def State.frame (s : State) (f : VynHdr) (opcode : Nat) (act : Nat → Nat → Hub → Hub) : Out :=
  if f.opcode ≠ opcode ∧ frameOpcodes.contains f.opcode then .refused .illFormed
  else s.lift fun t h => h.receive t f (act t (hdrLink f))

/-- HELLO (R493): the hub answers with HELLO_ACK, after which link sequences restart at 0; with no common version its bitmap
is 0 and the link stays in NEGOTIATE. -/
def Hub.hello (t k versions payload : Nat) (c : VynCredits) (h : Hub) : Hub :=
  let mine : VynCredits := { control := 4, access := 16, stream := 64 }
  let p := min payload (h.get F.VYN_CFG_payload_max)
  let ok := bitAt versions 1
  let h := (h.requeue k).emitFrame t k 0 (.helloAck (if ok then 2 else 0) p mine)
  let h := h.modVlink k fun x => { x with rxNext := 0, txNext := 0, replay := [] }
  if !ok then h.setVlink k 2
  else
    let h := (h.modVlink k fun x => { x with version := 1, payload := p, held := c, given := mine }).setVlink k 3
    let h := if k = 0 then (h.put F.VYN_STATUS_version 0 1).put F.VYN_STATUS_payload 0 p else h
    h.pump t k
/-- HELLO (R493). -/
def execHello (hdr : VynHdr) (versions payloadMax : Nat) (credits : VynCredits) (s : State) : Out :=
  s.frame hdr 0x01 fun t k h => h.hello t k versions payloadMax credits
/-- CREDIT (R490). -/
def execCredit (hdr : VynHdr) (credits : VynCredits) (s : State) : Out :=
  s.frame hdr 0x03 fun t k h =>
    (h.modVlink k fun x => { x with held := {
      control := x.held.control + credits.control, access := x.held.access + credits.access
      stream := x.held.stream + credits.stream } }).pump t k
/-- NAK (R491). -/
def execNak (hdr : VynHdr) (expected : Nat) (s : State) : Out :=
  s.frame hdr 0x04 fun t k h => h.replayFrom t k expected
/-- SPDM_FRAME (R494): the link takes the frame; the message it completes is a command of its own. -/
def execSpdmFrame (hdr : VynHdr) (_payload : List Byte) (s : State) : Out := s.frame hdr 0x10 fun _ _ h => h
/-- SECURED_FRAME (R494): a secured message of the session with the SPDM session ID; one that does not verify is answered
with an error (PRESUMED, assumption 43). Its inner frame is a command of its own. -/
def execSecuredFrame (hdr : VynHdr) (session : Nat) (macOk : Bool) (s : State) : Out :=
  s.frame hdr 0x11 fun t k h =>
    match h.sess.find? fun e => e.2.id == session && e.2.phase == 3 && chanLink e.2.chan == some k with
    | some e => if macOk then h.fromSession t e.1 id else h.sendSpdm t e.2.chan (.error .decryptError)
    | none => h

end Sys2Proof.Machine
end

