-- ==== Sys2Proof/Machine/Ember.lean ====
section
/-! DEFINITION. Ember mode (R43, R560 to R562). -/

namespace Sys2Proof.Machine

open Sys2Proof

/-! ### Entry -/

/-- An entry is refused with BUSY (R43, R316, R437, R560). -/
def Hub.emberBusy (h : Hub) : Bool :=
  h.stateCode != 1 || h.capturesRunning != 0 || h.anyJobOpen || h.mapOp.isSome || !h.exports.isEmpty ||
    (List.range 16).any fun x => h.txnState x == 2 || h.txnState x == 3
/-- Group `g` of node `p` is switched off by an entry: it is mapped in, and holds no extent of a held capture, no reserved
share and no trace segment (R560, R273). -/
def Hub.emberOff (h : Hub) (p g : Nat) : Bool :=
  let r := (groupBase p g, 64 * mib)
  h.mappedIn p g && h.shareGroup p != g && !(h.heldExtents p).any (overlaps r) &&
    !(h.segBase p != 0 && overlaps r (h.segBase p, h.segSize))
/-- The contents of a bank group are lost. -/
def Hub.loseGroup (p g : Nat) (h : Hub) : Hub :=
  { h with mem := h.mem.filter fun e => e.1 < groupBase p g ∨ groupBase p g + 64 * mib ≤ e.1 }
/-- The actions of an entry, in order (R560). -/
def Hub.enterEmber (t : Nat) (h : Hub) : Hub :=
  let h := h.traceStop t 3
  let off := (List.range 64).filter fun k => h.emberOff (k / 8) (k % 8)
  let h := off.foldl (fun h k => (h.setDomain k false).loseGroup (k / 8) (k % 8)) h
  let h := (List.range 8).foldl (fun h p => h.setDomain (96 + p) false) (h.resetRegs .e fun _ _ => true)
  let h := if h.get F.VYN_STATUS_link_state = 0 ∧ h.flag F.HRT_EMBER_CFG_phy_off then h.setDomain 118 false else h
  ((h.put F.HRT_STATE_ember 0 1).put F.HRT_EMBER_STATUS_phase 0 1).put F.HRT_EMBER_STATUS_groups_off 0 off.length
    |>.bump F.HRT_EMBER_STATUS_entries 0 1
    |>.refreshState t
/-- HRT_EMBER_CMD op ENTER. -/
def cmdEmberEnter : RegCmd :=
  { txn := .refuse, body := fun t h => if h.emberBusy then (.busy, h) else (.ok, h.enterEmber t) }
/-- EMBER_ENTER (R560). -/
def execEmberEnter (m : Master) (s : State) : Out := s.cmd m 3 cmdEmberEnter
/-- EMBER_ENTRY_DONE (R560). -/
def execEmberEntryDone (s : State) : Out :=
  s.lift fun _ h => if h.get F.HRT_EMBER_STATUS_phase = 1 then h.put F.HRT_EMBER_STATUS_phase 0 2 else h

/-! ### Exit -/

/-- HRT_EMBER_CMD op EXIT. -/
def cmdEmberExit : RegCmd :=
  { txn := .refuse
    body := fun t h => if h.get F.HRT_EMBER_STATUS_phase = 0 then (.notHeld, h) else (.ok, h.wakeEmber t 1) }
/-- EMBER_EXIT (R562). -/
def execEmberExit (m : Master) (s : State) : Out := s.cmd m 3 cmdEmberExit

/-- A Hearth restart leaves Ember mode (R541, R562): its status has returned to reset, and the exit goes on from here. -/
def Hub.leaveEmber (t cause : Nat) (h : Hub) : Hub :=
  { ((h.put F.HRT_STATE_ember 0 1).put F.HRT_EMBER_STATUS_phase 0 3).put F.HRT_EMBER_STATUS_last_exit_cause 0 cause with
    emberExitAt := t }
/-- A domain returns at an exit, unless it was isolated. -/
def Hub.repower (d : Nat) (h : Hub) : Hub := if h.isolated d then h else h.setDomain d true
/-- The registers of the jobs that were issued in Ember (R316), which the reset of the engines leaves as they are. -/
def Hub.jobWords (h : Hub) : List (Reg × Nat × Word) :=
  ((List.range 32).filter h.jobOpen).flatMap fun k =>
    [Reg.SWG_JOB, .SWG_JOB_PROG, .SWG_JOB_DESC].map fun r => (r, k, h.reg r k)
/-- The exit's actions are done (R562): what Ember switched off is on again, the Swage engines at their reset values and
the bank groups as zeros, and what waited is carried out. -/
def Hub.emberDone (t : Nat) (h : Hub) : Hub :=
  let h := (List.range 64).foldl (fun h k => if h.mappedIn (k / 8) (k % 8) then h.setDomain k true else h) h
  let h := h.jobWords.foldl (fun h w => h.setReg w.1 w.2.1 w.2.2) (h.resetRegs .e fun _ _ => true)
  let h := (List.range 8).foldl (fun h p => (h.repower (96 + p)).countJobs p) h
  let h := if h.flag F.VYN_CFG_enable then h.repower 118 else h
  let h := ((h.put F.HRT_STATE_ember 0 0).put F.HRT_EMBER_STATUS_phase 0 0).put F.HRT_EMBER_STATUS_groups_off 0 0
    |>.put F.HRT_EMBER_STATUS_last_exit_us 0 (sat 16 ((t - h.emberExitAt) / us 1))
  (h.resizePlans.fencesResume t).refreshState t
/-- EMBER_EXIT_DONE (R562). -/
def execEmberExitDone (s : State) : Out :=
  s.lift fun t h => if h.get F.HRT_EMBER_STATUS_phase = 3 then h.emberDone t else h

end Sys2Proof.Machine
end

