-- ==== Sys2Proof/Machine/Load.lean ====
section
/-! DEFINITION. The reset of a Striker core (R135, R316, R405, R461) and the recipe loader (R138 to R148), with the patch
units that a read of the flash window meets (R474, R475). -/

namespace Sys2Proof.Machine

open Sys2Proof

/-! ### The reset of a core -/

/-- Replies and requests of core `c` that are still outstanding reach nobody. -/
def Hub.forgetReplies (c : Nat) (h : Hub) : Hub :=
  let mine := fun (r : Reply) => match r with
    | .core d _ => d == c
    | _ => false
  { h with
    cmds := h.cmds.map fun e => if mine e.2.reply then (e.1, { e.2 with reply := .nobody }) else e
    quenchReqs := h.quenchReqs.map fun q => if (q.reply.map mine).getD false then { q with reply := none } else q
    reheat := h.reheat.map fun x => if (x.reply.map mine).getD false then { x with reply := none } else x }

/-- A Striker core reset (R135): the core stays in reset until a load releases it; its local memory does not survive
(R563). -/
def Hub.coreReset (t c : Nat) (h : Hub) : Hub :=
  let h := (h.modCore c fun x => { image := x.image, posted := x.posted }).forgetReplies c
  let h := (h.breakLocksOf t (.core c)).abortOwned t (.core c)
  let h := (h.cancelJobsOf t c).closeOvh (List.range 32) fun x => x.owner == some c
  let h := h.detachOwned t (.core c)
  let h := { h with mem := h.mem.filter fun e => e.1 < localBase c ∨ localBase c + localSize c ≤ e.1 }
  ((h.resetRegs .s (isCoreReg c)).cput F.STK_DBG_STATUS_core_state c 0).cput F.STK_DBG_STATUS_steps_left c 0

/-- STRIKER_CORE_RESET (R135). -/
def execStrikerCoreReset (c : Nat) (s : State) : Out := s.liftIf (coreOk c) fun t h => h.coreReset t c

/-- A core leaves reset at the PC it holds (R146, R465): with halt_on_reset set it halts before its first instruction. -/
def Hub.release_ (t c : Nat) (h : Hub) : Hub :=
  let h := h.modCore c fun x => { x with released := true, wait := .idle }
  let h := (h.cput F.STK_DBG_STATUS_core_state c 0).wdogLoad t c (h.cget F.STK_WDOG_reload_us c)
  if h.cget F.STK_DBG_CTL_halt_on_reset c = 1 then h.enterHalt t c 5 else h

/-! ### The watchdog's expiry (R132, R133) -/

/-- The watchdog of core `c` expires: the count reloads and WATCHDOG is raised, which an instruction that it does not
interrupt holds off to its completion; with an exception active the core is reset. -/
def Hub.wdogExpires (t c : Nat) (h : Hub) : Hub :=
  if h.cget F.STK_CAUSE_active c = 1 then h.coreReset t c
  else
    let h := h.wdogLoad t c (h.cget F.STK_WDOG_reload_us c)
    if (h.core c).wait = .idle ∨ (h.core c).wait.interruptible then (h.interrupt c).enterException c .watchdog 0
    else h.modCore c fun x => { x with wdogRaised := true }
/-- WATCHDOG_EXPIRY (R132, R133). -/
def execWatchdogExpiry (c : Nat) (s : State) : Out :=
  if coreOk c then s.liftAt (s.hub.core c).wdogDue fun t h => h.wdogExpires t c else .refused .illFormed

/-! ### The patched flash (R474) -/

/-- The hub with the flash as a read through the flash window sees it (R474): each enabled patch unit puts its word, or the
BREAK instruction in one half, over the stored bytes. -/
def Hub.seen (h : Hub) : Hub :=
  ((List.range 64).filter fun n => h.get F.PAT_ADDR_mode n ≠ 0).foldl (fun g n =>
    let a := flashBase + 8 * h.get F.PAT_ADDR_word n
    if h.get F.PAT_ADDR_mode n = 1 then g.setBytes a (bytesLE 8 (h.reg .PAT_DATA n).toNat)
    else g.setBytes (a + 4 * h.get F.PAT_ADDR_half n) (bytesLE 4 0xFC000001)) h
/-- `n` bytes at an address, as a read through the flash window sees them. -/
def Hub.patched (h : Hub) (a n : Nat) : List Byte := h.seen.bytes a n
/-- Some enabled unit patches a word of the range. -/
def Hub.hasPatch (h : Hub) (a n : Nat) : Bool :=
  inFlash a n && (List.range 64).any fun k =>
    h.get F.PAT_ADDR_mode k ≠ 0 && overlaps (a, n) (flashBase + 8 * h.get F.PAT_ADDR_word k, 8)

/-! ### The image (R138 to R145) -/

/-- A section table entry (R140); the reserved bits of its flags are ignored (R12). -/
structure Section where
  type : Nat
  packed : Bool
  addr : Nat
  size : Nat
  off : Nat
  stored : Nat
  deriving DecidableEq, Repr

/-- The section table of an image, which is read through the patches (R474), as is its header. -/
def Hub.sectionsAt (h : Hub) (a : Nat) : List Section :=
  let h := h.seen
  (List.range (h.rd (a + 9) 1)).map fun i =>
    let e := a + 64 + 24 * i
    { type := h.rd e 1, packed := h.rd (e + 1) 1 % 2 == 1, addr := h.rd (e + 4) 4, size := h.rd (e + 8) 4, off := h.rd (e + 12) 4
      stored := h.rd (e + 16) 4 }

/-- The kind of a core, as core_kinds numbers it. -/
def coreKind (c : Nat) : Nat := if isHearthCore c then 0 else if dieOf c < 8 then 1 else 2
/-- The local memory of a core kind. -/
def kindSize (k : Nat) : Nat := if k = 0 then 0x40000 else 0x10000

/-- A section is malformed for an image whose header ends the table at `lo` and whose signature begins at `hi`, or
leaves the local memory of a kind it names (R140 to R142). -/
def Section.bad (kinds lo hi : Nat) (s : Section) : Bool :=
  s.type == 0 || decide (4 < s.type) || (s.packed && (s.type == 3 || s.type == 4)) ||
    s.off % 8 != 0 || decide (s.stored ≠ 0 ∧ (s.off < lo ∨ hi < s.off + s.stored)) || (s.type == 3 && s.stored != 0) ||
    (s.type == 4 && (s.size % 16 != 0 || s.stored != s.size)) ||
    (s.type != 4 && (s.addr % 8 != 0 || (maskList 3 kinds).any fun k => decide (kindSize k < s.addr + s.size)))

/-- Two sections that occupy local memory overlap. -/
def sectionsClash (ss : List Section) : Bool :=
  let l := (ss.filter fun s => s.type ≠ 4).zipIdx
  l.any fun a => l.any fun b => decide (a.2 < b.2) && overlaps (a.1.addr, a.1.size) (b.1.addr, b.1.size)

/-- The results of HRT_RCP_STATUS. -/
inductive LoadResult where
  | ok | badMagic | badVersion | badArch | badKind | badSignature | untrustedKey | auth | tooLarge | decompress
  deriving DecidableEq, Repr
/-- Their numbers. -/
def LoadResult.code (r : LoadResult) : Nat := r.ctorIdx

/-- Where the memory that holds an image ends. -/
def imageEnd (a : Nat) : Nat := if inFlash a 1 then flashBase + 0x4000000 else scratchBase + 0x800000

/-- The signature block at an address covers the image at `a` up to itself (R143): sig_version and algorithm are 1 and
the signature verifies. -/
def Hub.signed (h : Hub) (a sig : Nat) : Bool :=
  h.rd (a + sig) 2 == 1 && h.rd (a + sig + 2) 2 == 1 &&
    ecdsaVerify (h.bytes (a + sig + 8) 96) (h.bytes a (sig + 104)) (h.bytes (a + sig + 104) 96)
/-- The level that the key of a signature block may grant: that of an unrevoked slot with its digest (R144). -/
def Hub.keyLevel (h : Hub) (a sig : Nat) : Option Nat :=
  let d := sha384 (h.bytes (a + sig + 8) 96)
  (List.range 8).findSome? fun k => if Config.recipeKeyDigest k = d then Config.recipeKeyLevel k else none

/-- Step 1 of a load (R146), for a target and its master's level; the signature is checked over the stored bytes (R475). A header or table
that breaks its layout otherwise gives TOO_LARGE (DESIGN CHOICE, assumption 37). -/
def Hub.checkImage (h : Hub) (a c level : Nat) : LoadResult :=
  let w := h.seen
  let kinds := w.rd (a + 7) 1 % 8
  let n := w.rd (a + 9) 1
  let sig := w.rd (a + 36) 4
  let lo := 64 + 24 * n
  if w.rd a 4 ≠ 0x43524B53 then .badMagic
  else if w.rd (a + 4) 2 ≠ 1 then .badVersion
  else if 2 < w.rd (a + 6) 1 then .badArch
  else if !bitAt kinds (coreKind c) then .badKind
  else if n = 0 ∨ 8 < n ∨ sig % 8 ≠ 0 ∨ sig < lo ∨ w.rd (a + 32) 4 ≠ sig + 200 ∨ imageEnd a < a + sig + 200 ∨
      w.rd (a + 12) 4 % 4 ≠ 0 ∨ w.rd (a + 16) 4 % 4 ≠ 0 ∨ (h.sectionsAt a).any (Section.bad kinds lo sig) ∨
      sectionsClash (h.sectionsAt a) then .tooLarge
  else if !h.signed a sig then .badSignature
  else
    match h.keyLevel a sig with
    | none => .untrustedKey
    | some k => if k < w.rd (a + 8) 1 ∨ level < w.rd (a + 8) 1 then .auth else .ok

/-- Step 3 of a load: a section's bytes, expanded where it is COMPRESSED (R141). -/
def Hub.sectionBytes (h : Hub) (a : Nat) (s : Section) : Option (List Byte) :=
  let bs := h.patched (a + s.off) s.stored
  if s.type = 3 then some []
  else if s.packed then
    match decodeAll (s.stored + 1) s.size bs with
    | .ok out => some out
    | .error _ => none
  else some (bs.take s.size)

/-- Every section of the image expands. -/
def Hub.expands (h : Hub) (a : Nat) : Bool := (h.sectionsAt a).all fun s => (h.sectionBytes a s).isSome
/-- The recipe of a checked image, with its patched bytes, up to its first section that does not expand. -/
def Hub.readPart (h : Hub) (a : Nat) : ImageX :=
  let h := h.seen
  let l := ((h.sectionsAt a).takeWhile fun s => (h.sectionBytes a s).isSome).map fun s => (s, (h.sectionBytes a s).getD [])
  { entry := h.rd (a + 12) 4, evec := h.rd (a + 16) 4, level := h.rd (a + 8) 1, wdog := h.rd (a + 20) 4
    id := h.rd (a + 24) 4, sig := h.bytes (a + h.rd (a + 36) 4) 200
    sections := (l.filter fun e => e.1.type ≠ 4).map fun e => (e.1.addr, e.2)
    slots := if !h.expands a then [] else (l.filter fun e => e.1.type = 4).flatMap fun e =>
        (List.range (e.1.size / 16)).map fun i =>
          (ofBytesLE ((e.2.drop (16 * i)).take 1), ofBytesLE ((e.2.drop (16 * i + 8)).take 8)) }
/-- The recipe of a checked image; none where a section does not expand. -/
def Hub.readImage (h : Hub) (a : Nat) : Option ImageX := if h.expands a then some (h.readPart a) else none

/-! ### Loading (R146 to R148) -/

/-- A SLOTS entry that ARM would refuse (R151). -/
def slotBad (e : Nat × Nat) : Bool := decide (63 < e.1) || descReserved e.2 || bits e.2 0 4 == 3

/-- The SLOTS entries that ARM takes one after another, up to the first that it refuses (R151). -/
def armable (armed : List (Nat × Nat)) : List (Nat × Nat) → List (Nat × Nat)
  | [] => []
  | e :: es =>
    if slotBad e || (bits e.2 0 4 == 5 && armed.any fun a => a.1 != e.1 && bits a.2 0 4 == 5) then []
    else e :: armable (e :: armed.filter (·.1 ≠ e.1)) es
/-- ARM takes every SLOTS entry of the recipe. -/
def ImageX.arms (x : ImageX) : Bool := (armable [] x.slots).length == x.slots.length

/-- Steps 2 to 4 of a load: the core is reset, its memory takes the sections, its slots are armed, as far as they go. -/
def Hub.lay (t c : Nat) (x : ImageX) (h : Hub) : Hub :=
  let h := h.coreReset t c
  let h := { h with mem := h.mem.filter fun e => e.1 < localBase c ∨ localBase c + localSize c ≤ e.1 }
  let h := x.sections.foldl (fun h s => h.setBytes (localBase c + s.1) s.2) h
  (armable [] x.slots).foldl (fun h e => h.armSlot t c e.1 e.2) h
/-- Steps 2 to 5 of a load: the core's registers take the recipe too. -/
def Hub.install (t c : Nat) (x : ImageX) (h : Hub) : Hub :=
  let h := h.lay t c x
  let h := (List.range 32).foldl (fun h r => h.setReg .STK_DBG_GPR (coreIdx c * 32 + r) 0) h
  let h := (h.cput F.STK_AUTH_level c x.level).cput F.STK_EVEC_vector c (x.evec / 4)
    |>.cput F.STK_WDOG_reload_us c (if x.wdog = 0 then 10000 else x.wdog)
    |>.cput F.STK_WDOG_enable c 1
  (h.setPc c (BitVec.ofNat 64 x.entry)).modCore c fun y => { y with image := some x }

/-- The core of the same number in the other Hearth. -/
def peerCore (c : Nat) : Nat := if dieOf c = 0 then 4 * 2048 + localOf c else localOf c

/-- A load of core `c` goes to both Hearths (R439); in a Hearth restart it goes to the restarted Hearth's own cores alone
(R541). -/
def Hub.loadsBoth (h : Hub) (c : Nat) : Bool := isHearthCore c && !(h.booting && h.boot.restart)
/-- A loaded core is released (step 6); the standby's stays in reset (R439). -/
def Hub.installed (t c : Nat) (x : ImageX) (h : Hub) : Hub :=
  if h.loadsBoth c then (((h.install t (peerCore c) x).install t c x)).release_ t c else (h.install t c x).release_ t c

/-- A load fails at step 3 or 4, on both Hearths for a Hearth core: the core stays in reset (R147). -/
def Hub.loadStops (t c : Nat) (x : ImageX) (h : Hub) : Hub :=
  (if h.loadsBoth c then h.lay t (peerCore c) x else h).lay t c x

/-- A load ends with a result (R147): one that fails after its check leaves the core in reset and posts CORE_STOPPED. -/
def Hub.loadEnds (t c : Nat) (r : LoadResult) (stopped : Bool) (h : Hub) : Hub :=
  let h := { h with load := none }.put F.HRT_RCP_STATUS_result 0 r.code |>.put F.HRT_RCP_STATUS_busy 0 0
  if stopped then h.hubEvent t 0 (c * 2 ^ 8 + (0x80 + r.code) * 2 ^ 24) else h

/-- A load of the image at `a` into core `c` is counted where it reads a patched word (R475). -/
def Hub.countPatched (a c : Nat) (h : Hub) : Hub :=
  if h.hasPatch a (h.seen.rd (a + 32) 4) then (h.bump F.PAT_STATUS_patched_loads 0 1).put F.PAT_STATUS_last_target 0 c else h

/-- Run a load of the image at `a` into core `c`: its result, and what it leaves. -/
def Hub.runLoad (t a c level : Nat) (h : Hub) : LoadResult × Hub :=
  match h.checkImage a c level with
  | .ok =>
    let x := h.readPart a
    let whole := h.expands a
    let h := h.countPatched a c
    if !whole then (.decompress, (h.loadStops t c x).loadEnds t c .decompress true)
    else if !x.arms then (.tooLarge, (h.loadStops t c x).loadEnds t c .tooLarge true)
    else (.ok, ((h.installed t c x).put F.HRT_RCP_STATUS_recipe_id 0 x.id).loadEnds t c .ok false)
  | r => (r, h.loadEnds t c r false)

/-- The refusals of a write to HRT_RCP_LOAD that come before its level (R148). -/
def loadRefusal (a c : Nat) : Option Status :=
  if !(inScratch a 1 || inFlash a 1) then some .unmapped
  else if !coreOk c then some .noUnit
  else if a % 8 ≠ 0 then some .align
  else none

/-- A write to HRT_RCP_LOAD (R146, R148). -/
def cmdRecipeLoad (m : Master) (a c : Nat) : RegCmd :=
  { pre := fun _ => loadRefusal a c
    txn := .refuse
    body := fun _ h =>
      if isHearthCore c && dieOf c != h.hearthDie then (.standby, h)
      else if h.load.isSome then (.busy, h)
      else (.ok, { h with load := some { image := a, target := c, level := h.levelOf m } }.put F.HRT_RCP_STATUS_busy 0 1
        |>.put F.HRT_RCP_STATUS_target 0 c) }

/-- RECIPE_LOAD (R146). -/
def execRecipeLoad (m : Master) (image : Nat) (target : Nat) (s : State) : Out :=
  if image < 2 ^ 48 ∧ target < 2 ^ 16 then s.cmd m 3 (cmdRecipeLoad m image target) else .refused .illFormed

/-- RECIPE_LOAD_DONE (R146, R147): the steps of the load in progress. -/
def execRecipeLoadDone (s : State) : Out :=
  s.lift fun t h =>
    match h.load with
    | some x => (h.runLoad t x.image x.target x.level).2
    | none => h

end Sys2Proof.Machine
end

