-- ==== Sys2Proof/Machine/Update.lean ====
section
/-! DEFINITION. The boot flash (R549 to R552) and the update engine (R446, R447). -/

namespace Sys2Proof.Machine

open Sys2Proof

/-! ### Image slots and selection records -/

/-- The flash address of image slot 0 A or 1 B (R549). -/
def slotBase (s : Nat) : Nat := flashBase + if s = 0 then 0x100000 else 0x2000000
/-- The size of an image slot (R549). -/
def slotSize : Nat := 31 * mib
/-- Erase a range of the flash: every byte reads 0xFF. -/
def Hub.eraseFlash (a n : Nat) (h : Hub) : Hub := { h with mem := h.mem.filter fun e => e.1 < a ∨ a + n ≤ e.1 }

/-- The slot and the sequence of selection record `i`, if it is valid (R550). -/
def Hub.selRecord (h : Hub) (i : Nat) : Option (Nat × Nat) :=
  let a := flashBase + 0x10000 * i
  if h.rd a 4 = 0x4C535852 ∧ h.rd (a + 4) 2 = 1 ∧ h.rd (a + 6) 1 < 2 ∧ h.rd (a + 12) 4 = crc32c (h.bytes a 12) then
    some (h.rd (a + 6) 1, h.rd (a + 8) 4)
  else none
/-- The record that selects: its sector, slot and sequence; the larger sequence wins (R550). -/
def Hub.selection (h : Hub) : Option (Nat × Nat × Nat) :=
  match h.selRecord 0, h.selRecord 1 with
  | some a, some b => if a.2 < b.2 then some (1, b.1, b.2) else some (0, a.1, a.2)
  | some a, none => some (0, a.1, a.2)
  | none, some b => some (1, b.1, b.2)
  | none, none => none
/-- The slot selected for the next boot (R550): A with no valid record. -/
def Hub.selectedSlot (h : Hub) : Nat := (h.selection.map fun x => x.2.1).getD 0
/-- The bytes of a selection record (R550). -/
def selBytes (slot seq : Nat) : List Byte :=
  let b := bytesLE 4 0x4C535852 ++ bytesLE 2 1 ++ bytesLE 1 slot ++ bytesLE 1 0 ++ bytesLE 4 seq
  b ++ bytesLE 4 (crc32c b)
/-- ACTIVATE (R447, R550): the sector that does not hold the selecting record is erased and takes a record with the next
sequence. With no valid record, sector 0 takes sequence 1 (DESIGN CHOICE, assumption 38). -/
def Hub.select (slot : Nat) (h : Hub) : Hub :=
  let x := (h.selection.map fun x => (1 - x.1, x.2.2 + 1)).getD (0, 1)
  let a := flashBase + 0x10000 * x.1
  ((h.eraseFlash a 0x10000).setBytes a (selBytes slot (x.2 % 2 ^ 32))).put F.HRT_UPD_STATUS_next_slot 0 slot

/-! ### A boot image (R551, R552) -/

/-- An entry of a boot image's table (R551): type, target, offset and size. -/
structure BootEntry where
  type : Nat
  target : Nat
  off : Nat
  size : Nat
  deriving DecidableEq, Repr

/-- The table of the image at `a`. -/
def Hub.bootEntries (h : Hub) (a : Nat) : List BootEntry :=
  (List.range (h.rd (a + 12) 2)).map fun i =>
    let e := a + 64 + 16 * i
    { type := h.rd e 1, target := h.rd (e + 2) 2, off := h.rd (e + 4) 4, size := h.rd (e + 8) 4 }
/-- Two ranges of a list overlap. -/
def rangesClash (l : List (Nat × Nat)) : Bool :=
  l.zipIdx.any fun a => l.zipIdx.any fun b => decide (a.2 < b.2) && overlaps a.1 b.1
/-- Two entries have one target or one seed type (R552). -/
def entriesClash (es : List BootEntry) : Bool :=
  es.zipIdx.any fun a => es.zipIdx.any fun b => decide (a.2 < b.2) && a.1.type == b.1.type &&
    (a.1.type != 1 || a.1.target == b.1.target)
/-- Check 7 of R552 fails for the table `es` of the image at `a`. -/
def Hub.badEntries (h : Hub) (a : Nat) (es : List BootEntry) : Bool :=
  es.any (fun e => e.type == 0 || decide (3 < e.type)) || entriesClash es ||
    !es.any (fun e => e.type == 1 && e.target == 0x7F0) || !es.any (fun e => e.type == 2) || !es.any (fun e => e.type == 3) ||
    es.any fun e => e.type == 1 && (!coreOk e.target || h.checkImage (a + e.off) e.target 4 != .ok)

/-- The result of the checks of R552 on a slot, in order: 0 when all pass. The header and the table are those of `w`; the
signature is checked over the stored bytes (R475). -/
def Hub.slotCheck (h w : Hub) (slot : Nat) : Nat :=
  let a := slotBase slot
  let es := w.bootEntries a
  let n := w.rd (a + 12) 2
  let sig := w.rd (a + 20) 4
  if w.rd a 4 ≠ 0x49425852 then 1
  else if w.rd (a + 4) 2 ≠ 1 ∨ w.rd (a + 6) 1 ≠ 2 then 2
  else if w.rd (a + 16) 4 ≠ sig + 200 ∨ slotSize < sig + 200 ∨ sig % 8 ≠ 0 ∨ n < 3 ∨ 64 < n ∨ sig < 64 + 16 * n ∨
      es.any (fun e => e.off % 8 != 0 || decide (e.off < 64 + 16 * n) || decide (sig < e.off + e.size)) ∨
      rangesClash (es.map fun e => (e.off, e.size)) then 3
  else if w.rd (a + 8) 4 < Config.minImageVersion then 4
  else if (h.keyLevel a sig).getD 0 < 4 then 5
  else if !h.signed a sig then 6
  else if h.badEntries a es then 7
  else 0
/-- VERIFY's result for a slot, as it is stored (R446). -/
def Hub.verifySlot (h : Hub) (slot : Nat) : Nat := h.slotCheck h slot
/-- The boot ROM's result for a slot, which it reads through the patches (R474). -/
def Hub.bootResult (h : Hub) (slot : Nat) : Nat := h.slotCheck h.seen slot
/-- A slot's result stands in HRT_BOOT_STATUS (R552). -/
def Hub.showResult (slot r : Nat) (h : Hub) : Hub :=
  h.put (if slot = 0 then F.HRT_BOOT_STATUS_slot_a_result else F.HRT_BOOT_STATUS_slot_b_result) 0 r

/-! ### The update engine (R446) -/

/-- The verified bit of a slot. -/
def verifiedFld (slot : Nat) : Fld := if slot = 0 then F.HRT_UPD_STATUS_verified_a else F.HRT_UPD_STATUS_verified_b
/-- The outcome of an operation. -/
def Hub.updEnds (st : Nat) (h : Hub) : Hub :=
  { h with upd := none }.put F.HRT_UPD_STATUS_status 0 st |>.put F.HRT_UPD_STATUS_busy 0 0

/-- A write to HRT_UPD_CMD: the refusals of the write, then those that HRT_UPD_STATUS reports (R446, R566). -/
def cmdUpdate (x : UpdX) : RegCmd :=
  { txn := .refuse
    pre := fun h =>
      let src := h.get F.HRT_UPD_SRC_addr
      if slotSize < x.offset + x.length ∨ (x.op = 1 ∧ !inScratch src x.length) then some .unmapped
      else if (x.op = 0 ∧ (x.offset % 0x10000 ≠ 0 ∨ x.length % 0x10000 ≠ 0)) ∨ (x.op = 1 ∧ src % 256 ≠ 0) then some .align
      else none
    body := fun _ h =>
      if h.upd.isSome then (.busy, h)
      else if x.op ≠ 2 ∧ h.boot.slot = some x.slot then (.ok, h.updEnds Status.busy.code)
      else if x.op = 3 ∧ !h.flag (verifiedFld x.slot) then (.ok, h.updEnds Status.notHeld.code)
      else (.ok, { h with upd := some { x with src := h.get F.HRT_UPD_SRC_addr } }.put F.HRT_UPD_STATUS_busy 0 1) }

/-- The operation in progress is carried out (R446, R447). A failed VERIFY ends with a status the spec does not state: a
free value. -/
def Hub.runUpdate (x : UpdX) (h : Hub) : Hub :=
  let a := slotBase x.slot + x.offset
  match x.op with
  | 0 => ((h.eraseFlash a x.length).put (verifiedFld x.slot) 0 0).updEnds 0
  | 1 => (((h.eraseFlash a x.length).setBytes a (h.bytes x.src x.length)).put (verifiedFld x.slot) 0 0).updEnds 0
  | 2 =>
    let r := h.verifySlot x.slot
    let h := (h.showResult x.slot r).put (verifiedFld x.slot) 0 (b2n (r == 0))
    if r = 0 then h.updEnds 0 else h.drew.updEnds h.freeWord.toNat
  | _ => (h.select x.slot).updEnds 0

/-- An operation on whole pages of a slot. -/
def State.update (s : State) (m : Master) (op slot offset length : Nat) : Out :=
  if slot < 2 ∧ offset < 2 ^ 24 ∧ length < 2 ^ 24 then
    s.cmd m 3 (cmdUpdate { op, slot, offset := offset * 256, length := length * 256 })
  else .refused .illFormed
/-- UPD_ERASE (R446). -/
def execUpdErase (m : Master) (slot offset length : Nat) (s : State) : Out := s.update m 0 slot offset length
/-- UPD_WRITE (R446). -/
def execUpdWrite (m : Master) (slot offset length : Nat) (s : State) : Out := s.update m 1 slot offset length
/-- UPD_VERIFY (R446). -/
def execUpdVerify (m : Master) (slot : Nat) (s : State) : Out := s.update m 2 slot 0 0
/-- UPD_ACTIVATE (R447). -/
def execUpdActivate (m : Master) (slot : Nat) (s : State) : Out := s.update m 3 slot 0 0
/-- UPD_OP_DONE (R446, R447). -/
def execUpdOpDone (s : State) : Out :=
  s.lift fun _ h =>
    match h.upd with
    | some x => h.runUpdate x
    | none => h

end Sys2Proof.Machine
end

