-- ==== Sys2Proof/Machine/Failover.lean ====
section
/-! DEFINITION. Hearth failover up to the handover instant, and the standby's return (R439 to R445, R448). -/

namespace Sys2Proof.Machine

open Sys2Proof

/-- The cores of the Hearth on die `d`. -/
def hearthCores (d : Nat) : List Nat := (List.range 8).map (d * 2048 + 0x7F0 + ·)
/-- The die of the standby Hearth. -/
def Hub.standbyDie (h : Hub) : Nat := 4 - h.hearthDie

/-- A takeover starts (R442): FAILOVER is entered and the old Hearth's cores are held in reset. -/
def Hub.takeover (t cause : Nat) (h : Hub) : Hub :=
  let h := { h with failover := true, failoverAt := t, fail := {} }
  let h := (h.put F.HRT_FO_STATUS_phase 0 1).put F.HRT_FO_STATUS_last_cause 0 cause
  ((hearthCores h.hearthDie).foldl (fun h c => h.coreReset t c) h).refreshState t
/-- An automatic cause (R441): with auto_en set it starts a takeover, or without a ready standby an alert. -/
def Hub.autoTakeover (t cause : Nat) (h : Hub) : Hub :=
  if h.get F.HRT_FO_CFG_auto_en = 0 ∨ h.failover then h
  else if h.flag F.HRT_STATE_standby_ready then h.takeover t cause
  else h.alert 3

/-- HEARTBEAT_LOSS (R441): `heartbeat_us` pass without a heartbeat of the active Hearth's supervisor. -/
def execHeartbeatLoss (s : State) : Out := s.lift fun t h => if h.powered then h.autoTakeover t 1 else h

/-- HRT_FO_CMD op FAILOVER (R441, R445). -/
def cmdFailover : RegCmd :=
  { txn := .refuse
    body := fun t h =>
      if !h.flag F.HRT_STATE_standby_ready then (.notHeld, h)
      else if h.booting ∨ h.failover then (.busy, h)
      else (.ok, h.takeover t 3) }
/-- FAILOVER (R445). -/
def execFailover (m : Master) (s : State) : Out := s.cmd m 3 cmdFailover

/-- HRT_FO_CMD op RESTANDBY (R445, R448): the standby is held in reset and restarts. -/
def cmdRestandby : RegCmd :=
  { txn := .refuse
    body := fun t h =>
      if h.failover then (.busy, h)
      else
        let h := (hearthCores h.standbyDie).foldl (fun h c => h.coreReset t c) h
        (.ok, { h with fail := { h.fail with restandby := true, peerDue := none } }.put F.HRT_STATE_standby_ready 0 0
          |>.put F.HRT_FO_STATUS_phase 0 3) }
/-- RESTANDBY (R445). -/
def execRestandby (m : Master) (s : State) : Out := s.cmd m 3 cmdRestandby

/-- The standby has drained the mirror queue: H is fixed and sent to every spoke (R442). -/
def Hub.drained (t : Nat) (h : Hub) : Hub :=
  if !h.failover ∨ h.get F.HRT_FO_STATUS_phase ≠ 1 then h
  else { h.put F.HRT_FO_STATUS_phase 0 2 with
    fail := { h.fail with handover := some (t + us (h.get F.HRT_FO_CFG_lead_us)) } }
/-- MIRROR_DRAIN_DONE (R442). -/
def execMirrorDrainDone (s : State) : Out := s.lift fun t h => h.drained t

/-! ### The standby's return -/

/-- Where the recipes of the Hearth's cores stand in an image slot, by the core's number. -/
def Hub.slotRecipes (h : Hub) (slot : Nat) : List (Nat × Nat) :=
  ((h.seen.bootEntries (slotBase slot)).filter fun e => e.type = 1 ∧ coreOk e.target ∧ isHearthCore e.target).map fun e =>
    (localOf e.target, slotBase slot + e.off)
/-- The recipes that the standby's cores take: those of the selected slot when it restarts by command (R448), else those
of the active Hearth's cores (R439). -/
def Hub.standbyImages (h : Hub) : List (Nat × ImageX) :=
  if h.fail.restandby then
    (h.slotRecipes h.seen.selectedSlot).filterMap fun e => (h.readImage e.2).map fun x => (e.1, x)
  else (hearthCores h.hearthDie).filterMap fun c => (h.core c).image.map fun x => (localOf c, x)

/-- The standby's three domains are on, so that it passed its self-test and none is isolated (R547, R559). -/
def Hub.standbyHealthy (h : Hub) : Bool :=
  let d := if h.standbyDie = 0 then 112 else 115
  h.domainOn d && h.domainOn (d + 1) && h.domainOn (d + 2)

/-- The restarted Hearth has passed its self-test and holds the mirror: it is the ready standby (R439, R444). -/
def Hub.synced (t : Nat) (h : Hub) : Hub :=
  if h.failover ∨ h.booting ∨ h.flag F.HRT_STATE_standby_ready ∨ !h.standbyHealthy ∨
      (h.flag F.HRT_FO_STATUS_peer_failed ∧ !h.fail.restandby) then h
  else
    let slot := if h.fail.restandby then some h.seen.selectedSlot else h.boot.slot
    let read := if h.fail.restandby then h.slotRecipes h.seen.selectedSlot else []
    let h := read.foldl (fun h e => h.countPatched e.2 (h.standbyDie * 2048 + e.1)) h
    let h := h.standbyImages.foldl (fun h e => h.install t (h.standbyDie * 2048 + e.1) e.2) h
    { h with fail := {}, boot := { h.boot with peerSlot := slot } }.put F.HRT_STATE_standby_ready 0 1
      |>.put F.HRT_FO_STATUS_phase 0 0 |>.put F.HRT_FO_STATUS_peer_failed 0 0
/-- STANDBY_SYNC_DONE (R444). -/
def execStandbySyncDone (s : State) : Out := s.lift fun t h => h.synced t

/-- The old Hearth is not ready 1 s after H: it stays held in reset (R444). -/
def Hub.peerFailed (h : Hub) : Hub :=
  (({ h with fail := { h.fail with peerDue := none } }.put F.HRT_FO_STATUS_peer_failed 0 1).put F.HRT_FO_STATUS_phase 0 0).alert 4
/-- PEER_READY_TIMEOUT (R444). -/
def execPeerReadyTimeout (s : State) : Out := s.liftAt s.hub.fail.peerDue fun _ h => h.peerFailed

end Sys2Proof.Machine
end

