-- ==== Sys2Proof/Machine/Ledger.lean ====
section
/-! DEFINITION. The energy ledger (R390 to R422): samples, attribution, accounts and tags, records, batches and the
chain. Energies are in 1/16 nJ (R401) where no other unit is named. -/

namespace Sys2Proof.Machine

open Sys2Proof

/-- Change the ledger. -/
def Hub.modLedger (f : LedgerX → LedgerX) (h : Hub) : Hub := { h with ledger := f h.ledger }
/-- A whole number from a rational that the spec rounds without saying how (DESIGN CHOICE, assumption 30). -/
def roundOpen (r : Rat) : Nat :=
  let n := r.floor.toNat
  if r ≤ n then n else n + b2n (Config.roundUp r)
/-- 1/16 nJ in a millijoule. -/
def unitsPerMj : Nat := 16000000

/-- The accounts of R396 beyond the contexts. -/
def acctIdle : Nat := 0x800
/-- HUB_OVERHEAD. -/
def acctOverhead : Nat := 0x801
/-- UNATTRIBUTED. -/
def acctUnattributed : Nat := 0x802
/-- The key of an accumulator: its account, and its tag or reason. -/
def accKey (account tag : Nat) : Nat := account * 2 ^ 64 + tag
/-- The accumulator of an account and tag. -/
def LedgerX.acc (l : LedgerX) (k : Nat) : AccX := aGet (fun _ => {}) l.accs k
/-- Change an accumulator. -/
def LedgerX.modAcc (k : Nat) (f : AccX → AccX) (l : LedgerX) : LedgerX :=
  { l with accs := aPut (fun _ => {}) k (f (l.acc k)) l.accs }
/-- The tag under which an account accumulates now (R399). -/
def Hub.tagOf (h : Hub) (account : Nat) : Nat := if account < 2048 then h.get F.LDG_CTX_TAG_tag account else 0

/-! ### Samples (R390 to R392, R398, R399) -/

/-- The anvil node of a sensor, and the number of its rail there (R390). -/
def sensorRail (n : Nat) : Nat × Nat := (nodeOf n, if n < 8 then 0 else (n - 8) % 3 + 1)
/-- Add to an entry of a list of amounts. -/
def addAt (k v : Nat) (l : List (Nat × Nat)) : List (Nat × Nat) := aPut (fun _ => 0) k (aGet (fun _ => 0) l k + v) l

/-- The regulator entry that a rail's energy is replaced from (R394). -/
def Hub.suspectOf (h : Hub) (n : Nat) : Option Nat :=
  (List.range 8).find? fun i => bitAt (h.get F.LDG_PMB_STATUS_suspect) i && h.flag F.LDG_PMB_MAP_valid i &&
    bitAt (h.get F.LDG_PMB_MAP_rails i) n
/-- The regulator state of an entry. -/
def Hub.pmb (h : Hub) (i : Nat) : PmbX := aGet (fun _ => {}) h.ledger.pmb i
/-- What replaces a sample's energy while the rail's entry is SUSPECT, in 1/16 nJ: g × R × share of the last millisecond
that was read, over its 1,000 samples (R394). DESIGN CHOICE (assumption 74). -/
def Hub.replacement (h : Hub) (n : Nat) : Option Nat :=
  (h.suspectOf n).map fun i => roundOpen ((aFind n (h.pmb i).subst).getD 0 * 16 / 1000)

/-- A rail in its interval. -/
def LedgerX.rail (l : LedgerX) (n : Nat) : IntervalX := aGet (fun _ => {}) l.rails n
/-- A sample of `e` nJ, or what replaces it, joins a rail's interval under an overhead reason (R392, R403). -/
def IntervalX.sample (reason e : Nat) (rep : Option Nat) (x : IntervalX) : IntervalX :=
  let p := aGet (fun _ => {}) x.parts reason
  let own := reason == 0 && rep.isNone
  { parts := aPut (fun _ => {}) reason
      { energy := p.energy + rep.getD (16 * e), subst := p.subst + rep.getD 0, samples := p.samples + 1 } x.parts
    clean := if own then x.clean + e else x.clean
    tainted := x.tainted || !own }

/-- A sensor's sample (R390): its energy in nJ joins the rail's total, and the interval under the overhead state at the
sample's end (R392, R403). -/
def Hub.sample (n : Nat) (s : Sample) (h : Hub) : Hub :=
  let (p, k) := sensorRail n
  let e := roundOpen ((s.volt * s.charge : Nat) / 640)
  let x := (h.ledger.rail n).sample (h.ovhReason n) e (h.replacement n)
  ((h.sbump F.LDG_RAIL_energy_nj p k e).sput F.LDG_RAIL_SMP_current p k (sat 16 s.charge)).sput F.LDG_RAIL_SMP_voltage p
      k (sat 16 s.volt)
    |>.modLedger fun l => { l with rails := aPut (fun _ => {}) n x l.rails, msEnergy := addAt n e l.msEnergy }

/-- The key of a row: its sensor, and its context or account. -/
def rowKey (n who : Nat) : Nat := n * 4096 + who
/-- The rows of node `p` that hold a context (R398). -/
def LedgerX.rowsOf (l : LedgerX) (p : Nat) : Nat :=
  (l.rows.filter fun e => nodeOf (e.1 / 4096) = p ∧ e.1 % 4096 < 2048).length

/-- The row an activity goes to (R398): its pair's, or the rail's UNATTRIBUTED row when the table is full. -/
def Hub.rowFor (n : Nat) (ctx : Option Nat) (h : Hub) : Nat × Hub :=
  match ctx with
  | none => (rowKey n acctIdle, h)
  | some c =>
    let p := nodeOf n
    if (aFind (rowKey n c) h.ledger.rows).isSome then (rowKey n c, h)
    else if h.ledger.rowsOf p < 8192 then
      (rowKey n c, h.sput F.LDG_ATTR_rows_peak p 0 (max (h.sget F.LDG_ATTR_rows_peak p) (h.ledger.rowsOf p + 1)))
    else (rowKey n acctUnattributed, h.sbump F.LDG_ATTR_overflow p 0 1)
/-- Change a row. -/
def Hub.modRow (k : Nat) (f : RowX → RowX) (h : Hub) : Hub :=
  h.modLedger fun l => { l with rows := aPut (fun _ => {}) k (f (aGet (fun _ => {}) l.rows k)) l.rows }

/-- An activity report (R397, R398): classes 40 and above are discarded, and so is activity of a die in an overhead
interval (R403). -/
def Hub.activity (h : Hub) (a : Activity) : Hub :=
  match a with
  | .count u ctx cls n =>
    if 40 ≤ cls ∨ n = 0 ∨ h.ovhReason (dieOf u) ≠ 0 then h
    else
      let (k, h) := h.rowFor (dieOf u) ctx
      h.modRow k fun r => { r with counts := addAt cls n r.counts }
  | .occupancy u ctx n =>
    if n = 0 ∨ h.ovhReason (dieOf u) ≠ 0 then h
    else
      let (k, h) := h.rowFor (dieOf u) ctx
      h.modRow k fun r => { r with occ := r.occ + n }

/-! ### Attribution (R401) -/

/-- Charge an account under its present tag. -/
def Hub.charge (account : Nat) (tag : Nat) (e merged fixed subst occ : Nat) (h : Hub) : Hub :=
  h.modLedger fun l =>
    let l := { l with total := { l.total with energy := l.total.energy + e, subst := l.total.subst + subst } }
    l.modAcc (accKey account tag) fun x => { x with
      energy := x.energy + e, merged := x.merged + merged, fixed := x.fixed + fixed, subst := x.subst + subst
      occ := x.occ + occ }

/-- The static coefficient of a sensor, in nJ for 1 ms. -/
def Hub.coefStatic (h : Hub) (n : Nat) : Rat := (h.get F.LDG_COEF_value n * 1000 : Nat) / 16
/-- The coefficient of an activity class, in nJ for a count. -/
def Hub.coefClass (h : Hub) (k : Nat) : Rat := (h.get F.LDG_COEF_value (32 + k) : Rat) / 16000
/-- The state of a class in the fit in force: 0 FIT, 1 MERGED, 2 FIXED. -/
def Hub.classState (h : Hub) (k : Nat) : Nat := h.get F.LDG_COEF_state (32 + k)
/-- What the model predicts for a row's counts of classes in some state. -/
def Hub.dynamic (h : Hub) (r : RowX) (p : Nat → Bool) : Rat :=
  ((r.counts.filter fun e => p (h.classState e.1)).map fun e => h.coefClass e.1 * e.2).foldl (· + ·) 0

/-- The rows of a rail, the IDLE row among them, with their accounts. -/
def LedgerX.railRows (l : LedgerX) (n : Nat) : List (Nat × RowX) :=
  let rows := (l.rows.filter fun e => e.1 / 4096 = n).map fun e => (e.1 % 4096, e.2)
  if rows.any fun e => e.1 = acctIdle then rows else rows ++ [(acctIdle, ({} : RowX))]

/-- The part of a rail's interval outside overhead is divided among its rows (R401). DESIGN CHOICE (assumption 73): of a
part of `m` samples, which an overhead interval, a tag change or an epoch close has cut, Δ is m µs and N_r is m times the
units; a whole interval has 1,000. -/
def Hub.attribute (n : Nat) (p : PartX) (h : Hub) : Hub :=
  let rows := h.ledger.railRows n
  let fixed := h.coefStatic n / 1000
  let used : Rat := ((rows.map fun x => x.2.occ).foldl (· + ·) 0 : Nat) / 64
  let pred := fun (x : Nat × RowX) =>
    fixed * ((x.2.occ : Rat) / 64 / unitsOnDie n) + h.dynamic x.2 (fun _ => true)
      + if x.1 = acctIdle then fixed * (p.samples - used / unitsOnDie n) else 0
  let total := (rows.map pred).foldl (· + ·) 0
  let e : Rat := p.energy
  rows.foldl (fun h x =>
    let share : Rat := if 0 < total then e * pred x / total else if x.1 = acctIdle then e else 0
    let part := fun st => if 0 < total then roundOpen (e * h.dynamic x.2 (· == st) / total) else 0
    let subst := if p.energy = 0 then 0 else roundOpen (share * p.subst / e)
    h.charge x.1 (h.tagOf x.1) (roundOpen share) (part 1) (part 2) subst x.2.occ) h

/-- What a rail's interval holds so far is charged: its overhead parts to HUB_OVERHEAD under their reasons (R403, R404),
the rest to its rows under their accounts' present tags and the coefficients in force (R392, R401). -/
def Hub.settleRail (n : Nat) (h : Hub) : Hub :=
  let x := h.ledger.rail n
  if x.parts.isEmpty && !(h.ledger.rows.any fun e => e.1 / 4096 = n) then h
  else
    let h := (x.parts.filter fun e => e.1 ≠ 0).foldl (fun h e =>
      h.charge acctOverhead e.1 e.2.energy 0 0 e.2.subst 0) h
    (h.attribute n (aGet (fun _ => {}) x.parts 0)).modLedger fun l => { l with
      rails := aPut (fun _ => {}) n { x with parts := [] } l.rails
      rows := l.rows.map fun e => if e.1 / 4096 = n then
        (e.1, { past := e.2.counts.foldl (fun l c => addAt c.1 c.2 l) e.2.past }) else e }
/-- Every open interval is charged as far as it has come: at an epoch close and before a tag change (R392). -/
def Hub.settleRails (h : Hub) : Hub := (List.range 32).foldl (fun h n => h.settleRail n) h

/-- A rail's interval joins the calibration window (R406): the feature vector has 1 ms at its static index and the class
counts. -/
def SumsX.add (n e : Nat) (counts : List (Nat × Nat)) (s : SumsX) : SumsX :=
  let x := (n, 1) :: counts.map fun c => (32 + c.1, c.2)
  { g := (x.flatMap fun a => x.map fun b => (72 * a.1 + b.1, a.2 * b.2)).foldl (fun g a => addAt a.1 a.2 g) s.g
    h := x.foldl (fun l a => addAt a.1 (a.2 * e) l) s.h }

/-- One rail at the end of an interval: a clean one joins the window (R406). -/
def Hub.railInterval (n : Nat) (h : Hub) : Hub :=
  let h := h.settleRail n
  let x := h.ledger.rail n
  let rows := (h.ledger.rows.filter fun e => e.1 / 4096 = n).map fun e => (e.1 % 4096, e.2)
  if x.tainted || rows.any fun e => e.1 = acctUnattributed then h
  else
    let counts := rows.foldl (fun l e => e.2.past.foldl (fun l c => addAt c.1 c.2 l) l) []
    h.modLedger fun l => { l with sums := l.sums.add n x.clean counts }

/-- The end of a 1 ms interval of node `p` (R398, R401). -/
def Hub.intervalEnd (t p : Nat) (h : Hub) : Hub :=
  let ns := p :: (List.range 3).map fun k => 8 + 3 * p + k
  let h := ns.foldl (fun h n => h.railInterval n) h
  h.modLedger fun l => { l with
    intervalAt := aPut (fun _ => 0) p t l.intervalAt
    rails := aKeep (fun n => nodeOf n ≠ p) l.rails
    rows := aKeep (fun k => nodeOf (k / 4096) ≠ p) l.rows }

/-! ### Boundaries (R390, R399, R401) -/

/-- A context's tag changes at a boundary (R399): the old accumulator closes, the new one starts. -/
def Hub.changeTag (t c tag : Nat) (h : Hub) : Hub :=
  let old := accKey c (h.tagOf c)
  let x := h.ledger.acc old
  let h := h.modLedger fun l =>
    let l := { l with
      accs := aKeep (· ≠ old) l.accs
      tagDue := aKeep (· ≠ c) l.tagDue
      closed := l.closed ++ [({ account := c, tag := h.tagOf c, acc := x, at_ := t } : ClosedX)] }
    l.modAcc (accKey c tag) fun y : AccX => { y with since := some t }
  h.setReg .LDG_CTX_TAG c (BitVec.ofNat 64 tag)

/-- The tag changes that are due at a sample boundary take effect: what the accounts have earned up to it is charged
first (R392, R399). -/
def Hub.changeTags (t : Nat) (h : Hub) : Hub :=
  match h.ledger.tagDue.filter fun e => e.2.2 ≤ t with
  | [] => h
  | due => due.foldl (fun h e => h.changeTag t e.1 e.2.1) h.settleRails

/-- A sample boundary. -/
def Hub.sampleBoundary (t : Nat) (ss : List Sample) (rs : List Activity) (h : Hub) : Hub :=
  let h := h.modLedger fun l => { l with sampleAt := t }
  let h := ss.zipIdx.foldl (fun h e => h.sample e.2 e.1) (h.changeTags t)
  rs.foldl Hub.activity (h.rampsSampled t)

/-- A report comes from a unit that exists, with a context that exists. -/
def activityOk : Activity → Bool
  | .count u ctx cls n => unitOk u && ((ctx.map ctxOk).getD true) && decide (cls < 64) && decide (n < 65536)
  | .occupancy u ctx n => unitOk u && ((ctx.map ctxOk).getD true) && decide (n < 65536)

/-- When the next sample boundary falls (R390): at a Chip Time multiple of 4,000 ticks. -/
def Hub.sampleDue (h : Hub) : Nat := (h.ledger.sampleAt / us 1 + 1) * us 1

/-- SAMPLE_BOUNDARY (R390): one sample for each sensor, in order. -/
def execSampleBoundary (samples : List Sample) (reports : List Activity) (s : State) : Out :=
  if samples.length = 32 ∧ reports.all activityOk = true then
    s.liftAt (some s.hub.sampleDue) fun t h => h.sampleBoundary t samples reports
  else .refused .illFormed

/-- INTERVAL_END (R401). -/
def execIntervalEnd (node : Nat) (s : State) : Out :=
  if node < 8 then
    s.liftAt (some (aGet (fun _ => 0) s.hub.ledger.intervalAt node + ms 1)) fun t h => h.intervalEnd t node
  else .refused .illFormed

/-- ATTR_PEAK_READ (LDG_ATTR): a read returns rows_peak and resets it to the present row count. -/
def execAttrPeakRead (m : Master) (node : Nat) (s : State) : Out :=
  if node < 8 then
    s.readCmd m 1 (fun _ => none) (offSpoke node) (fun h => h.reg .LDG_ATTR (spokeInst .LDG_ATTR node 0)) fun h =>
      h.sput F.LDG_ATTR_rows_peak node 0 (h.ledger.rowsOf node)
  else .refused .illFormed

/-! ### Records and batches (R410 to R418) -/

/-- The byte address of slot position `p` (R410). -/
def Hub.slotAddr (h : Hub) (p : Nat) : Nat := h.ledgerShare (p % 524288 / 65536) + p % 65536 * 128
/-- Slots written since the chain's start. -/
def Hub.wpos (h : Hub) : Nat := h.get F.LDG_RING_wpos
/-- PENDING batches. -/
def LedgerX.pendingBatches (l : LedgerX) : List BatchX := l.batches.filter fun b => !b.signed
/-- The slot after a batch's entry. -/
def BatchX.stop (b : BatchX) : Nat := b.entry + 2

/-- Room for `n` more slots (R417): in ring mode WRAP the oldest whole batches that are signed give way. -/
def Hub.makeRoom (n : Nat) : Nat → Hub → Option Hub
  | 0, _ => none
  | fuel + 1, h =>
    if h.wpos + n ≤ h.get F.LDG_ACK_apos + 524288 then some h
    else if h.get F.LDG_CFG_ring_mode = 0 then none
    else
      match h.ledger.batches.find? fun b => h.get F.LDG_ACK_apos < b.stop with
      | some b =>
        if b.signed then
          ((h.put F.LDG_ACK_apos 0 b.stop).bump F.LDG_STATUS_overwritten 0 b.count).makeRoom n fuel
        else none
      | none => none

/-- Batches that the host has taken whole, and that are signed, need not be kept. -/
def Hub.forgetBatches (h : Hub) : Hub :=
  let apos := h.get F.LDG_ACK_apos
  h.modLedger fun l => { l with batches := l.batches.filter fun b => !b.signed || decide (apos < b.stop) }

/-- Store an entry at the write position, which moves on. -/
def Hub.appendEntry (bs : List Byte) (slots : Nat) (h : Hub) : Hub :=
  (h.setBytes (h.slotAddr h.wpos) bs).put F.LDG_RING_wpos 0 (h.wpos + slots)

/-- While writing pauses, each accumulator's next record is to carry the flag SPANS (R417): those of the closed tags and
of the package total among them. -/
def LedgerX.spanAll (l : LedgerX) : LedgerX :=
  { l with
    accs := l.accs.map fun e => (e.1, { e.2 with spans := true })
    closed := l.closed.map fun c => { c with acc := { c.acc with spans := true } }
    total := { l.total with spans := true } }

/-- Record writing is paused (R417): the signing queue is full, a batch waits for its entry, or the ring has no room. -/
def Hub.ledgerPaused (h : Hub) : Bool :=
  decide (64 ≤ h.ledger.pendingBatches.length) || h.ledger.sealWait || (h.makeRoom 1 4).isNone

/-- LDG_STATUS.signq and paused (R417) follow, and a pause is noted at every accumulator. -/
def Hub.showLedger (h : Hub) : Hub :=
  let h := if h.ledgerPaused then h.modLedger LedgerX.spanAll else h
  (h.put F.LDG_STATUS_signq 0 (sat 7 h.ledger.pendingBatches.length)).putB F.LDG_STATUS_paused 0 h.ledgerPaused

/-- The Hearth that writes the ledger is not running: between a takeover and its handover instant (R420), and from a
Hearth restart until its RESUME record (R421). DEDUCED (assumption 76). -/
def Hub.ledgerRests (h : Hub) : Bool := h.failover || h.ledger.rests

/-- A batch's entry is reserved as PENDING behind the last record (R415), behind a PAD where it would start in the last
slot of a share (R410). Without room there is none. -/
def Hub.reserveEntry (b : BatchX) (h : Hub) : Option Hub :=
  let pad := h.wpos % 65536 = 65535
  (h.makeRoom (if pad then 3 else 2) 4).map fun h =>
    let h := if pad then h.appendEntry (List.replicate 128 0) 1 else h
    let b := { b with entry := h.wpos }
    (h.appendEntry (0xFF :: List.replicate 255 0) 2).modLedger fun l => { l with batches := l.batches ++ [b] }

/-- The open batch closes (R415). Without room for its entry, or without a running Hearth, it waits. -/
def Hub.closeBatch (t : Nat) (h : Hub) : Hub :=
  let l := h.ledger
  if l.openCount = 0 then h
  else
    let b : BatchX := { start := l.openAt, entry := 0, count := l.openCount, firstSeq := l.openSeq
                        lastHash := l.prevHash, epoch := l.lastEpoch, lastSeq := h.get F.LDG_SEQ_next_seq - 1, time := t }
    match if h.ledgerRests then none else h.reserveEntry b with
    | none => h.modLedger fun l => { l with sealWait := true }
    | some h => (h.modLedger fun l => { l with openCount := 0, sealWait := false }).showLedger

/-- The epoch a record names: that in which its interval ends (R411). -/
def Hub.epochOf (h : Hub) (r : RecordX) : Nat := r.epoch.getD (h.get F.LDG_STATUS_epoch)

/-- The 128 bytes of a record (R411). -/
def Hub.recordBytes (h : Hub) (r : RecordX) : List Byte :=
  let prev := if r.kind = 4 then List.replicate 48 0 else h.ledger.prevHash
  bytesLE 1 1 ++ bytesLE 1 1 ++ bytesLE 1 r.kind ++ bytesLE 1 r.flags ++ bytesLE 4 (h.epochOf r)
    ++ bytesLE 8 (h.get F.LDG_SEQ_next_seq) ++ bytesLE 8 r.start ++ bytesLE 8 r.stop ++ bytesLE 2 r.account
    ++ bytesLE 2 0 ++ bytesLE 4 (r.version.getD (h.get F.LDG_CAL_STATUS_version)) ++ bytesLE 8 r.tag
    ++ bytesLE 8 r.energy ++ bytesLE 4 r.unc ++ bytesLE 4 (sat 32 r.occ) ++ (prev ++ List.replicate 48 0).take 48
    ++ bytesLE 8 r.a ++ bytesLE 8 r.b

/-- A record is written (R415, R417): none while the signing queue is full, the ring has no room, a batch waits for
its entry, or the Hearth is not running. -/
def Hub.putRecord (t : Nat) (r : RecordX) (h : Hub) : Option Hub :=
  let h := if h.ledger.sealWait then h.closeBatch t else h
  if h.ledgerRests ∨ h.ledger.sealWait ∨ 64 ≤ h.ledger.pendingBatches.length then none
  else
    (h.makeRoom 1 4).map fun h =>
      let bs := h.recordBytes r
      let at_ := h.wpos
      let seq := h.get F.LDG_SEQ_next_seq
      let h := (h.appendEntry bs 1).incr F.LDG_SEQ_next_seq 0
      let h := h.modLedger fun l => { l with
        prevHash := sha384 bs, lastEnd := r.stop, lastEpoch := h.epochOf r
        openAt := if l.openCount = 0 then at_ else l.openAt, openSeq := if l.openCount = 0 then seq else l.openSeq
        openCount := l.openCount + 1 }
      if h.ledger.openCount = 256 then h.closeBatch t else h

/-- The ring slots of the records that no signed batch covers, in order. -/
def LedgerX.unsigned (l : LedgerX) : List Nat :=
  (l.pendingBatches.flatMap fun b => (List.range b.count).map (b.start + ·)) ++ (List.range l.openCount).map (l.openAt + ·)
/-- Records in ring slots as a batch of their own. -/
def Hub.batchOf (h : Hub) (t : Nat) (slots : List Nat) : BatchX :=
  let first := h.slotAddr (slots.headD 0)
  let last := h.slotAddr (slots.getLastD 0)
  { start := slots.headD 0, entry := 0, count := slots.length, firstSeq := h.rd (first + 8) 8
    lastHash := sha384 (h.bytes last 128), epoch := h.rd (last + 4) 4, lastSeq := h.rd (last + 8) 8, time := t }
/-- The unsigned records are re-batched behind a RESUME record just written (R421): their PENDING entries become PAD
slots, and entries for batches of at most 256 of them, the RESUME record the last, are reserved behind it. DESIGN CHOICE
(assumption 77). -/
def Hub.rebatch (t : Nat) (h : Hub) : Hub :=
  let l := h.ledger
  let groups := (pieces 256 (l.unsigned.length / 256 + 1) l.unsigned).map (h.batchOf t)
  let h := l.pendingBatches.foldl (fun h b => h.setBytes (h.slotAddr b.entry) (List.replicate 256 0)) h
  let h := h.modLedger fun l => { l with batches := l.batches.filter BatchX.signed, openCount := 0, sealWait := false }
  (groups.foldl (fun h b => (h.reserveEntry b).getD h) h).showLedger

/-- The ring has room for a record, and for a RESUME record with the entries of what it re-batches. -/
def Hub.roomFor (r : RecordX) (h : Hub) : Option Hub :=
  if r.kind = 5 then h.makeRoom (3 * (h.ledger.unsigned.length / 256 + 2)) 300 else some h
/-- The records that are owed, a RESUME record or CAL records (R409, R421), go before any other record. -/
def Hub.putOwed (t : Nat) (h : Hub) : Option Hub :=
  h.ledger.owed.foldl (fun (o : Option Hub) r => o.bind fun h =>
    ((h.roomFor r).bind (Hub.putRecord t r)).map fun h =>
      let h := h.modLedger fun l => { l with owed := l.owed.drop 1 }
      if r.kind = 5 then h.rebatch t else h) (some h)
/-- Write a record, after those that are owed. -/
def Hub.tryRecord (t : Nat) (r : RecordX) (h : Hub) : Option Hub := (h.putOwed t).bind (Hub.putRecord t r)

/-- A record's uncertainty in mJ (R414), from its energy in mJ and the parts in 1/16 nJ. -/
def uncertainty (e merged fixed subst : Nat) (short : Bool) : Nat :=
  let mj := fun (n : Nat) => (n : Rat) / unitsPerMj
  ((15 * e + 200 * mj merged + 500 * mj fixed + 30 * mj subst + (if short then 50 * e else 0) : Rat) / 1000).ceil.toNat + 2

/-- What stays in an accumulator after its record: the residue below 1 mJ, and its share of the parts of R414. -/
def AccX.left (x : AccX) : AccX :=
  let r := x.energy % unitsPerMj
  let share := fun (n : Nat) => if n = 0 then 0 else (n * r + x.energy - 1) / x.energy
  { energy := r, merged := share x.merged, fixed := share x.fixed, subst := share x.subst }
/-- An accumulator after its record. -/
def AccX.after (x : AccX) (stop : Nat) : AccX := { x.left with since := some stop }

/-- The ACCOUNT record of an accumulator whose interval ends at `stop` (R411, R412). -/
def accRecord (l : LedgerX) (account tag : Nat) (x : AccX) (stop : Nat) (closed : Bool) : RecordX :=
  let mj := if closed then (x.energy + unitsPerMj / 2) / unitsPerMj else x.energy / unitsPerMj
  let rest := if closed then {} else x.left
  let start := x.since.getD l.chainStart
  { kind := 1, start, stop, account, tag, energy := mj, occ := x.occ / 64000
    epoch := if closed then some ((stop - l.chainStart - 1) / secs 1) else none
    flags := b2n (x.merged != 0 || x.fixed != 0) + 2 * b2n (x.subst != 0) + 4 * b2n closed + 8 * b2n x.spans
      + 16 * b2n x.limit
    unc := uncertainty mj (x.merged - rest.merged) (x.fixed - rest.fixed) (x.subst - rest.subst)
      (decide (stop - start < secs 1)) }

/-- The energy recorded for an account (LDG_ACCT_a). -/
def Hub.recorded (account mj : Nat) (h : Hub) : Hub := h.bump F.LDG_ACCT_total_mj account mj

/-- One accumulator at an epoch close (R412): it is recorded where it holds 1 mJ, or its next record spans the pause
(R417). -/
def Hub.closeAcc (t : Nat) (r : Nat × Hub) (k : Nat) : Nat × Hub :=
  let (n, h) := r
  let x := h.ledger.acc k
  if x.energy < unitsPerMj then r
  else
    let rec_ := accRecord h.ledger (k / 2 ^ 64) (k % 2 ^ 64) x t false
    match h.tryRecord t rec_ with
    | some h => (n + 1, (h.modLedger fun l => l.modAcc k fun x => x.after t).recorded (k / 2 ^ 64) rec_.energy)
    | none => (n, h.modLedger fun l => l.modAcc k fun x => { x with spans := true })

/-- The accumulators that tag changes closed are recorded (R412), as far as there is room. -/
def Hub.closeTags (t : Nat) (r : Nat × Hub) : Nat × Hub :=
  let (n, h) := r
  h.ledger.closed.foldl (fun r c =>
    let rec_ := accRecord r.2.ledger c.account c.tag c.acc c.at_ true
    match r.2.tryRecord t rec_ with
    | some h => (r.1 + 1, h.recorded c.account rec_.energy)
    | none => (r.1, r.2.modLedger fun l => { l with closed := l.closed ++ [{ c with acc := { c.acc with spans := true } }] }))
    (n, h.modLedger fun l => { l with closed := [] })

/-- The TOTAL record of an epoch (R411, R412). Its residue below 1 mJ carries on. DESIGN CHOICE (assumption 31). -/
def Hub.closeTotal (t n : Nat) (h : Hub) : Hub :=
  let x := h.ledger.total
  let mj := x.energy / unitsPerMj
  let start := x.since.getD h.ledger.chainStart
  let openAccs := (h.ledger.accs.filter fun e => e.2.energy ≠ 0).length
  match h.tryRecord t
    { kind := 2, start, stop := t, energy := mj, flags := 2 * b2n (x.subst != 0) + 8 * b2n x.spans
      unc := uncertainty mj 0 0 (x.subst - x.left.subst) (decide (t - start < secs 1)), a := n, b := openAccs } with
  | some h => h.modLedger fun l => { l with total := x.after t }
  | none => h.modLedger fun l => { l with total := { x with spans := true } }

/-- The next coefficient version comes into force (R402, R408, R409, R455): a loaded set goes before a fit. -/
def Hub.nextVersion (t : Nat) (h : Hub) : Hub :=
  match h.ledger.loaded.orElse fun _ => h.ledger.solved with
  | none => h
  | some f =>
    let h := (List.range 72).foldl (fun h j =>
      let st := f.states.getD j (0, 0)
      h.put F.LDG_COEF_value j (natAt f.values j) |>.put F.LDG_COEF_state j st.1 |>.put F.LDG_COEF_partner j st.2) h
    let n := fun k => (f.states.filter fun s => s.1 = k).length
    let h := h.incr F.LDG_CAL_STATUS_version 0 |>.putB F.LDG_CAL_STATUS_degenerate 0 (f.mask != 0)
      |>.put F.LDG_CAL_STATUS_merged 0 (n 1) |>.put F.LDG_CAL_STATUS_fixed 0 (n 2)
      |>.put F.LDG_CAL_DEGENERATE_classes 0 f.mask |>.put F.LDG_COEF_LOAD_pending 0 0
    let v := h.get F.LDG_CAL_STATUS_version
    h.modLedger fun l => { l with
      loaded := none, solved := none
      owed := l.owed ++ [{ kind := 3, start := t, stop := t, a := f.mask, b := f.first + f.last * 2 ^ 32, version := some v }] }

/-- An epoch closes (R412, R413, R415): the open intervals are charged up to it (R392), and a tag change due at this very
boundary closes its accumulator first, which then has one record (R400); its records, the batch, the next coefficient
version, and every 600 epochs a checkpoint (R422). -/
def Hub.epochClose (t : Nat) (h : Hub) : Hub :=
  let h := if t % us 1 = 0 then h.settleRails.changeTags t else h.settleRails
  let r := ((aKeys h.ledger.accs).foldl (Hub.closeAcc t) (0, h)) |> Hub.closeTags t
  let h := ((r.2.closeTotal t r.1).closeBatch t).incr F.LDG_STATUS_epoch 0
  let h := h.modLedger fun l => { l with windowEpochs := l.windowEpochs + 1 }
  let h := h.nextVersion t
  let h := (h.putOwed t).getD h
  let h := if h.get F.LDG_STATUS_epoch % 600 = 0 then h.checkpoint else h
  h.showLedger

/-- When the epoch closes (R413). -/
def Hub.epochDue (h : Hub) : Option Nat :=
  if h.ledger.started then some (h.ledger.chainStart + (h.get F.LDG_STATUS_epoch + 1) * secs 1) else none

/-- EPOCH_CLOSE (R412). -/
def execEpochClose (s : State) : Out := s.liftAt s.hub.epochDue fun t h => h.epochClose t

/-- Bytes 0–103 of a BATCH entry, which its signature covers (R416). -/
def Hub.batchBody (h : Hub) (b : BatchX) : List Byte :=
  let fit := fun (n : Nat) (bs : List Byte) => (bs ++ List.replicate n 0).take n
  bytesLE 1 2 ++ bytesLE 1 1 ++ bytesLE 2 b.count ++ bytesLE 4 b.epoch ++ bytesLE 8 (h.get F.LDG_CHAIN_chain_id)
    ++ bytesLE 8 b.firstSeq ++ fit 16 Config.chipIdentity ++ fit 48 b.lastHash ++ bytesLE 8 b.time
    ++ bytesLE 1 Config.ledgerKeyVersion ++ bytesLE 7 0

/-- The signing engine signs the oldest PENDING batch (R416, R417). -/
def Hub.batchSigned (h : Hub) : Hub :=
  match h.ledger.pendingBatches with
  | [] => h
  | b :: _ =>
    let body := h.batchBody b
    let sig := ecdsaSign (scalarOf Config.ledgerKey) (scalarOf (Config.ledgerNonce body)) body
    let h := h.setBytes (h.slotAddr b.entry) (body ++ sig ++ List.replicate 56 0)
    (h.modLedger fun l => { l with
      batches := l.batches.map fun x => if x = b then { x with signed := true } else x
      lastSigned := b.lastSeq, lastHash := b.lastHash }).forgetBatches.showLedger

/-- BATCH_SIGNED (R417). -/
def execBatchSigned (s : State) : Out :=
  s.lift fun t h =>
    if h.ledgerRests then h
    else
      let h := h.batchSigned
      (h.putOwed t).getD h

/-- A write to LDG_ACK (R418). -/
def cmdLedgerAck (apos : Word) : RegCmd :=
  { pre := fun h =>
      let n := apos.toNat
      if n < h.get F.LDG_ACK_apos ∨ h.wpos < n ∨ h.ledger.pendingBatches.any (fun b => b.entry < n ∧ n < b.stop) then
        some .reserved
      else none
    body := fun _ h => (.ok, ((h.put F.LDG_ACK_apos 0 apos.toNat).forgetBatches).showLedger) }
/-- LDG_ACK_WRITE (R418). -/
def execLdgAckWrite (m : Master) (apos : Word) (s : State) : Out :=
  s.cmd m 1 (cmdLedgerAck apos |>.at s.hub .LDG_ACK 0 apos)

/-! ### Tags (R399, R400) -/

/-- A write to LDG_TAG_CMD: it is refused for a reserved field (R400), and any other outcome goes to LDG_TAG_RESULT. -/
def cmdTag (m : Master) (ctx delay : Nat) : RegCmd :=
  { pre := fun _ => if 2048 ≤ ctx ∨ 2 ^ 32 ≤ delay then some .reserved else none
    txn := .refuse
    body := fun t h =>
      let result := fun (st : Status) (h : Hub) => (Status.ok, h.put F.LDG_TAG_RESULT_status m.idx st.code)
      if (aFind ctx h.ledger.tagDue).isSome ∨ 4096 ≤ h.ledger.closed.length then result .busy h
      else
        let tag := h.get F.LDG_TAG_VAL_tag m.idx
        result .ok (h.modLedger fun l => { l with
          tagDue := aPut (fun _ => (2 ^ 64, 0)) ctx (tag, t + delay) l.tagDue }) }
/-- LDG_TAG_CMD (R399, R400): its context and its delay, each with the reserved bits above it. -/
def execLdgTagCmd (m : Master) (ctx delay : Nat) (s : State) : Out :=
  if ctx < 2 ^ 16 ∧ delay < 2 ^ 48 then s.cmd m 3 (cmdTag m ctx delay) else .refused .illFormed

/-! ### The start and the resumption of a chain (R419, R421) -/

/-- A chain begins (R419): its identifier is drawn, the accounts and the rails' energies start from nothing, and the START record names the
previous chain's checkpoint. -/
def Hub.startChain (t : Nat) (h : Hub) : Hub :=
  let id := h.freeWord.toNat
  let c := h.ledger.ckpt
  let h := h.drew.put F.LDG_CHAIN_chain_id 0 id |>.put F.LDG_SEQ_next_seq 0 0 |>.put F.LDG_STATUS_epoch 0 0
  let h := h.modLedger fun l => { l with
    started := true, chainStart := t, accs := [], total := {}, closed := [], windowFirst := 0, windowEpochs := 0, sums := {}
    rails := [], rows := [] }
  let h := (List.range 32).foldl (fun h n => h.sput F.LDG_RAIL_energy_nj (sensorRail n).1 (sensorRail n).2 0) h
  ((h.tryRecord t { kind := 4, start := t, stop := t, a := c.chain, b := c.seq }).getD h).showLedger

/-- The chain resumes behind a RESUME record after a Hearth restart (R421), and the window's sums are lost (R409). -/
def Hub.resumeChain (t : Nat) (h : Hub) : Hub :=
  let h := h.modLedger fun l => { l with
    rests := false, sums := {}, windowEpochs := 0, windowFirst := h.get F.LDG_STATUS_epoch, solving := none
    owed := { kind := 5, start := t, stop := t, a := l.lastEnd } :: l.owed }
  ((h.putOwed t).getD h).showLedger

/-! ### Regulators (R393 to R395, R513) -/

/-- The sensor energy of an entry's rails since the last check (R393). -/
def Hub.entrySum (h : Hub) (i : Nat) : Nat :=
  ((maskList 32 (h.get F.LDG_PMB_MAP_rails i)).map (aGet (fun _ => 0) h.ledger.msEnergy)).foldl (· + ·) 0
/-- Change an entry's regulator state. -/
def Hub.modPmb (i : Nat) (f : PmbX → PmbX) (h : Hub) : Hub :=
  h.modLedger fun l => { l with pmb := aPut (fun _ => {}) i (f (aGet (fun _ => {}) l.pmb i)) l.pmb }
/-- Set or clear an entry's SUSPECT bit; LDG_STATUS.subst follows, and a SUSPECT entry raises its alert (R394, R516). -/
def Hub.setSuspect (i : Nat) (b : Bool) (h : Hub) : Hub :=
  let m := setBits (h.get F.LDG_PMB_STATUS_suspect) i 1 (b2n b)
  let h := (h.put F.LDG_PMB_STATUS_suspect 0 m).putB F.LDG_STATUS_subst 0 (m != 0)
  if b then h.alert 6 else h

/-- Each rail's mean share of its entry over the last 1,000 checks that agreed (R394). -/
def PmbX.share (x : PmbX) (n : Nat) : Rat :=
  let l := x.shares.filterMap fun s => aFind n s
  if l.isEmpty then 0 else l.foldl (· + ·) 0 / l.length

/-- A number of the PMBus linear format: a mantissa and a five-bit exponent, both in two's complement. PRESUMED
(assumption 75). -/
def linear (mantissa : Int) (e : Nat) : Rat := if e < 16 then mantissa * (2 ^ e : Nat) else mantissa / (2 ^ (32 - e) : Nat)
/-- The output voltage that READ_VOUT gives under VOUT_MODE, in volts (R513). -/
def voltsOf (mode w : Nat) : Rat :=
  if mode < 32 then linear w mode else (Config.voutOther mode w : Rat) / 1000000
/-- The output current that READ_IOUT gives in linear format, in amperes (R513). -/
def ampsOf (w : Nat) : Rat :=
  linear (if w % 2048 < 1024 then (w % 2048 : Nat) else (w % 2048 : Nat) - 2048) (w / 2048)
/-- An entry's check with a regulator energy of `r` nJ (R393, R394). -/
def Hub.pmbCheck (i : Nat) (r : Rat) (h : Hub) : Hub :=
  let s := h.entrySum i
  let gain : Rat := (h.get F.LDG_PMB_GAIN_gain i : Rat) / 2 ^ 24
  let want := gain * r
  let tol : Rat := (h.get F.LDG_CFG_pmb_tol : Rat) / 1000
  let agrees := decide (s - want ≤ tol * want) && decide (want - s ≤ tol * want)
  let rails := maskList 32 (h.get F.LDG_PMB_MAP_rails i)
  let h :=
    if agrees then
      let h := if r = 0 then h
        else h.put F.LDG_PMB_GAIN_gain i (sat 32 (roundOpen ((gain + ((s : Rat) / r - gain) / 1024) * 2 ^ 24)))
      let share := rails.map fun n => (n, if s = 0 then 0 else ((aGet (fun _ => 0) h.ledger.msEnergy n : Nat) : Rat) / s)
      let h := h.modPmb i fun x => { x with bad := 0, good := x.good + 1, shares := (share :: x.shares).take 1000 }
      if bitAt (h.get F.LDG_PMB_STATUS_suspect) i && decide (64 ≤ (h.pmb i).good) then h.setSuspect i false else h
    else
      let h := (h.bump F.LDG_PMB_STATUS_disagreements 0 1).modPmb i fun x => { x with bad := x.bad + 1, good := 0 }
      if 8 ≤ (h.pmb i).bad then h.setSuspect i true else h
  h.modPmb i fun x => { x with subst := rails.map fun n => (n, want * x.share n) }

/-- An entry's reading (R393): the difference of its energy accumulator over the millisecond, or voltage times current
times 1 ms. Without the accumulator of the millisecond before there is no difference, and no check is made. DESIGN CHOICE
(assumption 74). -/
def Hub.pmbRead (i : Nat) (x : PmbReading) (h : Hub) : Hub :=
  match x with
  | .failed => (h.bump F.LDG_PMB_STATUS_read_fail 0 1).modPmb i fun x => { x with lastEout := none }
  | .values eout mode vout iout =>
    if h.flag F.LDG_PMB_MAP_eout i then
      let last := (h.pmb i).lastEout
      let h := h.modPmb i fun x => { x with lastEout := some eout }
      match last with
      | some n => h.pmbCheck i ((eout : Rat) - n)
      | none => h
    else h.pmbCheck i (voltsOf mode vout * ampsOf iout * 1000000)

/-- The millisecond's readings (R393, R395): every valid entry's output is read at its address and page; an entry whose
transaction was abandoned has been counted. -/
def Hub.pmbusCheck (t : Nat) (rs : List PmbReading) (h : Hub) : Hub :=
  let h := rs.zipIdx.foldl (fun h e =>
    if !h.flag F.LDG_PMB_MAP_valid e.2 then h
    else
      let h := h.say (.pmbusRead (h.get F.LDG_PMB_MAP_address e.2) (h.get F.LDG_PMB_MAP_page e.2)
        (h.flag F.LDG_PMB_MAP_eout e.2))
      if (h.pmb e.2).abandoned then h.modPmb e.2 fun x => { x with abandoned := false, lastEout := none }
      else h.pmbRead e.2 e.1) h
  h.modLedger fun l => { l with msEnergy := [], checkAt := t }

/-- PMBUS_CHECK (R393). -/
def execPmbusCheck (readings : List PmbReading) (s : State) : Out :=
  if readings.length = 8 ∧ readings.all PmbReading.ok = true then
    s.liftAt (some (s.hub.ledger.checkAt + ms 1)) fun t h => h.pmbusCheck t readings
  else .refused .illFormed

/-- PMBUS_STRETCH_TIMEOUT (R513, R395). -/
def execPmbusStretchTimeout (entry : Nat) (s : State) : Out :=
  s.liftIf (decide (entry < 8)) fun _ h =>
    if h.flag F.LDG_PMB_MAP_valid entry && !(h.pmb entry).abandoned then
      (h.bump F.LDG_PMB_STATUS_read_fail 0 1).modPmb entry fun x => { x with abandoned := true }
    else h

/-- PMB_ALERT (R513): the host reads the Alert Response Address. -/
def execPmbAlert (s : State) : Out := s.lift fun _ h => h.say .alertAddress

/-! ### Commanded overhead and LGR (R403, R405) -/

/-- When the first commanded interval of a die reaches 60 s. -/
def Hub.ovhDue (h : Hub) (d : Nat) : Option Nat :=
  (((h.ovhOf d).filter fun x => x.owner.isSome).map OvhX.due).foldl (fun a b =>
    match a with
    | none => some b
    | some n => some (min n b)) none

/-- A commanded interval of a die reaches 60 s and closes (R405). -/
def Hub.ovhLimit (t d : Nat) (h : Hub) : Hub :=
  let late := (h.ovhOf d).filter fun x => x.owner.isSome && decide (x.due ≤ t)
  let h := late.foldl (fun h x => h.modLedger fun l =>
    l.modAcc (accKey acctOverhead x.reason) fun y => { y with limit := true }) h
  h.closeOvh [d] fun x => late.contains x

/-- OVERHEAD_LIMIT (R405). -/
def execOverheadLimit (die : Nat) (s : State) : Out :=
  if die < 32 then s.liftAt (s.hub.ovhDue die) fun t h => h.ovhLimit t die else .refused .illFormed

end Sys2Proof.Machine
end

