-- ==== Sys2Proof/Machine/Recal.lean ====
section
/-! DEFINITION. Live recalibration of the spokes' trims (R453). -/

namespace Sys2Proof.Machine

open Sys2Proof

/-- A write to TIM_RECAL (R453). -/
def cmdRecal (spokes : List Nat) : RegCmd :=
  { txn := .refuse
    body := fun _ h =>
      if !h.recal.isEmpty then (.busy, h)
      else if !h.flag F.TIM_STATUS_pll_locked then (.notHeld, h)
      else (.ok, { h with recal := spokes }.put F.TIM_RECAL_busy 0 1) }
/-- TIM_RECAL (R453). -/
def execTimRecal (m : Master) (spoke : Nat) (all : Bool) (s : State) : Out :=
  if spoke < 32 then s.cmd m 3 (cmdRecal (if all then List.range 32 else [spoke])) else .refused .illFormed

/-- A measurement ends: the spoke's `measured`, and its trim moved there by slew (R453, R53). -/
def Hub.recalMeasured (t spoke : Nat) (half : Int) (h : Hub) : Hub :=
  match h.recal with
  | n :: rest =>
    if n ≠ spoke then h
    else
      let h := (h.put F.TIM_TRIM_measured n (unsignedOf 12 half)).trimWrite t n (BitVec.ofInt 12 half)
      { h with recal := rest }.putB F.TIM_RECAL_busy 0 (!rest.isEmpty)
  | [] => h
/-- RECAL_MEASURE_DONE (R453). -/
def execRecalMeasureDone (spoke : Nat) (half : Int) (s : State) : Out :=
  s.liftIf (decide (spoke < 32)) fun t h => h.recalMeasured t spoke half

end Sys2Proof.Machine
end

