-- ==== Sys2Proof/Machine/Boot.lean ====
section
/-! DEFINITION. Resets and start-up (R540 to R554) and the chip reset sequence (R555 to R557). -/

namespace Sys2Proof.Machine

open Sys2Proof

/-! ### Cold reset and power-on (R19, R540, R544) -/

/-- What a cold reset leaves: the flash with its checkpoint, and the host's memory, which is not the hub's. -/
def Hub.cold (h : Hub) : Hub :=
  { mem := h.mem.filter fun e => inFlash e.1 1 ∨ hostBase ≤ e.1
    fresh := h.fresh
    ledger := { ckpt := h.ledger.ckpt, ckptTurn := h.ledger.ckptTurn } }
/-- COLD_RESET (R540): Chip Time returns to zero (R47). -/
def execColdReset (s : State) : Out := .next { s with clk := {}, hub := s.hub.cold }
/-- POR_RELEASE (R544). -/
def execPorRelease (s : State) : Out := s.lift fun _ h => { h with powered := true }

/-! ### The stages (R545) -/

/-- Stage `n` is under way: those it waits for have finished, and it has not. -/
def Hub.stageRuns (h : Hub) (n : Nat) : Bool :=
  let need := if n = 1 then [] else if n ≤ 5 then [1] else [1, 2, 3, 4, 5]
  h.booting && !h.boot.failed && h.get F.HRT_BOOT_STATUS_stage != 0 && !h.boot.done.contains n &&
    need.all h.boot.done.contains
/-- HRT_BOOT_STATUS.stage shows the lowest-numbered stage not yet finished. -/
def Hub.showStage (h : Hub) : Hub :=
  h.put F.HRT_BOOT_STATUS_stage 0 (((List.range 7).map (· + 1)).find? (fun n => !h.boot.done.contains n) |>.getD 8)
/-- Stage `n` finishes. -/
def Hub.stageEnds (n : Nat) (h : Hub) : Hub := Hub.showStage { h with boot := { h.boot with done := n :: h.boot.done } }
/-- A stage's event: it acts while its stage is under way. -/
def State.stage (s : State) (n : Nat) (f : Nat → Hub → Hub) : Out := s.lift fun t h => if h.stageRuns n then f t h else h
/-- Start-up cannot go on: the hub stays in BOOT with BOOT_FAIL (R45, R547, R553). -/
def Hub.bootFails (h : Hub) : Hub := { h with boot := { h.boot with failed := true, slot := none } }.alert 1

/-- Power domain `d` is isolated (R559). -/
def Hub.isolate (d : Nat) (h : Hub) : Hub :=
  { h.setDomain d false with cut := if h.isolated d then h.cut else d :: h.cut }.put F.HRT_PWR_FAULT_fault (d / 64)
    (setBits (h.get F.HRT_PWR_FAULT_fault (d / 64)) (d % 64) 1 1)
/-- The first of the three power domains of the Hearth on die `d` (R558). -/
def hearthDomain (d : Nat) : Nat := if d = 0 then 112 else 115
/-- A Hearth fails its self-test (R547). -/
def Hub.hearthFails (d : Nat) (h : Hub) : Hub :=
  (((h.isolate (hearthDomain d)).isolate (hearthDomain d + 1)).isolate (hearthDomain d + 2)).alert 3
/-- The self-tests end (R547); in a Hearth restart the restarted Hearth's alone (R541). -/
def Hub.selfTested (okA okB : Bool) (h : Hub) : Hub :=
  if h.boot.restart then
    if (if h.hearthDie = 0 then okA else okB) then h.stageEnds 1 else (h.hearthFails h.hearthDie).bootFails
  else
    let h := if okA then h else h.hearthFails 0
    let h := if okB then h else h.hearthFails 4
    if !okA && !okB then h.bootFails
    else ((h.putB F.HRT_STATE_active_hearth 0 (!okA)).putB F.HRT_BOOT_STATUS_boot_hearth 0 (!okA)).stageEnds 1
/-- SELF_TEST_DONE (R547). -/
def execSelfTestDone (okA okB : Bool) (s : State) : Out := s.stage 1 fun _ h => h.selfTested okA okB

/-- SPINE_STAGE_DONE (R545, R548): the anvil aggregators, Tongs, link bankers and Swage engines are on, and the ledger's
sensors integrate from here. -/
def execSpineStageDone (swageBad : Byte) (s : State) : Out :=
  s.stage 2 fun t h =>
    ((h.powerUp 64 48).put F.HRT_BOOT_STATUS_swage_bad 0 swageBad.toNat).modLedger (fun l => { l with sampleAt := t })
      |>.stageEnds 2

/-- The bank groups are tested (R545): those that fail are mapped out, the reserved shares stand in each node's highest
good group (R240), and the default trace segments are placed (R241). -/
def Hub.groupsTested (bad : Word) (h : Hub) : Hub :=
  let h := h.put F.CRU_GROUPS_mapped_in 0 (~~~bad).toNat
  let h := (List.range 64).foldl (fun h g => h.setDomain g (h.mappedIn (g / 8) (g % 8))) h
  let h := (List.range 8).foldl (fun h p => h.sput F.CRU_NODE_reserved_group p 0 (((h.groupsOf p).getLast?).getD 0)) h
  match h.placements h.segSize with
  | some bases => h.placeSegments bases
  | none => h
/-- CRUCIBLE_STAGE_DONE (R545). -/
def execCrucibleStageDone (badGroups : Word) (s : State) : Out := s.stage 3 fun _ h => (h.groupsTested badGroups).stageEnds 3

/-- The spokes' round trips, in ticks, are measured (R51): each trim is half of its spoke's, to the nearest tick, a half
rounded up, which is the lag of its replica, so that the replica agrees with Chip Time (R52). -/
def Hub.trimsMeasured (t : Nat) (trips : List Nat) (h : Hub) : Hub :=
  let h := (trips.zipIdx).foldl (fun h e =>
    let half := (e.1 + 1) / 2
    ((h.holdReplica t e.2).put F.TIM_TRIM_measured e.2 half).put F.TIM_TRIM_trim e.2 half
      |>.modSpoke e.2 fun x => { x with lag := half, trimLeft := 0, trimTotal := 0 }) h
  h.put F.TIM_STATUS_trims_calibrated 0 1
/-- TRIMS_STAGE_DONE (R51): the round trip to each spoke. -/
def execTrimsStageDone (trips : List Nat) (s : State) : Out :=
  s.liftIf (trips.length == 32 && trips.all fun n => decide (n < 4095)) fun t h =>
    if h.stageRuns 4 then (h.trimsMeasured t trips).stageEnds 4 else h

/-- The result of a slot in HRT_BOOT_STATUS. -/
def Hub.slotResult (h : Hub) (slot : Nat) : Nat :=
  h.get (if slot = 0 then F.HRT_BOOT_STATUS_slot_a_result else F.HRT_BOOT_STATUS_slot_b_result)
/-- A slot is verified, and its result shown (R552). -/
def Hub.tryslot (slot : Nat) (h : Hub) : Bool × Hub := (h.bootResult slot == 0, h.showResult slot (h.bootResult slot))
/-- A slot boots (R553). -/
def Hub.bootSlot (slot : Nat) (fallback : Bool) (h : Hub) : Hub :=
  { h with boot := { h.boot with slot := some slot, peerSlot := if h.boot.restart then h.boot.peerSlot else some slot } }
    |>.putB F.HRT_BOOT_STATUS_fallback 0 fallback
    |>.put F.HRT_BOOT_STATUS_image_version 0 (h.seen.rd (slotBase slot + 8) 4)
    |>.put F.HRT_UPD_STATUS_booted_slot 0 slot
    |>.put F.HRT_UPD_STATUS_next_slot 0 h.seen.selectedSlot
/-- The flash is read and an image verified (R514, R552, R553): the selected slot, or in a Hearth restart the slot it
booted from (R541), and if that fails the other. -/
def Hub.flashRead (sfdpOk : Bool) (h : Hub) : Hub :=
  let sel := h.seen.selectedSlot
  let first := if h.boot.restart then h.boot.slot.getD sel else sel
  if !sfdpOk then h.bootFails
  else
    let a := h.tryslot first
    if a.1 then (a.2.bootSlot first (first != sel)).stageEnds 5
    else
      let b := a.2.tryslot (1 - first)
      if b.1 then (b.2.bootSlot (1 - first) true).stageEnds 5 else b.2.bootFails
/-- FLASH_STAGE_DONE (R553). -/
def execFlashStageDone (sfdpOk : Bool) (s : State) : Out := s.stage 5 fun _ h => h.flashRead sfdpOk

/-- The seeds of a booted image (R554): the rails' leak and clk, and coefficient version 0. -/
def Hub.loadSeeds (slot : Nat) (h : Hub) : Hub :=
  let a := slotBase slot
  let w := h.seen
  (w.bootEntries a).foldl (fun h e =>
    if e.type = 2 then
      (List.range 32).foldl (fun h i =>
        let at_ := a + e.off + 8 * i
        (h.sput F.BLW_RAIL_leak_est (i / 4) (i % 4) (w.rd at_ 2)).sput F.BLW_RAIL_clk_est (i / 4) (i % 4) (w.rd (at_ + 2) 2)) h
    else if e.type = 3 then
      let vs := (List.range 72).map fun j => w.rd (a + e.off + 8 + 4 * j) 4
      let h := (vs.zipIdx).foldl (fun h v => h.put F.LDG_COEF_value v.2 v.1) h
      h.modLedger fun l => { l with seedCoefs := vs }
    else h) h
/-- The recipes of a booted image are loaded, each at level 4 (R554), and in a Hearth restart the Hearth's alone (R541):
whether Hearth core 0 was. -/
def Hub.loadRecipes (t slot : Nat) (h : Hub) : Bool × Hub :=
  let a := slotBase slot
  ((h.seen.bootEntries a).filter fun e => e.type = 1 ∧ (!h.boot.restart || isHearthCore e.target)).foldl (fun r e =>
    let c := r.2.reach e.target
    let x := r.2.runLoad t (a + e.off) c 4
    (r.1 && !(localOf c == 0x7F0 && x.1 != .ok), x.2)) (true, h)

/-! ### The chip reset sequence (R555 to R557) -/

/-- A unit is held in reset with its die (R174). -/
def Hub.chipResetUnit (t u : Nat) (h : Hub) : Hub :=
  let h := h.abandonStep t u .resetting
  let h := if h.runState u = .resetting then h else h.changeState t u .resetting (causeOf 0x14 0)
  ((h.resolveAll t u .resetting).modUnit u fun _ => {}).clearUnit u
/-- The sequence starts in its COLD (0) or WARM (1) form: every D3 reset is asserted, the quench branches fall, ballast and
dividers are at rest, the seeds go, and the base dies are released to train (R555). -/
def Hub.startSequence (t form : Nat) (h : Hub) : Hub :=
  let ds := List.range 32
  let h := h.put F.HRT_BOOT_STATUS_form 0 form
  let h := ds.foldl (fun h d => (unitsOf d).foldl (fun h u => h.chipResetUnit t u) h) h
  let h := h.put F.HRT_QCH_STATUS_dies_quenched 0 0 |>.put F.HRT_STATE_quench_held 0 0
  let h := ds.foldl (fun h d => (h.setBlw F.BLW_RAIL_code d 0).setBlw F.BLW_RAIL_notch d 0) h
  let h := { h with
    seeds := [], chipReset := some t
    seq := some { began := t, unretires := form == 1 && h.retired, mem := (List.range 32).map fun g => (g, 0), links := (List.range 48).map fun l => (l, 0)
                  release := some (t + ms 1) } }
  ((List.range 48).foldl (fun h l => h.setLink t l 1) h).say (.chipReset true) |>.refreshState t
/-- Every sync object is STALE (R351, R555). -/
def Hub.staleAll (h : Hub) : Hub := h.wfg.objs.foldl (fun h e => h.modObj e.1 fun x => { x with stale := true }) h
/-- The RESUME form (R557): no D3 part is reset. -/
def Hub.startResume (t : Nat) (h : Hub) : Hub :=
  let h := { h with chipReset := some t, seq := some { began := t, last := true } }.put F.HRT_BOOT_STATUS_form 0 2
  h.staleAll.resumeChain t

/-- The socket of a unit is read (R535): its version, whether the descriptor is valid, and the fault. -/
def Hub.readSocket (u fault : Nat) (h : Hub) : Hub :=
  h.uput F.SPK_SOCK_STATUS_valid u (b2n (fault == 0)) |>.uput F.SPK_SOCK_STATUS_fault u fault
    |>.uput F.SPK_SOCK_STATUS_version u (if fault = 1 then h.freeWord.toNat else 1)
    |> if fault = 1 then Hub.drew else id
/-- Steps 3 to 5 (R555): each unit runs, or is UNRESPONSIVE for an invalid descriptor or a late reset; the first sequence
after a cold reset begins the ledger's chain (R419). -/
def Hub.releaseDies (t : Nat) (faults : List (Nat × Nat)) (late : List Nat) (h : Hub) : Hub :=
  let h := (h.say (.chipReset false)).put F.RCV_STATUS_steps 0 0
  let h : Hub := ((List.range 32).flatMap unitsOf).foldl (fun h u =>
    let fault := (aFind u faults).getD 0
    let h := h.readSocket u fault
    let bad := fault != 0 || late.contains u
    (h.changeState t u (if bad then .unresponsive else .running) (causeOf (if bad then 0x16 else 0x15) 0)).unitResetEnds u
      (if bad then .timeout else .ok)) h
  let h := { h with
    ctxs := h.ctxs.map fun (e : Nat × CtxX) => (e.1, { e.2 with inflight := [], faulted := false, held := false })
    wheelNotes := [], lanes := [] }
  let h := h.wfg.objs.foldl (fun h e => h.changeObj t e.1 fun x => { x with waiters := [], stale := true, resetOf := none }) h
  let h := (List.range 8).foldl (fun h p => (h.showWheel p).sput F.ANV_RCV_STATUS_step p 0 0) h
  let h := (List.range 2048).foldl (fun h c => if h.reg .RCV_MARK c = 0 then h else h.put F.RCV_MARK_state c 0) h
  let h := { h with seq := h.seq.map fun x => { x with release := none, last := true } }
  if h.ledger.started then h else h.startChain t
/-- COMPUTE_DIE_RELEASE (R555): `faults` gives the units whose descriptor is invalid, with the fault's code; `late` those
whose reset did not complete. -/
def execComputeDieRelease (faults : List (Nat × Nat)) (late : List Nat) (s : State) : Out :=
  if (faults.all fun e => unitOk e.1 && decide (e.2 < 7)) && late.all unitOk then
    s.liftAt (s.hub.seq.bind SeqX.release) fun t h => h.releaseDies t faults late
  else .refused .illFormed

/-- Stage LOAD (R554): a failed load of Hearth core 0 fails the image, and the other slot is tried (R553); else the chip
reset sequence starts. -/
def Hub.loadStage (t : Nat) (h : Hub) : Hub :=
  match h.boot.slot with
  | none => h
  | some slot =>
    let r := h.loadRecipes t slot
    if r.1 then
      let h := (if h.boot.restart then r.2 else r.2.loadSeeds slot).stageEnds 6
      if h.chipReset.isSome then h else if h.boot.restart then h.startResume t else h.startSequence t 0
    else
      let h := r.2.showResult slot 7
      let other := 1 - slot
      let b := if h.slotResult other = 8 then h.tryslot other else (h.slotResult other == 0, h)
      if b.1 then b.2.bootSlot other true else b.2.bootFails
/-- LOAD_STAGE_DONE (R554). -/
def execLoadStageDone (s : State) : Out := s.stage 6 fun t h => h.loadStage t

/-- A channel group's training ends in the sequence: its record becomes a seed, a first failure is retried, a second
escalates (R555, R556). -/
def Hub.seqMemory (t g : Nat) (ok : Bool) (record : List Byte) (x : SeqX) (n : Nat) (h : Hub) : Hub :=
  let next := fun v => { h with seq := some { x with mem := setTries g v x.mem } }
  if ok then { next none with seeds := aPut (fun _ => []) g (codeSeed record) h.seeds }
  else if n = 0 then next (some 1)
  else (next (some 2)).sequenceFails t 4
/-- MEMORY_TRAIN_DONE (R373, R374, R555): in the chip reset sequence, or in a recovery. -/
def execMemoryTrainDone (group : Nat) (ok : Bool) (record : List Byte) (s : State) : Out :=
  s.liftIf (decide (group < 32)) fun t h =>
    match h.seq.bind fun x => (aFind group x.mem).map fun n => (x, n) with
    | some e => h.seqMemory t group ok record e.1 e.2
    | none => h.memoryTrained t group ok record
/-- LINK_TRAIN_DONE (R373, R384, R555): in the chip reset sequence, in a recovery or for LINK_RETRAIN. -/
def execLinkTrainDone (link : Nat) (ok : Bool) (s : State) : Out :=
  s.liftIf (decide (link < 48)) fun t h =>
    match h.seq.bind fun x => (aFind link x.links).map fun n => (x, n) with
    | some e =>
      let r := h.linkAttempt t link e.2 ok
      { r.2 with seq := some { e.1 with links := setTries link r.1 e.1.links } }
    | none => h.linkTrain t link ok

/-- The sequence completes (R543, R555): BOOT is left, RETIRED if a chip warm reset started it (R42), the WARM_RESET interval closes, and training of a link
that is still under way goes on. -/
def Hub.sequenceDone (t : Nat) (x : SeqX) (h : Hub) : Hub :=
  let h := { h with
    seq := none, chipReset := none, retired := h.retired && !x.unretires
    retrains := x.links.foldl (fun r (e : Nat × Nat) => aPut (fun _ => 3) e.1 e.2 r) h.retrains }
  let h := (h.put F.HRT_BOOT_TIME_done 0 t).closeOvh (List.range 32) fun y =>
    y.reason = ovhWarmReset ∨ (y.reason = ovhRetired ∧ !h.retired)
  let h := if h.boot.done.contains 6 then
      Hub.stageEnds 7 { h with booting := false, boot := { h.boot with restart := false } }
    else h
  h.refreshState t
/-- CHIP_RESET_COMPLETE (R555). -/
def execChipResetComplete (s : State) : Out :=
  s.lift fun t h =>
    match h.seq with
    | some x => if x.mem.isEmpty && x.last then h.sequenceDone t x else h
    | none => h
/-- CHIP_RESET_TIMEOUT (R556): 20 s after its start the sequence is not complete. -/
def execChipResetTimeout (s : State) : Out :=
  s.liftAt (s.hub.chipReset.map (· + secs 20)) fun t h => h.sequenceFails t 2

/-! ### Chip warm reset (R542, R543) -/

/-- Steps 1 to 4 of R542. -/
def Hub.warmReport (t : Nat) (h : Hub) : Hub :=
  let h := (h.openOvh (List.range 32) { reason := ovhWarmReset }).checkpoint
  let h := (h.captures.filter fun (e : Nat × CaptureX) => e.2.state < 4).foldl (fun (h : Hub) e => h.cancelCapture e.1) h
  let h := { h.abortAll t with lanes := [], emberActs := [], laneMoves := [], resetStarts := [], warmReq := none }
  let h := (List.range 8).foldl (fun h p => h.setStep p 0) h
  let h := h.abandonReheat t
  let h := { h.endQuench t (maskList 32 h.quenchedDies) with ramps := [] }
  let h := { h.quenchReqs.foldl (fun h q => h.answerQuench t q.reply .busy 0) h with quenchReqs := [] }
  (List.range 48).foldl (fun h l => (h.linkDown t l).modLink l fun _ => {}) h
/-- A chip warm reset is reported (R542, R543): the hub's fields without W return to reset (R540), and the WARM form
starts, at its first step when it runs already. -/
def Hub.warmReset (t : Nat) (h : Hub) : Hub :=
  let st := h.get F.HRT_STATE_state
  let h := h.warmReport t
  let h := h.resetRegs .w fun _ _ => true
  let h := { h with txns := [], retrains := [], spokes := h.spokes.map fun (e : Nat × SpokeX) => (e.1, { e.2 with ppq := [] }) }
  let h := (h.bump F.HRT_RESET_CAUSE_warm_count 0 1).put F.HRT_RESET_CAUSE_last_kind 0 1
  (h.startSequence t 1).put F.HRT_STATE_state 0 st
/-- WARM_RESET_REPORT (R542): the D3 has been brought up, so that there is something to reset. -/
def execWarmResetReport (s : State) : Out :=
  s.lift fun t h => if h.chipReset.isSome ∨ h.boot.done.contains 7 ∨ h.boot.restart then h.warmReset t else h

/-! ### Hearth restart (R541) -/

/-- Hearth scratch and the local memories of a Hearth's cores lose their contents (R563). -/
def Hub.loseHearth (d : Nat) (h : Hub) : Hub :=
  let gone := fun a => inScratch a 1 || (hearthCores d).any fun c => decide (localBase c ≤ a) && decide (a < localBase c + localSize c)
  { h with mem := h.mem.filter fun e => !gone e.1 }
/-- The Hearth's fields without H, and what it keeps beside its registers, return to reset (R540, R563). -/
def Hub.hearthLost (t : Nat) (h : Hub) : Hub :=
  let h := (hearthCores h.hearthDie).foldl (fun h c => (h.coreReset t c).modCore c fun _ => {}) h
  let h := h.sess.foldl (fun (h : Hub) e => h.endSession t e.1) (h.abortAll t)
  let h := (h.loseHearth h.hearthDie).resetRegs .h inHearth
  { h with
    locks := [], txns := [], masters := [], seeds := [], spdm := [], load := none, upd := none, recal := []
    cmds := h.cmds.map fun e => match e.2.reply with
      | .reg _ => (e.1, { e.2 with reply := .nobody })
      | _ => e }
/-- The active Hearth restarts (R541): as a failover where the standby is ready, else into BOOT, where XTRIG_OUT is low (R515),
from stage SELF_TEST with its own cores only. `cause` is 1 COMMANDED or 2 ISOLATION. -/
def Hub.hearthRestart (t cause : Nat) (h : Hub) : Hub :=
  let h := h.put F.HRT_RESET_CAUSE_restart_cause 0 cause
  if h.flag F.HRT_STATE_standby_ready then h.takeover t 4
  else
    let h := if h.flag F.HRT_STATE_ember then (h.hearthLost t).leaveEmber t 3 else h.hearthLost t
    let h := (h.bump F.HRT_RESET_CAUSE_hearth_restarts 0 1).put F.HRT_RESET_CAUSE_last_kind 0 2
    let h := { h with
      booting := true, xtrigUntil := 0, ledger := { h.ledger with rests := h.ledger.started }
      boot := { h.boot with restart := true, done := h.boot.done.filter fun n => n = 2 ∨ n = 3 ∨ n = 4 } }
    h.showStage.refreshState t
/-- HRT_RESET_CMD op HEARTH_RESTART. -/
def cmdHearthRestart : RegCmd :=
  { txn := .refuse
    body := fun t h => if h.booting ∨ h.failover then (.busy, h) else (.ok, h.hearthRestart t 1) }
/-- HEARTH_RESTART (R541). -/
def execHearthRestart (m : Master) (s : State) : Out := s.cmd m 4 cmdHearthRestart

/-- HRT_RESET_CMD op REBOOT (R553): start-up restarts at stage FLASH. -/
def cmdReboot : RegCmd :=
  { txn := .refuse
    body := fun _ h =>
      if !h.boot.failed ∨ !h.boot.done.contains 1 then (.notHeld, h)
      else (.ok, Hub.showStage { h with boot := { h.boot with failed := false, done := h.boot.done.filter (· ≠ 5) } }) }
/-- REBOOT (R553). -/
def execReboot (m : Master) (s : State) : Out := s.cmd m 3 cmdReboot

end Sys2Proof.Machine
end

