-- ==== Sys2Proof/Machine/Calibrate.lean ====
section
/-! DEFINITION. Calibration of the ledger (R406 to R409, R455) and LGR (R405). -/

namespace Sys2Proof.Machine

open Sys2Proof

/-! ### The fit (R406), exact over the rationals -/

/-- A square matrix by rows. -/
abbrev Mat := List (List Rat)
/-- Element `i` of a vector. -/
def vAt (v : List Rat) (i : Nat) : Rat := v.getD i 0
/-- Element `i, j` of a matrix. -/
def mAt (m : Mat) (i j : Nat) : Rat := vAt (m.getD i []) j
/-- A vector plus `k` times another. -/
def vAdd (v : List Rat) (k : Rat) (w : List Rat) : List Rat := List.zipWith (fun a b => a + k * b) v w
/-- Column `i` gains `k` times column `j`. -/
def addCol (m : Mat) (i j : Nat) (k : Rat) : Mat := m.map fun r => setAt r i (vAt r i + k * vAt r j)
/-- Row `i` gains `k` times row `j`. -/
def addRow (m : Mat) (i j : Nat) (k : Rat) : Mat := setAt m i (vAdd (m.getD i []) k (m.getD j []))

/-- Eliminate pivot `j` from every later row: what is left at `i, i` is column `i` without its projection on the columns
eliminated. -/
def eliminate (m : Mat) (j : Nat) : Mat :=
  m.zipIdx.map fun e => if e.2 ≤ j ∨ mAt m j j = 0 then e.1 else vAdd e.1 (-(vAt e.1 j / mAt m j j)) (m.getD j [])

/-- The solution of `m c = b` on the indices `ks`, by elimination in their order and back substitution. The system is
positive definite, so this is what its Cholesky factorisation gives (R406). -/
def solveOn (m : Mat) (b : List Rat) (ks : List Nat) : List (Nat × Rat) :=
  let a := List.zipWith (fun r x => r ++ [x]) m b
  let a := ks.foldl (fun a j =>
    a.zipIdx.map fun e =>
      if ks.contains e.2 && decide (j < e.2) && mAt a j j ≠ 0 then
        vAdd e.1 (-(vAt e.1 j / mAt a j j)) (a.getD j [])
      else e.1) a
  ks.reverse.foldl (fun c j =>
    let r := a.getD j []
    let known := c.foldl (fun s e => s + vAt r e.1 * e.2) 0
    (j, (vAt r m.length - known) / vAt r j) :: c) []

/-- The order's outcome (R406): the indices kept, those fixed, and those merged with partner and ratio, beside the
matrix with the kept pivots eliminated. -/
structure Sorting where
  keep : List Nat := []
  fixed : List Nat := []
  merged : List (Nat × (Nat × Rat)) := []
  left : Mat

/-- The partner of an index among those kept: the largest |g_ij| / √(g_ii g_jj), the lowest on a tie (R406). -/
def partnerOf (g : Mat) (keep : List Nat) (j : Nat) : Nat :=
  (keep.foldl (fun (b : Option (Nat × Rat)) i =>
    let v := mAt g i j * mAt g i j / mAt g i i
    match b with
    | some (_, w) => if w < v then some (i, v) else b
    | none => some (i, v)) none).elim 0 Prod.fst

/-- One index of the order (R406). -/
def sortIndex (g : Mat) (prev : List Rat) (tau : Rat) (s : Sorting) (j : Nat) : Sorting :=
  if mAt g j j = 0 then { s with fixed := s.fixed ++ [j] }
  else if mAt s.left j j < tau * mAt g j j then
    let i := partnerOf g s.keep j
    { s with merged := s.merged ++ [(j, (i, if vAt prev i = 0 then 1 else vAt prev j / vAt prev i))] }
  else { s with keep := s.keep ++ [j], left := eliminate s.left j }

/-- The regularised fit of a window (R406). The fold of a merged term reaches its entry of `h` as well (DEDUCED,
assumption 32). -/
def fit (g : Mat) (e prev : List Rat) (tau lambda : Rat) : List Rat × Sorting :=
  let s := (List.range 72).foldl (sortIndex g prev tau) { left := g }
  let (g', e') := s.merged.foldl (fun (x : Mat × List Rat) m =>
    let (j, i, rho) := m
    (addRow (addCol x.1 i j rho) i j rho, setAt x.2 i (vAt x.2 i + rho * vAt x.2 j))) (g, e)
  let e' := s.fixed.foldl (fun e j => e.zipIdx.map fun x => x.1 - mAt g' x.2 j * vAt prev j) e'
  let a := g'.zipIdx.map fun r => setAt r.1 r.2 (vAt r.1 r.2 * (1 + lambda))
  let b := e'.zipIdx.map fun x => x.1 + lambda * mAt g' x.2 x.2 * vAt prev x.2
  let c := solveOn a b s.keep
  let val := fun (i : Nat) => (aFind i c).getD 0
  ((List.range 72).map fun j =>
    max 0 (if s.keep.contains j then val j
      else match aFind j s.merged with
        | some (i, rho) => rho * val i
        | none => vAt prev j), s)

/-- The coefficients in force, in nJ for a millisecond or a count. -/
def Hub.coefs (h : Hub) : List Rat := (List.range 72).map fun j => if j < 32 then h.coefStatic j else h.coefClass (j - 32)

/-- The coefficient set that a window's sums give (R406, R407). -/
def Hub.solve (h : Hub) (x : SumsX) (first last : Nat) : FitX :=
  let g : Mat := (List.range 72).map fun i => (List.range 72).map fun j => ((aGet (fun _ => 0) x.g (72 * i + j) : Nat) : Rat)
  let e : List Rat := (List.range 72).map fun i => ((aGet (fun _ => 0) x.h i : Nat) : Rat)
  let r := fit g e h.coefs (1 / (2 ^ h.get F.LDG_CFG_tau_log2 : Nat)) (1 / (2 ^ h.get F.LDG_CFG_lambda_log2 : Nat))
  let state := fun j => match aFind j r.2.merged with
    | some (i, _) => (1, i)
    | none => if r.2.fixed.contains j then (2, 0) else (0, 0)
  { values := r.1.zipIdx.map fun c => sat 32 (roundOpen (if c.2 < 32 then c.1 * 16 / 1000 else c.1 * 16000))
    states := (List.range 72).map state
    mask := maskOf ((List.range 40).filter fun k => (state (32 + k)).1 ≠ 0)
    first, last }

/-- The window of LDG_CFG.cal_window_ep epochs has ended (R406). -/
def Hub.windowOver (h : Hub) : Bool := decide (h.get F.LDG_CFG_cal_window_ep ≤ h.ledger.windowEpochs) && h.ledger.started

/-- A window ends: its sums go to the solve, while cal_en is 1, and the next window starts. -/
def Hub.calWindowEnd (h : Hub) : Hub :=
  if !h.windowOver then h
  else
    let ep := h.get F.LDG_STATUS_epoch
    h.modLedger fun l => { l with
      solving := if h.flag F.LDG_CFG_cal_en then some (l.sums, l.windowFirst, ep - 1) else l.solving
      sums := {}, windowEpochs := 0, windowFirst := ep }

/-- CAL_WINDOW_END (R406). -/
def execCalWindowEnd (s : State) : Out := s.lift fun _ h => h.calWindowEnd

/-- CAL_SOLVE_DONE (R409): the fit waits for the next epoch boundary, where a loaded set goes before it (R455). -/
def execCalSolveDone (s : State) : Out :=
  s.lift fun _ h =>
    match h.ledger.solving with
    | none => h
    | some (x, first, last) =>
      h.modLedger fun l => { l with solving := none, solved := some (h.solve x first last) }

/-! ### LDG_COEF_LOAD (R455) -/

/-- The refusals of a load that come before its level: a set of a bad version, outside Hearth scratch, or misaligned. -/
def Hub.coefRefusal (h : Hub) (addr : Nat) (seed : Bool) : Option Status :=
  if seed then none
  else if inScratch addr 296 ∧ h.rd addr 2 ≠ 1 then some .reserved
  else if !inScratch addr 296 then some .unmapped
  else if addr % 8 ≠ 0 then some .align
  else none
/-- A write to LDG_COEF_LOAD. -/
def cmdCoefLoad (addr : Nat) (seed : Bool) : RegCmd :=
  { pre := fun h => h.coefRefusal addr seed
    txn := .refuse
    body := fun _ h =>
      if h.ledger.loaded.isSome then (.busy, h)
      else
        let vs := if seed then h.ledger.seedCoefs else (List.range 72).map fun j => h.rd (addr + 8 + 4 * j) 4
        (.ok, (h.modLedger fun l => { l with loaded := some { values := vs } }).put F.LDG_COEF_LOAD_pending 0 1) }
/-- LDG_COEF_LOAD (R455). -/
def execLdgCoefLoad (m : Master) (addr : Nat) (seed : Bool) (s : State) : Out :=
  if addr < 2 ^ 48 then s.cmd m 3 (cmdCoefLoad addr seed) else .refused .illFormed

/-! ### LGR (R405) -/

/-- LGR READ once the Hearth serves it. -/
def effLgrRead (c : Nat) (rd : RegNo) (arg : Word) (h : Hub) : Effect :=
  let a := bits arg.toNat 0 16
  if 0x802 < a ∨ bits arg.toNat 16 48 ≠ 0 then h.endStatus c .reserved
  else if h.coreLevel c < 1 then h.authRefused.endStatus c .auth
  else h.endResult c rd (BitVec.ofNat 64 (h.get F.LDG_ACCT_total_mj a)) .ok

/-- A die has a commanded interval open. -/
def Hub.commanded (h : Hub) (d : Nat) : Bool := (h.ovhOf d).any fun x => x.owner.isSome
/-- The commanded intervals of core `c` (R405). -/
def ownedBy (c : Nat) (x : OvhX) : Bool := x.owner == some c

/-- LGR OVERHEAD_OPEN once the Hearth serves it. -/
def effLgrOpen (t c : Nat) (arg : Word) (h : Hub) : Effect :=
  let reason := bits arg.toNat 0 8
  let dies := maskList 32 (bits arg.toNat 32 32)
  if reason < 16 ∨ dies.isEmpty ∨ bits arg.toNat 8 24 ≠ 0 then h.endStatus c .reserved
  else if h.coreLevel c < 3 then h.authRefused.endStatus c .auth
  else if dies.any h.commanded then h.endStatus c .busy
  else (h.openOvh dies { reason, owner := some c, due := t + secs 60 }).endStatus c .ok

/-- LGR OVERHEAD_CLOSE once the Hearth serves it. -/
def effLgrClose (c : Nat) (arg : Word) (h : Hub) : Effect :=
  let dies := maskList 32 (bits arg.toNat 32 32)
  if bits arg.toNat 0 32 ≠ 0 then h.endStatus c .reserved
  else if h.coreLevel c < 3 then h.authRefused.endStatus c .auth
  else if !dies.any (fun d => (h.ovhOf d).any (ownedBy c)) then h.endStatus c .notHeld
  else (h.closeOvh dies (ownedBy c)).endStatus c .ok

/-- LGR SEAL once the Hearth serves it: the open batch closes (R415), and rd is the sequence of its last record. -/
def effLgrSeal (t c : Nat) (rd : RegNo) (h : Hub) : Effect :=
  if h.coreLevel c < 3 then h.authRefused.endStatus c .auth
  else if h.ledger.openCount = 0 then h.endStatus c .empty
  else if 64 ≤ h.ledger.pendingBatches.length then h.endStatus c .busy
  else (h.closeBatch t).endResult c rd (BitVec.ofNat 64 (h.get F.LDG_SEQ_next_seq - 1)) .ok

/-- LGR READ (R405). -/
def execLgrRead (c : Nat) (rd rs1 : RegNo) (s : State) : Out :=
  s.instr c fun _ h => sEffect rd <| hearthEffect c (.lgrRead rd (h.gpr c rs1)) (effLgrRead c rd (h.gpr c rs1)) h
/-- LGR OVERHEAD_OPEN (R405). -/
def execLgrOverheadOpen (c : Nat) (rs1 : RegNo) (s : State) : Out :=
  s.instr c fun t h => hearthEffect c (.lgrOpen (h.gpr c rs1)) (effLgrOpen t c (h.gpr c rs1)) h
/-- LGR OVERHEAD_CLOSE (R405). -/
def execLgrOverheadClose (c : Nat) (rs1 : RegNo) (s : State) : Out :=
  s.instr c fun _ h => hearthEffect c (.lgrClose (h.gpr c rs1)) (effLgrClose c (h.gpr c rs1)) h
/-- LGR SEAL (R405). -/
def execLgrSeal (c : Nat) (rd : RegNo) (s : State) : Out :=
  s.instr c fun t h => sEffect rd <| hearthEffect c (.lgrSeal rd) (effLgrSeal t c rd) h

end Sys2Proof.Machine
end

