-- ==== Sys2Proof/Machine/Triggers.lean ====
section
/-! DEFINITION. The trigger matrices and the cross-trigger pins (R160 to R169, R192, R515). Matrix 0–7 is anvil node
0–7's, matrix 8 the active Hearth's. -/

namespace Sys2Proof.Machine

open Sys2Proof

/-- A trigger entry: its four words (R161). -/
structure TrgEntry where
  w0 : Nat
  w1 : Nat
  w2 : Nat
  w3 : Nat
  deriving DecidableEq, Repr

/-- How many entries a matrix has. -/
def trgEntries (m : Nat) : Nat := if m < 8 then 256 else 64
/-- The register that holds word `w` of entry `e`, and its copy. -/
def trgWord (m e w : Nat) : RegCopy :=
  if m < 8 then { reg := .TRG_ENTRY, copy := spokeInst .TRG_ENTRY m (e * 4 + w) } else { reg := .HTRG_ENTRY, copy := e * 4 + w }
/-- An entry in force. -/
def Hub.trgEntry (h : Hub) (m e : Nat) : TrgEntry :=
  let f := fun w => (h.reg (trgWord m e w).reg (trgWord m e w).copy).toNat
  { w0 := f 0, w1 := f 1, w2 := f 2, w3 := f 3 }
/-- An entry's shadow copy. -/
def Hub.trgShadow (h : Hub) (m e : Nat) : TrgEntry :=
  let f := fun w => (h.shadowReg (trgWord m e w).reg (trgWord m e w).copy).toNat
  { w0 := f 0, w1 := f 1, w2 := f 2, w3 := f 3 }
/-- The hub source of a matrix (R64); during a handover the Hearth matrix is the new active Hearth's (R443). -/
def Hub.trgSource (h : Hub) (m : Nat) : Nat :=
  (if m < 8 then m else if h.failover then 4 - h.hearthDie else h.hearthDie) * 2048 + 0x7FE

/-! ### The fields of an entry (R161, R162) -/

/-- enable. -/
def TrgEntry.enable (e : TrgEntry) : Bool := bitAt e.w0 4
/-- unit_mode. -/
def TrgEntry.unitMode (e : TrgEntry) : Nat := bits e.w0 24 3
/-- source. -/
def TrgEntry.source (e : TrgEntry) : Nat := bits e.w0 28 2
/-- unit_a. -/
def TrgEntry.unitA (e : TrgEntry) : Nat := bits e.w0 32 16
/-- unit_b. -/
def TrgEntry.unitB (e : TrgEntry) : Nat := bits e.w0 48 16
/-- action. -/
def TrgEntry.action (e : TrgEntry) : Nat := bits e.w3 0 4
/-- one_shot. -/
def TrgEntry.oneShot (e : TrgEntry) : Bool := bitAt e.w3 4
/-- The entry's four words are all zero (R166). -/
def TrgEntry.empty (e : TrgEntry) : Bool := e.w0 == 0 && e.w1 == 0 && e.w2 == 0 && e.w3 == 0

/-- A reserved encoding in an entry of matrix `m` (R161, R162, R166, R192). Reserved fields are ignored (R12). -/
def TrgEntry.bad (m : Nat) (e : TrgEntry) : Bool :=
  bits e.w0 0 4 != 1 || decide (3 < e.unitMode) || decide (1 < e.source) || (e.source == 1 && decide (m < 8)) ||
  (e.source == 0 && bits e.w1 0 32 == 0) || decide (5 < e.action) ||
  (e.action == 0 && bits e.w3 16 32 == 0) || (e.action == 5 && bits e.w3 16 8 == 0) ||
  (e.source == 1 && e.action == 5)

/-- The record's unit passes (R161). -/
def Hub.trgUnit (h : Hub) (e : TrgEntry) (src : Nat) : Bool :=
  match e.unitMode with
  | 0 => true
  | 1 => src == e.unitA
  | 2 => decide (e.unitA % 2048 ≤ localOf src) && decide (localOf src ≤ e.unitB % 2048)
  | _ => unitOk src && h.inGroup (e.unitA % 256) src
/-- The masked payload passes (R161). -/
def TrgEntry.payload (e : TrgEntry) (pay : Nat) : Bool :=
  let mask := bits e.w2 32 28
  let a := pay &&& mask
  let b := bits e.w2 0 28 &&& mask
  match bits e.w2 60 2 with
  | 0 => a == b
  | 1 => a != b
  | 2 => decide (b ≤ a)
  | _ => decide (a < b)
/-- The record's context passes (R161, R163). -/
def TrgEntry.context (e : TrgEntry) (r : Rec) : Bool :=
  let mask := bits e.w1 44 11
  if r.hasCtx then (r.ctx &&& mask) == (bits e.w1 32 11 &&& mask) else !bitAt e.w1 55
/-- An entry matches what it is offered (R161 to R163). -/
def Hub.trgMatches (h : Hub) (e : TrgEntry) (o : Offer) : Bool :=
  !e.empty && e.enable &&
  match o with
  | .xtrig _ => e.source == 1
  | .record r =>
    let mask := bits e.w0 16 8
    e.source == 0 && (r.cls &&& mask) == (bits e.w0 8 8 &&& mask) && h.trgUnit e r.src &&
      bitAt (bits e.w1 0 32) (dieOf r.src) && e.context r && e.payload r.pay

/-! ### Firing (R162, R164, R165) -/

/-- TRG_FIRED_e.last_status. -/
def Hub.firedStatus (m e : Nat) (st : Status) (h : Hub) : Hub :=
  if m < 8 then h.sput F.TRG_FIRED_last_status m e st.code else h.put F.HTRG_FIRED_last_status e st.code
/-- Count a firing (TRG_FIRED_e, TRG_STATUS). -/
def Hub.countFired (m e : Nat) (h : Hub) : Hub :=
  if m < 8 then (h.sbump F.TRG_FIRED_count m e 1).sbump F.TRG_STATUS_fired_total m 0 1
  else (h.bump F.HTRG_FIRED_count e 1).bump F.HTRG_STATUS_fired_total 0 1
/-- A one-shot entry clears its enable in both copies (R165). -/
def Hub.disableEntry (m e : Nat) (h : Hub) : Hub :=
  let w := trgWord m e 0
  let clear := fun v : Word => BitVec.ofNat 64 (setBits v.toNat 4 1 0)
  let sh := clear (h.shadowReg w.reg w.copy)
  let staged := (aGet (fun _ => none) h.shadow (w.reg.key w.copy)).isSome
  let h := h.setReg w.reg w.copy (clear (h.reg w.reg w.copy))
  if staged then h.setShadow w.reg w.copy sh else h

/-- The payload of a POST_EVENT (R149, R163). -/
def Offer.payload : Offer → Word
  | .record r => BitVec.ofNat 64 r.low
  | .xtrig t => BitVec.ofNat 64 t

/-- The action of entry `e` of matrix `m` (R162). -/
def Hub.trgAction (t m e : Nat) (x : TrgEntry) (o : Offer) (h : Hub) : Hub :=
  match x.action with
  | 0 => h.askQuench { source := 1, unit := h.trgSource m, mask := bits x.w3 16 32, reply := some (.fired m e) }
  | 1 =>
    if h.retired then h.firedStatus m e .retired
    else h.issueRun t .halt (bits x.w3 16 8) true true 0 (causeOf 4 (m * 256 + e)) (.fired m e)
  | 2 =>
    let r := h.startNumber t (bits x.w3 16 6) 0
    r.2.2.firedStatus m e r.1
  | 3 =>
    let r := h.postTo t (bits x.w3 16 16) (bits x.w3 32 6) 1 o.payload
    r.2.firedStatus m e r.1
  | 4 => (h.emit t (h.trgSource m) 0xE1 none (bits x.w3 16 28)).firedStatus m e .ok
  | _ =>
    let till := max h.xtrigUntil (t + ns (100 * bits x.w3 16 8))
    (if h.booting then h else { h with xtrigUntil := till }).firedStatus m e .ok

/-- Entry `e` of matrix `m` fires (R164). -/
def Hub.fireEntry (t m e : Nat) (o : Offer) (h : Hub) : Hub :=
  let x := h.trgEntry m e
  let h := if x.oneShot then h.disableEntry m e else h
  ((h.countFired m e).emit t (h.trgSource m) 0xC5 none (m * 2 ^ 20 + e * 2 ^ 8 + x.action)).trgAction t m e x o

/-- Matrix `m` evaluates its oldest offer against the entries in force, in ascending order (R164, R166). -/
def Hub.trgEval (t m : Nat) (h : Hub) : Hub :=
  match aGet (fun _ => []) h.offers m with
  | [] => h
  | (_, o) :: rest =>
    let fires := (List.range (trgEntries m)).filter fun e => h.trgMatches (h.trgEntry m e) o
    fires.foldl (fun h e => h.fireEntry t m e o) { h with offers := aPut (fun _ => []) m rest h.offers }

/-- TRIGGER_EVAL (R164). -/
def execTriggerEval (matrix : Nat) (s : State) : Out := s.liftIf (decide (matrix < 9)) fun t h => h.trgEval t matrix

/-- XTRIG_IN_EDGE (R515): the edge is offered to the Hearth matrix (R160). -/
def execXtrigInEdge (s : State) : Out := s.lift fun t h => h.offer 8 33 (.xtrig t) 7

/-- When XTRIG_OUT is released. -/
def Hub.xtrigDue (h : Hub) : Option Nat := if h.xtrigUntil = 0 then none else some h.xtrigUntil

/-- XTRIG_OUT_PULSE_END (R515). -/
def execXtrigOutPulseEnd (s : State) : Out := s.liftAt s.hub.xtrigDue fun _ h => { h with xtrigUntil := 0 }

/-! ### TRG_ARM (R166) -/

/-- The ARM's check of a matrix's entries (R166, R192). -/
def Hub.trgRefused (h : Hub) (m : Nat) : Bool :=
  (List.range (trgEntries m)).any fun e => !(h.trgShadow m e).empty && (h.trgShadow m e).bad m
/-- A matrix's entries come into force. -/
def Hub.trgApply (m : Nat) (h : Hub) : Hub :=
  if m < 8 then h.applyShadow .TRG_ENTRY ((List.range 1024).map (spokeInst .TRG_ENTRY m))
  else h.applyShadow .HTRG_ENTRY (List.range 256)

end Sys2Proof.Machine
end

