-- ==== Sys2Proof/Machine/Groups.lean ====
section
/-! DEFINITION. Configuration groups: their checks, their ARMs, and the instants at which they take effect (R425 to
R428). -/

namespace Sys2Proof.Machine

open Sys2Proof

/-- The group of a register copy's key. -/
def keyGroup (k : Nat) : Option GroupId := (keyReg k).bind fun x => x.1.group x.2
/-- The shadow values of group `g`. -/
def Hub.groupVals (h : Hub) (g : GroupId) : List (Nat × Option Word) := h.shadow.filter fun e => keyGroup e.1 = some g
/-- A shadow field of group `g` differs from the settings in force (R425). -/
def Hub.groupDiffers (h : Hub) (g : GroupId) : Bool :=
  (h.groupVals g).any fun e => e.2.getD 0 ≠ aGet regDefault h.regs e.1

/-! ### The checks of an ARM -/

/-- A recipe load or an update operation is reading the flash (R473). -/
def Hub.flashBusy (h : Hub) : Bool :=
  (h.load.map fun x => inFlash x.image 1).getD false || (h.upd.map fun x => x.op == 2).getD false

/-- The checks of group PAT (R473). -/
def Hub.patRefusal (h : Hub) : Option Status :=
  let mode := fun n => h.shGet F.PAT_ADDR_mode n
  let on := (List.range 64).filter fun n => mode n ≠ 0
  if (List.range 64).any (fun n => mode n == 3) ||
      on.any (fun a => on.any fun b => decide (a < b) && h.shGet F.PAT_ADDR_word a == h.shGet F.PAT_ADDR_word b) then
    some .reserved
  else if h.flashBusy then some .busy
  else none

/-- The membership rows name a unit that is not populated (R172). -/
def Hub.hgrpBad (h : Hub) : Bool :=
  (h.stagedCopies .SPK_HGRP).any fun i =>
    let n := i / Reg.SPK_HGRP.desc.perBlock
    let w := i % Reg.SPK_HGRP.desc.perBlock % 4
    (maskList 64 (h.shGet F.SPK_HGRP_member i)).any fun b => unitsOnDie n ≤ 64 * w + b

/-- What an ARM of group `g` is refused with, if anything, judged on its whole shadow (R425 and the groups' rules). -/
def Hub.groupRefusal (g : GroupId) (h : Hub) : Option Status :=
  let res := fun (b : Bool) => if b then some Status.reserved else none
  match g with
  | .pkg .trc =>
    let n := h.shGet F.TRC_RING_CFG_seg_size
    if 24 < n ∨ h.shGet F.TRC_RING_CFG_policy = 3 then some .reserved
    else if (h.placements (n * (16 * mib))).isNone then some .noSpace
    else none
  | .pkg .tim =>
    let role := h.shGet F.TIM_XCHIP_CFG_role
    let n := h.shGet F.TIM_XCHIP_CFG_interval_log2
    if role = 3 ∨ 48 ≤ h.shGet F.TIM_XCHIP_CFG_parent_link ∨ n < 6 ∨ 14 < n then some .reserved
    else if role ≠ 0 ∧ !h.flag F.TIM_STATUS_pll_locked then some .notHeld
    else none
  | .pkg .hgrp => if h.hgrpBad then some .noUnit else none
  | .pkg .blw =>
    let hi := h.shGet F.BLW_CFG_rate_max
    let lo := h.shGet F.BLW_CFG_rate_min
    res (decide (hi < lo) || decide (lo < 20) || decide (400 < hi) || h.shGet F.BLW_CFG_excursion_mv == 0
      || h.shGet F.BLW_CFG_settle_us == 0)
  | .pkg .bnk =>
    let s := h.shGet F.BNK_CFG_hold_limit_s
    let k := h.shGet F.BNK_CFG_keepalive_us
    res (s == 0 || decide (30 < s) || k == 0 || decide (8 < k))
  | .pkg .hwt => res h.hwtRefused
  | .pkg .wfg =>
    res (h.shGet F.WFG_CFG_edge_after_us == 0 || h.shGet F.WFG_CFG_orphan_after_us == 0 || h.shGet F.WFG_CFG_silence_ms == 0)
  | .pkg .rcv => res h.rcvRefused
  | .pkg .ldg =>
    res (h.shGet F.LDG_CFG_cal_window_ep == 0 || decide (h.shGet F.LDG_CFG_tau_log2 < 4) || h.shGet F.LDG_CFG_pmb_tol == 0)
  | .trg m => res (h.trgRefused m)
  | .spn p => res (h.spnRefused p)
  | .pat => h.patRefusal

/-! ### Taking effect -/

/-- Every shadow value of the list comes into force. -/
def Hub.applyVals (vs : List (Nat × Option Word)) (h : Hub) : Hub :=
  vs.foldl (fun h e => match keyReg e.1, e.2 with
    | some (r, i), some _ => h.applyShadow r [i]
    | _, _ => h) h

/-- HRT_HGRP_DIES follows the membership (R171). -/
def Hub.groupDies (h : Hub) : Hub :=
  (List.range 256).foldl (fun h g => h.put F.HRT_HGRP_DIES_dies g (maskOf ((h.groupUnits g).map dieOf))) h

/-- A follower's role and what it does to Chip Time (R56). -/
def Hub.timRole (t old : Nat) (h : Hub) : Hub :=
  let new := h.get F.TIM_XCHIP_CFG_role
  if new ≠ 2 then (h.put F.TIM_STATUS_xchip_state 0 0).setRate 0
  else if old = 2 then h
  else { h.put F.TIM_STATUS_xchip_state 0 1 with time := { h.time with goodRun := 0, badRun := 0, heard := t } }

/-- Group TRC takes effect: the segments go where the ARM placed them, or where they can be placed now; if they cannot
all be placed, the settings before stay in force (R72). -/
def Hub.takeTrc (vs : List (Nat × Option Word)) (segments : List (Nat × Nat)) (h : Hub) : Hub :=
  let new := h.applyVals vs
  let bases := if segments ≠ [] ∧ (segments.zipIdx.all fun e => h.rangeFree e.2 e.1) then some (segments.map Prod.fst)
    else h.placements new.segSize
  match bases with
  | some bs => (new.placeSegments bs).resizePlans
  | none => h

/-- Group `g`, of package scope, takes effect at `t` with its latched shadow values, which stand in the shadow. -/
def Hub.takeGroup (t : Nat) (g : CfgGroup) (vs : List (Nat × Option Word)) (segments : List (Nat × Nat)) (h : Hub) : Hub :=
  match g with
  | .trc => h.takeTrc vs segments
  | .tim => (h.applyVals vs).timRole t (h.get F.TIM_XCHIP_CFG_role)
  | .hgrp => (h.applyVals vs).groupDies
  | .blw =>
    let h := h.applyVals vs
    let n := h.get F.BLW_RATE_current
    h.put F.BLW_RATE_current 0 (max (h.get F.BLW_CFG_rate_min) (min (h.get F.BLW_CFG_rate_max) n))
  | .bnk =>
    (List.range 48).foldl (fun h l => match h.holdDue l with
      | some d => if d ≤ t then h.holdExpiry t l else h
      | none => h) (h.applyVals vs)
  | .hwt => h.hwtApply t
  | .wfg | .rcv | .ldg => h.applyVals vs

/-- The store of waiting ARMs without group `g`'s. -/
def Hub.arm (h : Hub) (g : CfgGroup) : Option ArmX := aFind g.ctorIdx h.arms
/-- Put or remove a waiting ARM. -/
def Hub.setArm (g : CfgGroup) (a : Option ArmX) (h : Hub) : Hub :=
  { h with arms := match a with
    | some a => aPut (fun _ => { cmds := [0], due := some 0 }) g.ctorIdx a h.arms
    | none => aKeep (· ≠ g.ctorIdx) h.arms }

/-- The ARM of a group takes effect (R428): the values it latched come into force, and edits made since stay in the
shadow. -/
def Hub.groupEffect (t : Nat) (g : CfgGroup) (h : Hub) : Hub :=
  match h.arm g with
  | none => h
  | some a =>
    let others := h.shadow.filter fun e => !a.vals.contains e
    let mine := h.shadow.filter fun e => keyGroup e.1 ≠ some (.pkg g)
    let h := h.setArm g none
    let h := { h with shadow := a.vals.foldl (fun m (e : Nat × Option Word) => aPut (fun _ => none) e.1 e.2 m) mine }
    { h.takeGroup t g a.vals a.segments with shadow := others }

/-- When a group's ARM takes effect: its instant, or once the group commands issued before it have completed (R171). -/
def Hub.armDue (h : Hub) (t : Nat) (g : CfgGroup) : Option Nat :=
  (h.arm g).bind fun a =>
    match a.due with
    | some d => some d
    | none => if a.cmds.any fun c => (h.cmd c).isSome then none else some t

/-- GROUP_TAKES_EFFECT (R428). -/
def execGroupTakesEffect (g : CfgGroup) (s : State) : Out :=
  s.liftAt (s.hub.armDue s.clk.chipTime g) fun t h => h.groupEffect t g

/-! ### ARMs -/

/-- Group PAT takes effect on both Hearths (R426, R474). -/
def Hub.patApply (h : Hub) : Hub :=
  let h := (h.applyShadow .PAT_ADDR (List.range 64)).applyShadow .PAT_DATA (List.range 64)
  h.put F.PAT_STATUS_enabled 0 ((List.range 64).filter fun n => h.get F.PAT_ADDR_mode n ≠ 0).length

/-- What an accepted ARM of a group does (R425, R428). A package-scope group is latched for 2 µs later, HGRP until the
group commands already issued have completed. -/
def Hub.armGroup (t : Nat) (g : GroupId) (h : Hub) : Hub :=
  match g with
  | .trg m => h.trgApply m
  | .spn p => h.spnApply p
  | .pat => h.patApply
  | .pkg g =>
    if !h.groupDiffers (.pkg g) then h
    else h.setArm g (some {
      due := if g = .hgrp then none else some (t + us 2)
      vals := h.groupVals (.pkg g)
      segments := if g = .trc then
        let n := h.shGet F.TRC_RING_CFG_seg_size * (16 * mib)
        ((h.placements n).getD []).map fun b => (b, n) else []
      cmds := if g = .hgrp then (h.cmds.filter fun e => e.2.group).map Prod.fst else [] })

/-- A second ARM of a group whose ARM has not taken effect (R428). -/
def Hub.armWaits (h : Hub) (g : GroupId) : Bool :=
  match g with
  | .pkg g => (h.arm g).isSome
  | _ => false

/-- The ARM field of a group stands in the block of a spoke that is powered off (R38). -/
def Hub.armOff (h : Hub) (g : GroupId) : Bool :=
  match g with
  | .trg m => decide (m < 8) && !h.spokeOn m
  | .spn p => !h.spokeOn p
  | _ => false
/-- A write of 1 to the ARM field of a group. An ARM that would change nothing is not checked (R425). -/
def cmdArm (g : GroupId) : RegCmd :=
  { txn := .arm g
    gate := fun h => if h.armOff g then some .poweredOff else none
    pre := fun h => if h.groupDiffers g then (h.groupRefusal g).filter Status.beforeAuth else none
    body := fun t h =>
      if h.armWaits g then (.busy, h)
      else if !h.groupDiffers g then (.ok, h)
      else
        match h.groupRefusal g with
        | some st => (st, h)
        | none => (.ok, h.armGroup t g) }

/-- TRC_ARM (R72); trace control needs level 2 (R480). -/
def execTrcArm (m : Master) (s : State) : Out := s.cmd m 2 (cmdArm (.pkg .trc))
/-- TIM_XCHIP_ARM (R55, R56, R546). -/
def execTimXchipArm (m : Master) (s : State) : Out := s.cmd m 3 (cmdArm (.pkg .tim))
/-- HGRP_ARM (R171, R172). -/
def execHgrpArm (m : Master) (s : State) : Out := s.cmd m 3 (cmdArm (.pkg .hgrp))
/-- BLW_ARM (R426). -/
def execBlwArm (m : Master) (s : State) : Out := s.cmd m 3 (cmdArm (.pkg .blw))
/-- BNK_ARM (R227). -/
def execBnkArm (m : Master) (s : State) : Out := s.cmd m 3 (cmdArm (.pkg .bnk))
/-- HWT_ARM (R350). -/
def execHwtArm (m : Master) (s : State) : Out := s.cmd m 3 (cmdArm (.pkg .hwt))
/-- WFG_ARM (R426). -/
def execWfgArm (m : Master) (s : State) : Out := s.cmd m 3 (cmdArm (.pkg .wfg))
/-- RCV_ARM (R426). -/
def execRcvArm (m : Master) (s : State) : Out := s.cmd m 3 (cmdArm (.pkg .rcv))
/-- LDG_ARM (R426). -/
def execLdgArm (m : Master) (s : State) : Out := s.cmd m 3 (cmdArm (.pkg .ldg))
/-- TRG_ARM (R166). -/
def execTrgArm (m : Master) (matrix : Nat) (s : State) : Out :=
  if matrix < 9 then s.cmd m 3 (cmdArm (.trg matrix)) else .refused .illFormed
/-- SPN_ARM (R335). -/
def execSpnArm (m : Master) (node : Nat) (s : State) : Out :=
  if node < 8 then s.cmd m 3 (cmdArm (.spn node)) else .refused .illFormed
/-- PAT_ARM (R473). -/
def execPatArm (m : Master) (s : State) : Out := s.cmd m 4 (cmdArm .pat)

end Sys2Proof.Machine
end

