-- ==== Sys2Proof/Machine/Ports.lean ====
section
/-! DEFINITION. MCTP, I3C, the host mailbox, JTAG and the alert pin (R504 to R512, R516). The bodies of MCTP control
responses and the discovery handshake are the MCTP standard's (PRESUMED, assumption 45). -/

namespace Sys2Proof.Machine

open Sys2Proof

/-! ### MCTP (R505, R506) -/

/-- An endpoint. -/
def Hub.endpoint (h : Hub) (k : Nat) : MctpX := aGet (fun _ => {}) h.mctp k
/-- Change an endpoint. -/
def Hub.modEndpoint (k : Nat) (f : MctpX → MctpX) (h : Hub) : Hub :=
  { h with mctp := aPut (fun _ => {}) k (f (h.endpoint k)) h.mctp }
/-- The number of a transport. -/
def trIdx (tr : McTransport) : Nat := if tr = .i3c then 0 else 1
/-- A message on MCTP, which is not served in BOOT (R505). -/
def State.mctp (s : State) (f : Hub → Hub) : Out := s.lift fun _ h => if h.booting then h else f h
/-- A control command answered with a completion code of 0 and a body. -/
def State.control (s : State) (tr : McTransport) (cmd : Nat) (f : Hub → Hub) (data : Hub → List Byte) : Out :=
  s.mctp fun h => (f h).sayMctp (tr == .i3c) (.mctp tr cmd 0 (data (f h)))

/-- SET_ENDPOINT_ID (R506): the broadcast and null IDs are answered with ERROR_INVALID_DATA. -/
def execSetEndpointId (tr : McTransport) (eid : Nat) (s : State) : Out :=
  if 256 ≤ eid then .refused .illFormed
  else if eid = 0 ∨ eid = 255 then s.mctp fun h => h.sayMctp (tr == .i3c) (.mctp tr 0x01 0x02 [])
  else s.control tr 0x01 (fun h => h.modEndpoint (trIdx tr) fun _ => { eid, discovered := true }) fun _ =>
    [0, BitVec.ofNat 8 eid, 0]
/-- GET_ENDPOINT_ID (R506). -/
def execGetEndpointId (tr : McTransport) (s : State) : Out :=
  s.control tr 0x02 id fun h => [BitVec.ofNat 8 (h.endpoint (trIdx tr)).eid, 0, 0]
/-- GET_ENDPOINT_UUID (R506). -/
def execGetEndpointUuid (tr : McTransport) (s : State) : Out := s.control tr 0x03 id fun _ => Config.mctpUuid
/-- GET_MCTP_VERSION_SUPPORT (R506). -/
def execGetMctpVersionSupport (tr : McTransport) (s : State) : Out := s.control tr 0x04 id fun _ => Config.mctpVersions
/-- GET_MESSAGE_TYPE_SUPPORT (R506): the four types. -/
def execGetMessageTypeSupport (tr : McTransport) (s : State) : Out :=
  s.control tr 0x05 id fun _ => [4, 0x00, 0x05, 0x06, 0x7F]
/-- GET_VENDOR_DEFINED_MESSAGE_SUPPORT (R506). -/
def execGetVendorDefinedMessageSupport (tr : McTransport) (s : State) : Out :=
  s.control tr 0x06 id fun _ => Config.vendorSupport
/-- PREPARE_FOR_ENDPOINT_DISCOVERY (R506). -/
def execPrepareForEndpointDiscovery (s : State) : Out :=
  s.control .pcie 0x0B (fun h => h.modEndpoint 1 fun x => { x with discovered := false }) fun _ => []
/-- ENDPOINT_DISCOVERY (R506): an endpoint that has been discovered stays silent. -/
def execEndpointDiscovery (s : State) : Out :=
  s.mctp fun h => if (h.endpoint 1).discovered then h else h.say (.mctp .pcie 0x0C 0 [])
/-- The control commands of a transport (R506). -/
def controlCodes (tr : McTransport) : List Nat := [1, 2, 3, 4, 5, 6] ++ if tr = .pcie then [0x0B, 0x0C] else []
/-- MCTP_UNSUPPORTED_CMD (R506): ERROR_UNSUPPORTED_CMD. -/
def execMctpUnsupportedCmd (tr : McTransport) (cmd : Nat) (s : State) : Out :=
  if (controlCodes tr).contains cmd then .refused .illFormed else s.mctp fun h => h.sayMctp (tr == .i3c) (.mctp tr cmd 5 [])
/-- MCTP_DISCARD (R506): a message of another type is discarded. -/
def execMctpDiscard (_tr : McTransport) (ty : Nat) (s : State) : Out :=
  if [0x00, 0x05, 0x06, 0x7F].contains ty then .refused .illFormed else s.mctp id

/-! ### The I3C target (R505) -/

/-- A common command code on the bus, which the hub does not serve in BOOT: a change of the target, and an answer. -/
def State.ccc (s : State) (f : I3cX → I3cX) (answer : Option (Nat × (Hub → List Byte))) : Out :=
  s.mctp fun h =>
    let h := { h with i3c := f h.i3c }
    match answer with
    | some (c, g) => h.say (.i3c c (g h))
    | none => h
/-- ENTDAA (R505): the target takes its dynamic address. -/
def execEntdaa (addr : Nat) (s : State) : Out :=
  if addr < 128 then s.ccc (fun x => { x with addr := some addr }) none else .refused .illFormed
/-- RSTDAA (R505). -/
def execRstdaa (s : State) : Out := s.ccc (fun x => { x with addr := none }) none
/-- ENEC (R505): events are enabled. -/
def execEnec (events : Byte) (s : State) : Out := s.ccc (fun x => { x with events := x.events ||| events.toNat }) none
/-- DISEC (R505): events are disabled. -/
def execDisec (events : Byte) (s : State) : Out :=
  s.ccc (fun x => { x with events := x.events &&& (255 - events.toNat) }) none
/-- GETPID (R505). -/
def execGetpid (s : State) : Out := s.ccc id (some (0x8D, fun _ => Config.i3cIdentity 0x8D))
/-- GETBCR (R505). -/
def execGetbcr (s : State) : Out := s.ccc id (some (0x8E, fun _ => Config.i3cIdentity 0x8E))
/-- GETDCR (R505). -/
def execGetdcr (s : State) : Out := s.ccc id (some (0x8F, fun _ => Config.i3cIdentity 0x8F))
/-- GETSTATUS (R505): the spec does not state the status word, which is a free value. -/
def execGetstatus (s : State) : Out :=
  s.mctp fun h => h.drew.say (.i3c 0x90 (bytesLE 2 h.freeWord.toNat))
/-- GETMRL (R505). -/
def execGetmrl (s : State) : Out := s.ccc id (some (0x8C, fun h => bytesLE 2 h.i3c.mrl))
/-- SETMRL (R505). -/
def execSetmrl (n : Nat) (s : State) : Out :=
  if n < 65536 then s.ccc (fun x => { x with mrl := n }) none else .refused .illFormed
/-- GETMWL (R505). -/
def execGetmwl (s : State) : Out := s.ccc id (some (0x8B, fun h => bytesLE 2 h.i3c.mwl))
/-- SETMWL (R505). -/
def execSetmwl (n : Nat) (s : State) : Out :=
  if n < 65536 then s.ccc (fun x => { x with mwl := n }) none else .refused .illFormed

/-! ### The host mailbox and the repeated warm reset request (R508, R509) -/

/-- REQ_DOORBELL (R509): a request is submitted; a second one before the agent releases ready is refused with BUSY. A hub
that no image has booted serves no mailbox (R45). -/
def execReqDoorbell (chan _length : Nat) (s : State) : Out :=
  s.liftIf (decide (chan < 16)) fun _ h =>
    if h.boot.failed then h
    else h.modMail chan fun x =>
      if x.asked ∨ x.rspReady then { x with rspStatus := Status.busy.code } else { x with asked := true, rspStatus := 0 }
/-- RSP_READY_RELEASE (R509). -/
def execRspReadyRelease (chan : Nat) (s : State) : Out :=
  s.liftIf (decide (chan < 16)) fun _ h => h.modMail chan fun x => { x with rspReady := false }
/-- WARM_RESET_REQUEST_REPEAT (R508). -/
def execWarmResetRequestRepeat (s : State) : Out :=
  s.liftAt s.hub.warmReq fun t h =>
    let h := h.notify t { type := 5, agent := none
                          body := bytesLE 8 (h.get F.RCV_STATUS_retire_cause) ++ bytesLE 8 t }
    { h with warmReq := some (t + ms 100) }

/-! ### JTAG (R510 to R512) -/

/-- A TAP instruction is loaded (R510). -/
def Hub.setIr (ir : Byte) (h : Hub) : Hub := { h with tap := { h.tap with ir } }
/-- JTAG_IDCODE (R510). -/
def execJtagIdcode (s : State) : Out := s.lift fun _ h => (h.setIr 0x01).say (.jtag (bytesLE 4 Config.jtagIdcode))
/-- JTAG_IJTAG (R510, R511). -/
def execJtagIjtag (s : State) : Out := s.lift fun _ h => h.setIr 0x20
/-- JTAG_MBOX (R512): one word of a frame to the hub; the captured value, 33 bits with the waiting flag, is a free value,
since it carries frames whose secured bytes the spec does not state. -/
def execJtagMbox (word : BitVec 32) (s : State) : Out :=
  s.lift fun _ h =>
    let h := (h.setIr 0x21).modVlink 1 fun x => { x with words := x.words ++ [word] }
    h.drew.say (.jtag (bytesLE 5 (h.freeWord.toNat % 2 ^ 33)))
/-- JTAG_BYPASS (R510): every other code. -/
def execJtagBypass (code : Byte) (s : State) : Out :=
  if [0x01, 0x20, 0x21].contains code.toNat then .refused .illFormed else s.lift fun _ h => h.setIr code
/-- SIB_OPEN (R511): in PRODUCTION a session needs level 3, and a segment that a capture needs stays closed. -/
def Hub.sibOpen (s die seg : Nat) (h : Hub) : Hub :=
  let level := if h.flag F.AUT_SESS_open s then h.get F.AUT_SESS_level s else 0
  if Config.production ∧ level < 3 then h.authRefused
  else if h.scanSegments.contains (die * 64 + seg) ∨ h.tap.sibs.contains (die * 64 + seg) then h
  else { h with tap := { h.tap with sibs := h.tap.sibs ++ [die * 64 + seg] } }
/-- SIB_OPEN (R511). -/
def execSibOpen (s die seg : Nat) (st : State) : Out :=
  st.liftIf (decide (s < 20) && decide (die < 32) && decide (seg < 64)) fun _ h => h.sibOpen s die seg

/-! ### HUB_ALERT_N (R516) -/

/-- The conditions of the alert causes that still hold, as bits. -/
def Hub.alertsHolding (h : Hub) : Nat :=
  maskOf ([(0, h.powered && !h.flag F.TIM_STATUS_pll_locked), (1, h.boot.failed), (2, h.retired),
    (3, h.powered && !h.flag F.HRT_STATE_standby_ready), (4, h.flag F.HRT_FO_STATUS_peer_failed),
    (6, h.get F.LDG_PMB_STATUS_suspect != 0)].filterMap fun e => if e.2 then some e.1 else none)
/-- A write of HRT_ALERT.cause: bits written as 1 clear, and set again where their condition holds (R516). -/
def cmdAlert (mask : Nat) : RegCmd :=
  plainCmd false fun _ h =>
    let left := (maskList 8 (h.get F.HRT_ALERT_cause)).filter fun b => !bitAt mask b || bitAt h.alertsHolding b
    h.put F.HRT_ALERT_cause 0 (maskOf left)
/-- ALERT_CLEAR (R516). -/
def execAlertClear (m : Master) (bits : Byte) (s : State) : Out :=
  s.cmd m 3 (cmdAlert bits.toNat |>.at s.hub .HRT_ALERT 0 (BitVec.ofNat 64 (bits.toNat + s.hub.get F.HRT_ALERT_enable * 2 ^ 8)))

end Sys2Proof.Machine
end

