-- ==== Sys2Proof/Machine/Power.lean ====
section
/-! DEFINITION. The supply monitors of the power domains (R558, R559). -/

namespace Sys2Proof.Machine

open Sys2Proof

/-- The blocks of captures that stand in a bank group, by handle, region and block. -/
def Hub.blocksIn (p g : Nat) (h : Hub) : List (Nat × Nat × Nat) :=
  let lo := g * 65536
  h.captures.flatMap fun e => e.2.plan.regions.zipIdx.flatMap fun r =>
    if r.1.node ≠ p then []
    else (r.1.blk.filter fun b => !b.2.host ∧ b.2.size ≠ 0 ∧ lo ≤ b.2.loc ∧ b.2.loc < lo + 65536).map fun b => (e.1, r.2, b.1)
/-- A bank group is isolated (R559): it is mapped out with its contents lost, so that its blocks are UNREADABLE and its
ledger slots gone (R451). Where the other groups cannot hold what stood in it, nothing moves and the node has no trace
segment. -/
def Hub.groupFault (t p g : Nat) (h : Hub) : Hub :=
  if !h.mappedIn p g then h
  else
    let bs := h.blocksIn p g
    let h := h.loseGroup p g
    let top := ((h.setMapped false (8 * p + g)).groupsOf p).getLast?
    let plan := (h.mapPlan p g).getD
      { shares := if h.shareGroup p = g then top.getD g else h.shareGroup p
        seg := if overlaps (h.segBase p, h.segSize) (groupBase p g, 64 * mib) then 0 else h.segBase p, moves := [] }
    let h := h.mapOut t p g plan bs []
    let h := if plan.seg = 0 then h.modNode p fun x => { x with accept := false } else h
    match h.mapOp with
    | some x => if x.group = 8 * p + g then h.mapEnds .unresponsive else h
    | none => h
/-- The cores of spoke `n`. -/
def spokeCores (n : Nat) : List Nat := [n * 2048 + 0x7F8, n * 2048 + 0x7F9].filter coreOk
/-- A Tongs or an anvil aggregator is isolated (R559): its cores are held in reset, and capture regions that it would read
become UNREADABLE. -/
def Hub.spokeFault (t n : Nat) (h : Hub) : Hub :=
  let h := (spokeCores n).foldl (fun h c => h.coreReset t c) h
  let h := if n < 8 then { h.modNode n fun x => { x with accept := false } with offers := h.offers.filter fun e => e.1 ≠ n } else h
  h.eachRegion fun k _ i r h => if r.die = some n ∧ r.kind < 3 then h.loseBlocks k i r r.unread 1 else h
/-- A domain of a Hearth is isolated (R441, R540, R559): of the active one, it fails over or restarts; of the standby, it
is ready no more. -/
def Hub.hearthFault (t d : Nat) (h : Hub) : Hub :=
  let die := if d < 115 then 0 else 4
  if h.failover then h
  else if die ≠ h.hearthDie then h.put F.HRT_STATE_standby_ready 0 0
  else if h.booting then h
  else if h.flag F.HRT_STATE_standby_ready ∧ h.flag F.HRT_FO_CFG_auto_en then h.takeover t 2
  else
    let h := if h.flag F.HRT_FO_CFG_auto_en then h.alert 3 else h
    h.hearthRestart t 2
/-- The effect of an isolated domain, by its kind (R559). -/
def Hub.domainFault (t d : Nat) (h : Hub) : Hub :=
  if !h.domainOn d then h
  else
    let h := h.isolate d
    if d < 64 then h.groupFault t (d / 8) (d % 8)
    else if d < 88 then h.spokeFault t (d - 56)
    else if d < 96 then h.spokeFault t (d - 88)
    else if d < 112 then h
    else if d < 118 then h.hearthFault t d
    else h.vynDown
/-- POWER_DOMAIN_FAULT (R559): a domain that is off has no supply to watch. -/
def execPowerDomainFault (d : Nat) (s : State) : Out := s.liftIf (decide (d < 119)) fun t h => h.domainFault t d

end Sys2Proof.Machine
end

