-- ==== Sys2Proof/Machine/RegWrite.lean ====
section
/-! DEFINITION. What a write to each register does: by its access codes (R16), or as the command its description names
(R102, R566). -/

namespace Sys2Proof.Machine

open Sys2Proof

/-- A field of a written word is of type RW, W1C or W1S (RWS fields go to the shadow). -/
def Acc.direct : Acc → Bool
  | .rw | .w1c | .w1s => true
  | _ => false
/-- What a write of `v` makes of one field (R16). -/
def Acc.write (a : Acc) (old v : Nat) : Nat :=
  match a with
  | .rw => v
  | .w1c => old - (old &&& v)
  | .w1s => old ||| v
  | _ => old
/-- The word that a write of `v` leaves in a register that held `old` (R16); reserved fields keep theirs (R12). -/
def RegDesc.written (d : RegDesc) (old v : Nat) : Word :=
  BitVec.ofNat 64 (d.fields.foldl (fun n f => n + f.acc.write (bits old f.lo f.len) (bits v f.lo f.len) * 2 ^ f.lo) 0)
/-- The shadow word that a write of `v` leaves (R16 RWS). -/
def RegDesc.shadowed (d : RegDesc) (old v : Nat) : Word :=
  BitVec.ofNat 64 (d.fields.foldl (fun n f =>
    n + (if f.acc = .rws then bits v f.lo f.len else bits old f.lo f.len) * 2 ^ f.lo) 0)

/-- Bits that a rule forces in a written word: TRC_FILTER.level_en bit 7, and the alert causes that are always enabled
(R516). -/
def Reg.force (r : Reg) (v : Nat) : Nat :=
  match r with
  | .TRC_FILTER => v ||| 2 ^ 29
  | .HRT_ALERT => v ||| 0x1F00
  | _ => v

/-- The write by access codes. -/
def Hub.plainWrite (r : Reg) (i v : Nat) (h : Hub) : Hub :=
  let v := r.force v
  let h := if r.desc.fields.any (fun f => f.acc == .rws) then
      h.setShadow r i (r.desc.shadowed (h.reg r i).toNat v) else h
  if r.desc.fields.any (fun f => f.acc.direct) then h.setReg r i (r.desc.written (h.reg r i).toNat v) else h
/-- A write stages in a transaction: some field is of type RW, RWS, W1C or W1S (R430). -/
def Reg.stages (r : Reg) : Bool := r.desc.fields.any fun f => f.acc.direct || f.acc == .rws

/-- What a plain register follows with. -/
def Hub.afterWrite (t : Nat) (r : Reg) (i : Nat) (h : Hub) : Hub :=
  match r with
  | .BLW_RAIL =>
    let d := if i % 4 = 0 then i / 4 else 8 + 3 * (i / 4) + (i % 4 - 1)
    h.modRail d fun x => { x with leak := none, clk := none }
  | .CRU_SPILL =>
    (if h.flag F.CRU_SPILL_valid then h else h.unbackSpill).resizePlans
  | .WFG_PEER => h.sweep t
  | _ => h

/-- A plain register's refusals: the values its table reserves, a shadowed field's included (R13), and addresses that
are misaligned or out of range; a misaligned address whose rule names no status is refused with ALIGN, as R438 says of
TXN_RPT (DEDUCED, assumption 54). Values that a group's rule leaves to its ARM (R337, R473) are taken into the shadow. -/
def plainRefusal (r : Reg) (v : Nat) : Option Status :=
  let res := fun (b : Bool) => if b then some Status.reserved else none
  match r with
  | .SPK_STEP_CFG => res (bits v 0 16 == 0)
  | .TIM_XCHIP_CFG => res (bits v 0 2 == 3 || decide (48 ≤ bits v 2 6) || decide (bits v 8 4 < 6 ∨ 14 < bits v 8 4))
  | .TRC_RING_CFG => res (decide (24 < bits v 0 5) || bits v 5 2 == 3)
  | .HWT_CTX_CFG => res (bits v 0 2 == 3)
  | .SWG_DEC_LIMIT => res (v == 0)
  | .VYN_CFG => res (bits v 1 2 == 3)
  | .HRT_EMBER_CFG => res (decide (bits v 0 8 < 2))
  | .HRT_FO_CFG => res (decide (bits v 0 8 < 20) || decide (bits v 8 8 < 2))
  | .CRU_SPILL_BASE | .HRT_EXP_DEST => if v % 4096 ≠ 0 then some .align else none
  | .HRT_RC_RVEC => if v % 8 ≠ 0 then some .align else none
  | .HRT_UPD_SRC => if v % 256 ≠ 0 then some .align else none
  | .TXN_RPT =>
    if !inScratch (bits v 0 48) (16 + 8 * bits v 48 16) then some .unmapped
    else if v % 8 ≠ 0 then some .align else none
  | _ => none

/-- A plain write of `v` to copy `i` of `r`. -/
def cmdPlain (h : Hub) (r : Reg) (i v : Nat) : RegCmd :=
  let k : RegCmd := { pre := fun _ => plainRefusal r v
                      body := fun t h => (.ok, (h.plainWrite r i v).afterWrite t r i) }
  if r.stages then k.at h r i (BitVec.ofNat 64 v) else k

/-- A write to the register of a group that holds its own ARM field (R426): with arm set it is the ARM of the shadow it
leaves, and a refused one has no effect on any part (R13). -/
def cmdArmed (h : Hub) (g : CfgGroup) (r : Reg) (v : Nat) : RegCmd :=
  if bitAt v (r.desc.width - 1) then
    { txn := .arm (.pkg g)
      pre := fun h => (cmdArm (.pkg g)).pre (h.plainWrite r 0 v)
      body := fun t h =>
        let x := (cmdArm (.pkg g)).body t (h.plainWrite r 0 v)
        if x.1 = .ok then x else (x.1, h) }
  else cmdPlain h r 0 v
/-- A write to a register whose one field is an ARM. -/
def cmdArmReg (g : GroupId) (v : Nat) : RegCmd :=
  if bitAt v 0 then cmdArm g else { txn := .arm g, body := fun _ h => (.ok, h) }
/-- A write that is refused with RESERVED. -/
def cmdReserved (k : RegCmd) : RegCmd := { k with pre := fun _ => some .reserved }
/-- A write that bits its op does not use refuse (R102). -/
def RegCmd.unless (k : RegCmd) (bad : Bool) : RegCmd := if bad then cmdReserved k else k
/-- A write of no effect, refused in its master's transaction. -/
def cmdNothing : RegCmd := { txn := .refuse, body := fun _ h => (.ok, h) }

/-! ### Command registers -/

/-- RCV_CMD (R362): the target bits an op does not use, and a reason of an op other than RECOVER and FENCE_ONLY, are
reserved (R102). -/
def rcvCmd (m : Master) (v : Nat) : RegCmd :=
  let target := bits v 0 16
  let reason := bits v 20 4
  let part := fun (k : RegCmd) => k.unless (decide (7 < target) || reason != 0)
  match bits v 16 4 with
  | 0 => (cmdFence m target reason false).unless (decide (7 < target))
  | 1 => (cmdFence m target reason true).unless (decide (7 < target))
  | 2 => part (cmdContinue m target)
  | 3 => part (cmdUnfence m target)
  | 4 => (cmdUnitReset m target).unless (reason != 0)
  | 5 => (cmdLinkRetrain m target).unless (reason != 0)
  | 6 => (cmdRetire m).unless (target != 0 || reason != 0)
  | _ => cmdReserved cmdNothing

/-- WFG_OBJ_CMD (R352): its level by op, and its meaning. -/
def objCmd (m : Master) (v : Nat) : Nat × RegCmd :=
  let o := bits v 0 16
  let rest := bits v 18 19 != 0
  match bits v 16 2 with
  | 0 => (2, (cmdObjRead m o).unless rest)
  | 1 => (3, cmdObjDeclare o (bits v 18 2) (bitAt v 20) (bits v 21 16))
  | 2 => (3, (cmdObjForget o).unless rest)
  | _ => (2, cmdReserved cmdNothing)

/-- HRT_UPD_CMD (R446): VERIFY and ACTIVATE use neither offset nor length. -/
def updCmd (v : Nat) : RegCmd :=
  let x : UpdX := { op := bits v 0 3, slot := bits v 3 1, offset := bits v 8 24 * 256, length := bits v 32 24 * 256 }
  (cmdUpdate x).unless (decide (3 < x.op) || (decide (1 < x.op) && (x.offset != 0 || x.length != 0)))

/-- LCK_REQ (R159). -/
def lockCmd (m : Master) (v : Nat) : RegCmd :=
  let l := bits v 0 8
  let wait := bits v 16 32
  match bits v 8 2 with
  | 0 => (cmdLockAcquire m l wait).alone
  | 1 => (cmdLockRelease m l false).alone.unless (wait != 0)
  | 2 => (cmdLockRelease m l true).alone.unless (wait != 0)
  | _ => cmdReserved cmdNothing

/-- TXN_CMD (R429, R431, R436). -/
def txnCmd (m : Master) (v : Nat) : RegCmd :=
  match bits v 0 2 with
  | 0 => (cmdTxnOpen m).unless (bits v 2 4 != 0)
  | 1 => cmdTxnCommit m (bits v 2 4)
  | 2 => cmdTxnAbort m (bits v 2 4)
  | _ => cmdReserved cmdNothing

/-- AUT_RCPT_CMD (R504). -/
def rcptCmd (v : Nat) : RegCmd :=
  let a := bits v 0 48
  let n := bits v 48 3
  match bits v 51 2 with
  | 0 => cmdRcptRegister n a
  | 1 => (cmdRcptClear n).unless (a != 0)
  | 2 => (cmdRcptLock n).unless (a != 0)
  | _ => cmdReserved cmdNothing

/-- HRT_RC_CMD (R199). -/
def runCtlCmd (m : Master) (v : Nat) : RegCmd :=
  let op : Option RunOp := match bits v 16 2 with
    | 0 => some .halt
    | 1 => some .run
    | 2 => some .step
    | _ => none
  match op with
  | some op => cmdRunControl m op (bits v 0 16) (bitAt v 18) (bitAt v 19) (bits v 20 16)
  | none => cmdReserved cmdNothing

/-- SPK_UNIT_CTL_u: halt_on_fault is written, and probe sends a probe (R180). -/
def unitCtlCmd (h : Hub) (i v : Nat) : RegCmd :=
  let k := cmdPlain h .SPK_UNIT_CTL i v
  if bitAt v 1 then
    { k with body := fun t h => (cmdProbe (i / 256 * 2048 + i % 256)).body t (h.plainWrite .SPK_UNIT_CTL i v) }
  else k

/-- A write to a special register (R105, R130, R132): what it does, by a core itself or a debugger. -/
def Hub.sprWrite (t c : Nat) (r : Reg) (v : Word) (h : Hub) : Hub :=
  let n := v.toNat
  match r with
  | .STK_XCTL => if bitAt n 0 then h.modCore c fun x => { x with exitArmed := true } else h
  | .STK_WDOG_KICK => if bitAt n 0 then h.wdogLoad t c (h.cget F.STK_WDOG_reload_us c) else h
  | .STK_WDOG => (h.plainWrite r (coreIdx c) n).wdogLoad t c (bits n 0 32)
  | _ => h.plainWrite r (coreIdx c) n
/-- The result buffer that a write to STK_RVEC names leaves local memory (R129). -/
def rvecBad (c : Nat) (v : Word) : Bool :=
  let n := v.toNat
  bits n 32 16 != 0 && decide (localSize c < bits n 3 29 * 8 + vectorBytes (bits n 32 16))
/-- A write to an SPR through the hub address space (R136): only while its core is halted. A buffer that leaves local
memory is a reserved value there (DESIGN CHOICE, assumption 47). -/
def sprCmd (h : Hub) (c : Nat) (r : Reg) (v : Word) : RegCmd :=
  let k : RegCmd :=
    { pre := fun _ => if r == .STK_RVEC && rvecBad c v then some .reserved else none
      body := fun t h => if h.coreState c ≠ 1 then (.busy, h) else (.ok, h.sprWrite t c r v) }
  if r.stages then k.at h r (coreIdx c) v else k

/-- A write of the word `v` to a copy of a register by master `m`: the level it needs and what it does. An offer of the
spill buffer that comes over the host path finds that path working again (R256). DESIGN CHOICE (assumption 12). -/
def Hub.writeCmd (h : Hub) (m : Master) (x : RegCopy) (v : Nat) : Nat × RegCmd :=
  let r := x.reg
  let i := x.copy
  let w := BitVec.ofNat 64 v
  let core := (coreCopy r i).getD 0
  let std := fun (k : RegCmd) => (r.writeLevel, k)
  if r.desc.block == .spr then std (sprCmd h core r w)
  else
  match r with
  | .TIM_STEP => std (cmdTimStep w)
  | .TIM_XCHIP_CFG => std (cmdArmed h .tim r v)
  | .BLW_CFG => std (cmdArmed h .blw r v)
  | .BNK_CFG => std (cmdArmed h .bnk r v)
  | .WFG_CFG => std (cmdArmed h .wfg r v)
  | .RCV_CFG => std (cmdArmed h .rcv r v)
  | .LDG_CFG => std (cmdArmed h .ldg r v)
  | .TRC_ARM => std (cmdArmReg (.pkg .trc) v)
  | .HRT_HGRP_ARM => std (cmdArmReg (.pkg .hgrp) v)
  | .HWT_ARM => std (cmdArmReg (.pkg .hwt) v)
  | .HTRG_ARM => std (cmdArmReg (.trg 8) v)
  | .TRG_ARM => std (cmdArmReg (.trg i) v)
  | .SPN_ARM => std (cmdArmReg (.spn i) v)
  | .PAT_ARM => std (cmdArmReg .pat v)
  | .TIM_WALL_OFFSET => std (cmdWall w |>.at h r i w)
  | .TIM_TRIM => std (cmdTrim i (BitVec.ofNat 12 v) |>.at h r i w)
  | .TRC_CTRL => std (cmdTrcCtrl (bitAt v 0) (bitAt v 1) |>.at h r i w)
  | .HRT_RCP_LOAD => std (cmdRecipeLoad m (bits v 0 48) (bits v 48 16))
  | .LCK_REQ => std (lockCmd m v)
  | .HRT_RC_CMD => std (runCtlCmd m v)
  | .HRT_QCH_CMD => std (if bitAt v 32 then cmdReheat m (bits v 0 32) else cmdQuench m (bits v 0 32))
  | .CRU_PLAN =>
    let addr := bits v 0 48
    std (if bitAt v 48 then cmdPlanRegister m i addr |>.at h r i w else cmdPlanClear i (some addr) |>.at h r i w)
  | .CRU_START => std (cmdCaptureStart m (bits v 0 6))
  | .CRU_CANCEL => std (cmdCaptureCancel (bits v 0 16))
  | .CRU_RELEASE => std (cmdCaptureRelease (bits v 0 16))
  | .SWG_CHAIN => std (cmdSwgChain m (bits v 48 16) (bits v 0 48))
  | .SWG_CANCEL => std (cmdSwgCancel m (bits v 0 16))
  | .HWT_EST_SEL => std (cmdEstSel m (bits v 0 11) (bits v 12 4) (bitAt v 16))
  | .WFG_CMD =>
    (2, match bits v 0 2 with
      | 0 => cmdAnalyze.unless (bits v 3 61 != 0)
      | 1 => cmdDump (bits v 3 45 * 8) (bits v 48 16)
      | _ => cmdReserved cmdNothing)
  | .WFG_OBJ_CMD => objCmd m v
  | .RCV_CMD => std (rcvCmd m v)
  | .LDG_ACK => std (cmdLedgerAck w |>.at h r i w)
  | .LDG_TAG_CMD => std (cmdTag m (bits v 0 16) (bits v 16 48))
  | .LDG_COEF_LOAD => std ((cmdCoefLoad (bits v 0 48) (bitAt v 48)).unless (bitAt v 48 && bits v 0 48 != 0))
  | .TXN_CMD => std (txnCmd m v)
  | .TXN_AT | .TXN_RPT | .HRT_FO_CFG | .HRT_UPD_SRC => std (cmdPlain h r i v).alone
  | .HRT_FO_CMD =>
    std (match bits v 0 2 with
      | 0 => cmdFailover
      | 1 => cmdRestandby
      | _ => cmdReserved cmdNothing)
  | .HRT_UPD_CMD => std (updCmd v)
  | .CRU_MAPOUT => std (cmdMap { mapIn := bitAt v 6, group := bits v 0 6 })
  | .TIM_RECAL => std (cmdRecal (if bitAt v 5 then List.range 32 else [bits v 0 5]))
  | .STK_DBG_CTL => std (cmdDbgCtl m core v |>.at h r i w)
  | .STK_DBG_LADDR => std (cmdLaddr i v |>.at h r i w)
  | .STK_DBG_LDATA => std (cmdLdata core w |>.at h r i w)
  | .STK_DBG_PC | .STK_DBG_GPR => std (cmdCoreReg r i core w |>.at h r i w)
  | .STK_VT_IN => std (cmdVtIn core w)
  | .STK_VT_STAT => std (if bitAt v 0 then cmdVtRelease core |>.at h r i w else cmdPlain h r i v)
  | .AUT_RCPT_CMD => std (rcptCmd v)
  | .HRT_EXP_CMD => std (cmdHostExport m (bits v 0 16) (bits v 16 8) (bitAt v 24) (bitAt v 25) (bits v 32 32))
  | .CRU_SPILL =>
    let k := cmdPlain h r i v
    std { k with body := fun t h => k.body t (if m.kind = 1 ∧ bitAt v 32 then { h with hostPath := true } else h) }
  | .HRT_ALERT =>
    let k := cmdPlain h r i v
    std { k with body := fun t h =>
      (cmdAlert (bits v 0 8)).body t (h.put F.HRT_ALERT_enable 0 (bits v 8 8 ||| 0x1F)) }
  | .HRT_RESET_CMD =>
    match bits v 0 2 with
    | 0 => (4, cmdHearthRestart)
    | 1 => (3, cmdReboot)
    | _ => (3, cmdReserved cmdReboot)
  | .HRT_EMBER_CMD => std (if bitAt v 0 then cmdEmberExit else cmdEmberEnter)
  | .SPK_UNIT_CTL => std (unitCtlCmd h i v)
  | _ => std (cmdPlain h r i v)

end Sys2Proof.Machine
end

