-- ==== Sys2Proof/Machine/RegRead.lean ====
section
/-! DEFINITION. What a read of each register returns (R16): the word it holds, or what the register shows of the hub at
the instant of the read. -/

namespace Sys2Proof.Machine

open Sys2Proof

/-- The word as a read returns it: WO and reserved fields read zero, RWS fields their shadow (R16). -/
def RegDesc.readable (d : RegDesc) (word shadow : Nat) : Nat :=
  d.fields.foldl (fun n f =>
    n + (match f.acc with
      | .wo => 0
      | .rws => bits shadow f.lo f.len
      | _ => bits word f.lo f.len) * 2 ^ f.lo) 0
/-- The register as it stands. -/
def Hub.storedWord (h : Hub) (r : Reg) (i : Nat) : Nat := r.desc.readable (h.reg r i).toNat (h.shadowReg r i).toNat

/-- The pending poke at a place of a spoke's queue. -/
def Hub.ppqAt (h : Hub) (n k : Nat) : Option PendingPoke := (h.spoke n).ppq[k]?
/-- The bytes of a list of ranges. -/
def sizeOf_ (rs : List (Nat × Nat)) : Nat := (rs.map Prod.snd).foldl (· + ·) 0
/-- The spokes that own a target of an action (R432); none where the Hearth block owns it. -/
def Hub.ownersOf (h : Hub) (a : StagedAct) : List Nat :=
  match a with
  | .write a _ =>
    if 0x100000 ≤ a ∧ a < 0x2100000 then [a / 0x100000 - 1]
    else if inCrucible a 1 then [a / 0x20000000 - 8] else []
  | .poke u g _ _ _ | .pokep u g _ _ | .run _ u g _ => ((h.targets u g).map dieOf).eraseDups
  | .quench _ | .reheat _ => []
/-- The actions held on spoke `n` between their prepare and their commit. -/
def Hub.stagedOn (h : Hub) (n : Nat) : Nat :=
  ((List.range 16).flatMap fun x =>
    if h.txnState x = 2 ∨ h.txnState x = 3 then (h.txn x).acts.filter fun a => (h.ownersOf a).contains n else []).length

/-- What copy `i` of a register shows at Chip Time `t` to master copy `mi`. -/
def Hub.shownWord (h : Hub) (t : Nat) (m : Master) (r : Reg) (i : Nat) : Nat :=
  let word := h.storedWord r i
  let core := (coreCopy r i).getD 0
  let n := i / r.desc.perBlock
  let k := i % r.desc.perBlock
  match r with
  | .TIM_NOW => h.replica t h.hearthDie
  | .TIM_XCHIP_OFFSET => setBits word 32 32 (h.holdoverBound t)
  | .STK_WDOG_COUNT => h.wdogLeft t core
  | .STK_SLOTDESC => ((h.slot core k).map Slot.desc).getD 0
  | .STK_SLOTPEND => h.slotPend core
  | .STK_SLOTARMED => h.slotArmed core
  | .STK_DBG_STATUS => setBits word 0 3 (h.coreState core)
  | .SPK_PPQ_STATUS => setBits word 0 5 (h.spoke n).ppq.length
  | .SPK_PPQ_ENTRY => ((h.ppqAt n k).map fun p => p.unit + p.off13 * 2 ^ 16 + p.stager * 2 ^ 32).getD 0
  | .SPK_PPQ_DATA => ((h.ppqAt n k).map fun p => p.data.toNat).getD 0
  | .BNK_LINK => setBits word 6 26 (if h.isBanked i then sat 26 ((t - (h.link i).bankedAt) / ms 1) else 0)
  | .SPK_CAP_STATUS => setBits (setBits word 16 4 (h.credits n false)) 20 4 (h.credits n true)
  | .CRU_NODE =>
    setBits (setBits word 0 14 (sizeOf_ (h.freeRuns n) / 0x10000)) 16 14 (sizeOf_ (h.heldExtents n) / 0x10000)
  | .SWG_ENG =>
    setBits word 3 1 (b2n (h.captureWaits n))
  | .SPN_REQ => if spnPresent n k && k != 16 && k != 17 then word else 0
  | .HWT_CTX_STATUS => (h.ctxStatusWord i).toNat
  | .HWT_EST => (h.estWord (h.master m).estSel).toNat
  | .RCV_ESC => setBits word 0 4 (min 15 (h.resetsIn t))
  | .SPK_TXN_STAGE => setBits word 0 13 (h.stagedOn n)
  | .SPK_SOCK =>
    let u := n * 2048 + k / 128
    if h.uget F.SPK_SOCK_STATUS_valid u = 1 then sockWord u (k % 128)
    else if h.uget F.SPK_SOCK_STATUS_fault u = 0 then 0
    else (Config.badDescriptor u (k % 128)).toNat
  | .AUT_STATUS => setBits word 0 1 (b2n Config.production)
  | .AUT_IDENT =>
    if i = 2 then Config.jtagIdcode % 2 ^ 32 else ofBytesLE ((Config.chipIdentity.drop (8 * i)).take 8)
  | .AUT_ANCHOR => Config.anchorBits i % 32 + ofBytesLE ((Config.anchorDigest i).take 4) * 2 ^ 32
  | _ => word

/-- What a read changes: RC fields clear, or restart from what they count now (R16); a waiting analysis ends before
WFG_ROOT is read (R358); a lease that is due lapses before its lock is read (R125). -/
def Hub.readEffect (r : Reg) (i : Nat) (h : Hub) : Hub :=
  let n := i / r.desc.perBlock
  match r with
  | .TRC_COLLECT => h.sput F.TRC_COLLECT_fifo_peak n 0 (min 512 (h.spoke n).fifo.length)
  | .SPN_MAXWAIT => h.put F.SPN_MAXWAIT_max_wait i 0
  | .LDG_ATTR => h.sput F.LDG_ATTR_rows_peak n 0 (h.ledger.rowsOf n)
  | _ => h
/-- What happens before a read. -/
def Hub.beforeRead (t : Nat) (r : Reg) (i : Nat) (h : Hub) : Hub :=
  match r with
  | .WFG_ROOT => h.endReadAnalyses t
  | .LCK_STATE => h.settle t i
  | _ => h

/-- A read of a copy of a register: its status, its word, and what it leaves. A word of the standby Hearth shows the
fields it mirrors, and resets of the others (R36, R440). DEDUCED (assumption 48). -/
def Hub.readReg (t : Nat) (m : Master) (x : RegCopy) (standby : Bool) (h : Hub) : Status × Word × Hub :=
  let h := h.beforeRead t x.reg x.copy
  if x.reg = .STK_DBG_LDATA then h.readLdata ((coreCopy x.reg x.copy).getD 0)
  else
    let w := BitVec.ofNat 64 (h.shownWord t m x.reg x.copy)
    if standby ∧ x.reg.desc.block = .hearth then (.ok, surviveWord x.reg x.copy .f w, h)
    else (.ok, w, h.readEffect x.reg x.copy)

end Sys2Proof.Machine
end

