-- ==== Sys2Proof/Machine/HubSpace.lean ====
section
/-! DEFINITION. The hub address space (R35 to R40): what an address names, the checks of an access in R567's order, and
the access itself (R95, R96, R472). -/

namespace Sys2Proof.Machine

open Sys2Proof

/-- What a hub address names. -/
inductive Target where
  | reg (x : RegCopy) (standby : Bool)
  | scratch
  | crucible
  | flash
  | window (unit word : Nat)
  deriving DecidableEq, Repr

/-- The copy belongs to a unit that its die does not populate: its offset is UNMAPPED. -/
def RegCopy.absent (x : RegCopy) : Bool :=
  let d := x.reg.desc
  let n := x.copy / d.perBlock
  let k := x.copy % d.perBlock
  match x.reg with
  | .SPK_UNIT_STATE | .SPK_UNIT_CTL | .SPK_SOCK_STATUS => decide (unitsOnDie n ≤ k)
  | .SPK_SOCK => decide (unitsOnDie n ≤ k / 128)
  | _ => false
/-- The register at an address, for master copy `m`. -/
def Hub.regHere (h : Hub) (m a : Nat) : Option RegCopy := (h.regAt m a).filter fun x => !x.absent
/-- The address lies inside a register, past its first byte (R10). -/
def Hub.insideReg (h : Hub) (m a : Nat) : Bool :=
  [1, 2, 3, 4, 5, 6, 7].any fun k =>
    decide (k ≤ a) && ((h.regHere m (a - k)).map fun x => decide (k < x.reg.desc.width / 8)).getD false

/-- The address lies in a range that R37's UNMAPPED does not refuse. -/
def inRegs (a : Nat) : Bool := decide (a < 0x2100000)
/-- The first address of the unit debug windows. -/
def windowBase : Nat := 0x1000000000

/-- What an address names for master copy `m`, with an access of `width` bytes (0: the target's own width): RESERVED,
UNMAPPED, NO_UNIT and ALIGN, in the order of R567. Memory and windows take 64-bit words from every master (R95; DEDUCED,
assumption 49). -/
def Hub.target (h : Hub) (m a width : Nat) : Except Status Target :=
  let aligned := fun (x : Target) (own : Nat) =>
    let w := if width = 0 then own else width
    if w = own ∧ a % own = 0 then Except.ok x else .error .align
  if flashBase + 0x4000000 ≤ a then .error .reserved
  else if inRegs a then
    match h.regHere m a with
    | some x => aligned (.reg x (decide (0x80000 ≤ a) && decide (a < 0x100000))) (x.reg.desc.width / 8)
    | none => .error (if h.insideReg m a then .align else .unmapped)
  else if inScratch a 1 then aligned .scratch 8
  else if inCrucible a 1 then aligned .crucible 8
  else if windowBase ≤ a ∧ a < windowBase + 0x100000000 then
    let u := (a - windowBase) / 0x10000
    if !unitOk u then .error .noUnit else aligned (.window u (a % 0x10000 / 8)) 8
  else if flashBase ≤ a then aligned .flash 8
  else .error .unmapped

/-! ### Levels (R480) -/

/-- The level that a Crucible address needs for a read. -/
def Hub.crucibleLevel (h : Hub) (a : Nat) : Nat :=
  if (List.range 8).any fun p => overlaps (a, 1) (h.ledgerShare p, 8 * mib) then 1
  else if (List.range 8).any fun p => h.segBase p != 0 && overlaps (a, 1) (h.segBase p, h.segSize) then 2
  else 3
/-- The level a read needs. -/
def Hub.readNeeds (h : Hub) (x : Target) (a : Nat) : Nat :=
  match x with
  | .reg r _ => r.reg.readLevel
  | .crucible => h.crucibleLevel a
  | .scratch | .flash | .window _ _ => 2
/-- The level a write of `v` needs. A write that R245 or R40 refuses whatever its master needs none. -/
def Hub.writeNeeds (h : Hub) (m : Master) (x : Target) (a v : Nat) : Nat :=
  match x with
  | .reg r _ => (h.writeCmd m r v).1
  | .crucible => if h.inReserved a 8 then 0 else 3
  | .scratch | .window _ _ => 3
  | .flash => 0

/-! ### The state of the target (R36, R38 to R40) -/

/-- A register's block has no power (R38): that of its spoke, or of its Swage engine; the debug domain's registers have
it always, but for those that hold core state (R458). -/
def Hub.regOff (h : Hub) (x : RegCopy) : Bool :=
  match x.reg.desc.block with
  | .hearth => false
  | .dbg =>
    match x.reg with
    | .STK_DBG_PC | .STK_DBG_GPR | .STK_DBG_LDATA => ((coreCopy x.reg x.copy).map fun c => !h.coreOn c).getD false
    | _ => false
  | .spr => ((coreCopy x.reg x.copy).map fun c => !isHearthCore c && !h.spokeOn (dieOf c)).getD false
  | .spoke | .anvil =>
    let n := x.copy / x.reg.desc.perBlock
    !h.spokeOn n || (match x.reg with
      | .SWG_ENG | .SWG_JOB | .SWG_JOB_DESC | .SWG_JOB_PROG | .SWG_COUNT => !h.domainOn (96 + n)
      | _ => false)
/-- The bank group of a Crucible address. -/
def groupOf (a : Nat) : Nat := (a - 0x100000000) / 0x4000000
/-- What a Crucible access of either kind is refused with: a switched-off group (R561), a mapped-out one (R39). -/
def Hub.groupState (h : Hub) (a : Nat) : Option Status :=
  let g := groupOf a
  if !h.mappedIn (g / 8) (g % 8) then some .mappedOut
  else if !h.domainOn g then some .poweredOff
  else none
/-- What the state of a target refuses a read with; PC and general registers are read while their core is HALTED or
STOPPED (R470). -/
def Hub.readState (h : Hub) (x : Target) (a : Nat) : Option Status :=
  match x with
  | .reg r _ =>
    if h.regOff r then some .poweredOff
    else
      match r.reg with
      | .STK_DBG_PC | .STK_DBG_GPR =>
        match coreCopy r.reg r.copy with
        | some c => if h.coreState c = 1 ∨ h.coreState c = 2 then none else some .busy
        | none => none
      | _ => none
  | .crucible => h.groupState a
  | .window u _ => if h.spokeOn (dieOf u) then none else some .poweredOff
  | .scratch | .flash => none
/-- What the state of a target refuses a write with: READ_ONLY under R40, R245 and R250, STANDBY under R36 except for the
failover controls (R445). -/
def Hub.writeState (h : Hub) (x : Target) (a : Nat) : Option Status :=
  match x with
  | .reg r standby =>
    if h.regOff r then some .poweredOff
    else if standby && r.reg != .HRT_FO_CMD then some .standby
    else none
  | .crucible => (h.groupState a).orElse fun _ => if h.crucibleReadOnly a 8 then some .readOnly else none
  | .scratch => if h.planReadOnly a 8 then some .readOnly else none
  | .window u _ => if h.spokeOn (dieOf u) then none else some .poweredOff
  | .flash => some .readOnly

/-! ### Accesses -/

/-- The source ID that a window access by a master other than a core carries. DESIGN CHOICE (assumption 50). -/
def issuerOf (m : Master) : Nat :=
  match m with
  | .core c => c
  | _ => 0xFFFF

/-- A read of the hub address space by master `m`: its status, its word zero-extended, and what it leaves. -/
def Hub.busRead (t : Nat) (m : Master) (a width : Nat) (h : Hub) : Status × Word × Hub :=
  match h.target m.idx a width with
  | .error st => (st, 0, h)
  | .ok x =>
    if h.levelOf m < h.readNeeds x a then (.auth, 0, h.authRefused)
    else
      match h.readState x a with
      | some st => (st, 0, h)
      | none =>
        match x with
        | .reg r standby => h.readReg t m r standby
        | .window u w => h.readUnit t u w false (issuerOf m)
        | .flash => (.ok, BitVec.ofNat 64 (ofBytesLE (h.patched a 8)), h)
        | .scratch | .crucible => (.ok, BitVec.ofNat 64 (h.rd a 8), h)

/-- The checks that the spine port makes of a write before it is sent (R97): RESERVED, UNMAPPED, ALIGN and AUTH. -/
def Hub.portCheck (h : Hub) (m : Master) (a width v : Nat) : Status :=
  match h.target m.idx a width with
  | .error .noUnit => if a % 8 ≠ 0 then .align else if h.levelOf m < 3 then .auth else .ok
  | .error st => st
  | .ok x => if h.levelOf m < h.writeNeeds m x a v then .auth else .ok

/-- A write to a unit's window is a POKE without flags (R96). -/
def Hub.windowWrite (t u w : Nat) (v : Word) (h : Hub) : Status × Hub :=
  match h.refusesUnit u with
  | some st => (st, h)
  | none => h.writeUnit t u w v false

/-- A write of the hub address space by master `m`, which has transaction `own` open: its status, and what it leaves. -/
def Hub.busWriteIn (own : Option Nat) (t : Nat) (m : Master) (a width : Nat) (v : Word) (h : Hub) : Status × Hub :=
  match h.target m.idx a width with
  | .error st =>
    match st, own with
    | .noUnit, some y =>
      match h.portCheck m a width v.toNat with
      | .ok => h.stage y (.poke ((a - windowBase) / 0x10000) false (a % 0x10000 / 8) v false)
      | .auth => (.auth, h.authRefused)
      | st => (st, h)
    | _, _ => (st, h)
  | .ok x =>
    match x with
    | .reg r _ =>
      let n := v.toNat % 2 ^ r.reg.desc.width
      let k := h.writeCmd m r n
      h.runCmdIn own t m k.1 { k.2 with gate := fun h => h.writeState x a }
    | _ =>
      if h.levelOf m < h.writeNeeds m x a v.toNat then (.auth, h.authRefused)
      else
        match x, own with
        | .window u w, some y => h.stage y (.poke u false w v false)
        | .scratch, some y | .crucible, some y => h.stage y (.write a v)
        | _, _ =>
          match h.writeState x a with
          | some st => (st, h)
          | none =>
            match x with
            | .window u w => h.windowWrite t u w v
            | _ => (.ok, h.wr a 8 v.toNat)

/-- A write in the transaction that master `m` has open, if any. -/
def Hub.busWrite (t : Nat) (m : Master) (a width : Nat) (v : Word) (h : Hub) : Status × Hub :=
  h.busWriteIn (h.openTxn m) t m a width v

end Sys2Proof.Machine
end

