-- ==== Sys2Proof/Machine/HubInstr.lean ====
section
/-! DEFINITION. The Striker instructions that reach the hub address space and the special registers: HLD, HST, FENCE
(R95 to R99), SPRR and SPRW (R105, R136), and the way out of an exception and the watchdog's kick (R130, R132). -/

namespace Sys2Proof.Machine

open Sys2Proof

/-! ### HLD -/

/-- The address lies in the Hearth register block, which waits while the hub is in FAILOVER (R110). -/
def inHearthBlock (a : Nat) : Bool := decide (a < 0x100000)
/-- Core `c` has an uncompleted posted write to the 8-byte word of an address (R98). -/
def Hub.postedTo (h : Hub) (c a : Nat) : Bool := (h.core c).posted.any fun w => w.addr / 8 == a / 8

/-- HLD once the Hearth serves it (R95, R98): it waits for the core's own posted write to its word. -/
def effHld (t c : Nat) (rd : RegNo) (a : Nat) (h : Hub) : Effect :=
  if h.postedTo c a then .stay (h.modCore c fun x => { x with wait := .hld rd a })
  else
    let r := h.busRead t (.core c) a 0
    r.2.2.endResult c rd r.2.1 r.1
/-- An access to the Hearth register block waits while the hub is in FAILOVER (R110). -/
def hearthAccess (c a : Nat) (op : HearthOp) (f : Hub → Effect) (h : Hub) : Effect :=
  if inHearthBlock a then hearthEffect c op f h else f h

/-- HLD (R95). -/
def execHld (c : Nat) (rd rs1 : RegNo) (imm : Imm16) (s : State) : Out :=
  s.instr c fun t h => sEffect rd <|
    hearthAccess c (h.effAddr c rs1 imm) (.hld rd (h.effAddr c rs1 imm)) (effHld t c rd (h.effAddr c rs1 imm)) h

/-! ### HST -/

/-- A posted write joins the core's queue (R97, R98). -/
def Hub.post (t c a : Nat) (v : Word) (h : Hub) : Hub :=
  h.modCore c fun x => { x with
    posted := x.posted ++ [{ issued := t, level := h.coreLevel c, addr := a, width := 0, value := v }] }
/-- A write that an open transaction of its master refuses or stages (R430); every other one is carried out. -/
def Hub.txnTakes (h : Hub) (m : Master) (a v : Nat) : Bool :=
  match h.target m.idx a 0 with
  | .ok (.reg r _) =>
    match (h.writeCmd m r v).2.txn with
    | .now => false
    | _ => true
  | .ok .flash => false
  | .error st => st == .noUnit
  | .ok _ => true

/-- HST once the Hearth serves it (R97): the port's checks, then it is posted, or with a transaction open staged. -/
def effHst (t c a : Nat) (v : Word) (h : Hub) : Effect :=
  match h.portCheck (.core c) a 0 v.toNat with
  | .ok =>
    if (h.openTxn (.core c)).isSome && h.txnTakes (.core c) a v.toNat then
      let r := h.busWrite t (.core c) a 0 v
      r.2.endStatus c r.1
    else (h.post t c a v).endStatus c .ok
  | .auth => h.authRefused.endStatus c .auth
  | st => h.endStatus c st

/-- HST (R97). -/
def execHst (c : Nat) (rs2 rs1 : RegNo) (imm : Imm16) (s : State) : Out :=
  s.instr c fun t h =>
    hearthAccess c (h.effAddr c rs1 imm) (.hst (h.effAddr c rs1 imm) (h.gpr c rs2))
      (effHst t c (h.effAddr c rs1 imm) (h.gpr c rs2)) h

/-! ### FENCE and completion -/

/-- What FENCE reports (R99): the count of refused writes, the first refusal's status, and STK_HSTFAIL. -/
def Hub.fenceReport (c : Nat) (rd : RegNo) (h : Hub) : Hub :=
  let x := h.core c
  let n := BitVec.ofNat 64 x.refused
  let h := h.modCore c fun x => { x with refused := 0, firstFail := none }
  match x.firstFail with
  | none => (h.setGpr c rd n).setStatus c .ok
  | some (a, st) =>
    ((h.setReg .STK_HSTFAIL (coreIdx c) (BitVec.ofNat 64 (a % 2 ^ 48 + st * 2 ^ 48))).setGpr c rd n).setStatus c
      (Status.ofCode st)

/-- FENCE (R99). -/
def effFence (c : Nat) (rd : RegNo) (h : Hub) : Effect :=
  if (h.core c).posted.isEmpty then .done (h.fenceReport c rd)
  else .stay (h.modCore c fun x => { x with wait := .fence rd })
/-- FENCE (R99). -/
def execFence (c : Nat) (rd : RegNo) (s : State) : Out := s.instr c fun _ h => sEffect rd (effFence c rd h)

/-- A core that waits for its posted writes goes on when it can (R98, R99). -/
def Hub.wakePosted (t c : Nat) (h : Hub) : Hub :=
  match (h.core c).wait with
  | .fence rd => (effFence c rd h).finish t c h
  | .hld rd a => (effHld t c rd a h).finish t c h
  | _ => h
/-- A posted write at its target, at the level it was issued at: a core reset since then does not discard it (R135). -/
def Hub.postedWrite (t c : Nat) (w : Posted) (h : Hub) : Status × Hub :=
  let now := h.coreLevel c
  let r := (h.cput F.STK_AUTH_level c w.level).busWriteIn none t (.core c) w.addr w.width w.value
  (r.1, r.2.cput F.STK_AUTH_level c now)
/-- The oldest posted write of core `c` completes at its target; a refusal is kept for FENCE (R98, R99). In FAILOVER one
to the Hearth register block stays (R110). -/
def Hub.completePosted (t c : Nat) (h : Hub) : Hub :=
  match (h.core c).posted with
  | [] => h
  | w :: rest =>
    if h.failover && inHearthBlock w.addr then h
    else
      let r := (h.modCore c fun x => { x with posted := rest }).postedWrite t c w
      let h := if r.1.took then r.2 else r.2.modCore c fun x =>
        { x with refused := x.refused + 1, firstFail := x.firstFail.orElse fun _ => some (w.addr, r.1.code) }
      h.wakePosted t c
/-- POSTED_WRITE_COMPLETE (R98). -/
def execPostedWriteComplete (c : Nat) (s : State) : Out := s.liftBus (coreOk c) fun t h => h.completePosted t c

/-! ### Special registers -/

/-- The special register of a number, and its copy on core `c`. -/
def sprOf (c : Nat) (spr : BitVec 12) : Option RegCopy :=
  (regIn (· == .spr) (spr.toNat * 8)).map fun x => { x with copy := coreIdx c * x.reg.desc.perBlock + x.copy }
/-- SPRR (R105), which leaves h31 alone unless it is rd: an unassigned number raises ILLEGAL_SPR (R129). -/
def effSprr (t c : Nat) (rd : RegNo) (spr : BitVec 12) (h : Hub) : Effect :=
  match sprOf c spr with
  | none => .raise .illegalSpr 0
  | some x =>
    let r := h.readReg t (.core c) x false
    .done (r.2.2.setGpr c rd r.2.1)
/-- SPRR (R105). -/
def execSprr (c : Nat) (rd : RegNo) (spr : BitVec 12) (s : State) : Out :=
  s.instr c fun t h => effSprr t c rd spr h
/-- SPRW (R105, R136), which leaves h31 alone: a write to an RO register is ignored, and one to a register that an open
transaction has prepared has no effect (R435). A result buffer that leaves local memory raises LOCAL_RANGE (R129), with
the buffer's first address in STK_BADADDR. DESIGN CHOICE (assumption 68): R130 does not say which address of the buffer. -/
def effSprw (t c : Nat) (spr : BitVec 12) (v : Word) (h : Hub) : Effect :=
  match sprOf c spr with
  | none => .raise .illegalSpr 0
  | some x =>
    if x.reg = .STK_RVEC ∧ rvecBad c v then .raise .localRange (bits v.toNat 3 29 * 8)
    else if h.claimed (.core c) (.act (.write (h.regAddr x.reg x.copy) v)) then .done h
    else .done (h.sprWrite t c x.reg v)
/-- SPRW (R105). -/
def execSprw (c : Nat) (spr : BitVec 12) (rs1 : RegNo) (s : State) : Out :=
  s.instr c fun t h => effSprw t c spr (h.gpr c rs1) h

/-- XCTL_EXIT (R130): 1 is written to STK_XCTL.exit, and the next JALR leaves the exception. -/
def execXctlExit (c : Nat) (s : State) : Out := s.liftIf (coreOk c) fun t h => h.sprWrite t c .STK_XCTL 1
/-- WDOG_KICK (R132): 1 is written to STK_WDOG_KICK, and the count reloads. -/
def execWdogKick (c : Nat) (s : State) : Out := s.liftIf (coreOk c) fun t h => h.sprWrite t c .STK_WDOG_KICK 1

end Sys2Proof.Machine
end

