-- ==== Sys2Proof/Machine/BusFrames.lean ====
section
/-! DEFINITION. READ and WRITE inner frames, whose elements the debug access master carries out (R472, R496), and a
master's write to a register that has no command of its own (R16). -/

namespace Sys2Proof.Machine

open Sys2Proof

/-- `n` consecutive elements of `w` bytes from `a` up are read until one is refused: the status, and the bytes read. -/
def Hub.readRun (t : Nat) (m : Master) (w : Nat) : (n a : Nat) → (got : List Byte) → Hub → Status × List Byte × Hub
  | 0, _, got, h => (.ok, got, h)
  | n + 1, a, got, h =>
    let r := h.busRead t m a w
    if r.1.took then r.2.2.readRun t m w n (a + w) (got ++ bytesLE w r.2.1.toNat) else (r.1, got, r.2.2)
/-- `n` consecutive elements are written until one is refused: the status, and the bytes done. -/
def Hub.writeRun (t : Nat) (m : Master) (w : Nat) : (n a : Nat) → List Byte → (done : Nat) → Hub → Status × Nat × Hub
  | 0, _, _, done, h => (.ok, done, h)
  | n + 1, a, bs, done, h =>
    let r := h.busWrite (t + h.owedStep) m a w (BitVec.ofNat 64 (ofBytesLE (bs.take w)))
    if r.1.took then r.2.writeRun t m w n (a + w) (bs.drop w) (done + w) else (r.1, done, r.2)

/-- The elements of a request: none for a width other than 4 or 8, or a length that is no multiple of it. -/
def elements (width length : Nat) : Option Nat :=
  if (width = 4 ∨ width = 8) ∧ length % width = 0 then some (length / width) else none
/-- The bytes that a READ_RSP of session `s` can carry in one frame (R494, R496). -/
def Hub.readRoom (h : Hub) (s : Nat) : Nat := ((h.session s).map fun x => h.dataRoom x + 4).getD 0

/-- A READ frame (R496). -/
def Hub.readFrame (t s tag width addr length : Nat) (h : Hub) : Hub :=
  match elements width length with
  | none => h.sendInner t s tag (.read .reserved 0 [])
  | some n =>
    if h.readRoom s < length then h.sendInner t s tag (.read .reserved 0 [])
    else
      let r := h.readRun t (sessionMaster s) width n addr []
      r.2.2.sendInner t s tag (.read r.1 r.2.1.length r.2.1)
/-- READ (R496). -/
def execVynRead (s tag width addr length : Nat) (st : State) : Out :=
  if addr < 2 ^ 64 then st.inner s fun t h => h.readFrame t s tag width addr length else .refused .illFormed

/-- A WRITE frame (R496). -/
def Hub.writeFrame (t s tag width addr : Nat) (data : List Byte) (h : Hub) : Hub :=
  match elements width data.length with
  | none => h.sendInner t s tag (.write .reserved 0)
  | some n =>
    let r := h.writeRun t (sessionMaster s) width n addr data 0
    r.2.2.sendInner t s tag (.write r.1 r.2.1)
/-- WRITE (R496). -/
def execVynWrite (s tag width addr : Nat) (data : List Byte) (st : State) : Out :=
  if addr < 2 ^ 64 then
    st.liftBus (decide (s < 20)) fun t h => h.fromSession t s fun h => h.writeFrame t s tag width addr data
  else .refused .illFormed

/-- REGISTER_WRITE (R16): a write of `width` bytes; 0 stands for the register's own width. -/
def execRegisterWrite (m : Master) (addr width : Nat) (value : Word) (s : State) : Out :=
  if addr < 2 ^ 64 then
    s.liftBus m.ok fun t h => ((h.busWrite t m addr width value).2).wrote m (h.busWrite t m addr width value).1
  else .refused .illFormed

end Sys2Proof.Machine
end

