-- ==== Sys2Proof/Machine/Commit.lean ====
section
/-! DEFINITION. A transaction's prepare and its commit instant (R432 to R435, R198, R532). -/

namespace Sys2Proof.Machine

open Sys2Proof

/-! ### The prepare -/

/-- A write of a transaction's action goes over a group's shadow. -/
def Hub.overShadow (m : Master) (a : StagedAct) (h : Hub) : Hub :=
  match a with
  | .write addr v =>
    match h.regAt m.idx addr with
    | some x => if x.group.isSome then h.plainWrite x.reg x.copy v.toNat else h
    | none => h
  | _ => h
/-- The group whose shadow an action writes. -/
def Hub.groupOfAct (h : Hub) (m : Master) (a : StagedAct) : Option GroupId :=
  match a with
  | .write addr _ => (h.regAt m.idx addr).bind RegCopy.group
  | _ => none
/-- What the ARM of a group is refused with at `c` (R425, R428): its rules, judged on the shadow that `h` holds, or BUSY
while an ARM of it that takes effect only later waits. -/
def Hub.armRefusal (c : Nat) (g : GroupId) (h : Hub) : Option Status :=
  let waits := match g with
    | .pkg k =>
      match h.arm k with
      | some a => (a.due.map fun d => decide (c < d)).getD true
      | none => false
    | _ => false
  if !h.groupDiffers g then none
  else (h.groupRefusal g).orElse fun _ => if waits then some .busy else none

/-- The status with which a unit's present state decides a refusal (R198): POWERED_OFF, RETIRED, NO_UNIT, or one of the
action's table. Silence, which only an access meets, decides nothing. -/
def Hub.unitDecides (t u : Nat) (a : StagedAct) (h : Hub) : Option Status :=
  let only := fun (st : Status) => if st.took ∨ st = .timeout then none else some st
  let path := fun (w : Nat) (force : Bool) =>
    if ((rangeOf u w).map fun r => r.writable && (!force || r.scan)).getD false then none else some Status.noPath
  if !unitOk u then some .noUnit
  else
    (h.refusesUnit u).orElse fun _ =>
      match a with
      | .poke _ _ w _ force => (only (pokeState (h.accessState u) force)).orElse fun _ => path w force
      | .pokep _ _ w _ => (only (pokepState (h.accessState u))).orElse fun _ => path w false
      | .run op _ _ n => ((h.applyOp t u op 0 n).1).bind only
      | _ => none

/-- What an action of transaction `x` of master `m` fails its prepare with (R432), where `laid` is the hub with the
transaction's writes over the shadows. -/
def Hub.actFails (t x : Nat) (m : Master) (laid : Hub) (a : StagedAct) (h : Hub) : Option Status :=
  match a with
  | .write addr v =>
    match h.target m.idx addr 0 with
    | .error st => some st
    | .ok y =>
      (h.writeState y addr).orElse fun _ =>
        ((h.groupOfAct m a).bind fun g => laid.armRefusal (h.get F.TXN_TIME_commit_time x) g).orElse fun _ =>
          if h.claimedBy (· != x) m (.act (.write addr v)) then some .busy else none
  | .poke u g .. | .pokep u g .. | .run _ u g _ => (h.targets u g).findSome? fun u => h.unitDecides t u a
  | .quench _ => if h.retired then some .retired else none
  | .reheat _ => none

/-- The actions that other prepared transactions and those of `mine` before it keep in the store of an action's owner
reach its 4,096 (R432). -/
def Hub.storeFull (h : Hub) (mine : List StagedAct) (a : StagedAct) : Bool :=
  let held := ((List.range 16).flatMap fun y => if h.txnState y = 3 then (h.txn y).acts else []) ++ mine
  match h.ownersOf a with
  | [] => decide (4096 ≤ (held.filter fun b => (h.ownersOf b).isEmpty).length)
  | ns => ns.any fun n => decide (4096 ≤ (held.filter fun b => (h.ownersOf b).contains n).length)

/-- The first action of transaction `x` that fails its prepare: its index, itself and its status. -/
def Hub.prepareFails (t x : Nat) (h : Hub) : Option (Nat × StagedAct × Status) :=
  let m := h.txnMaster x
  let acts := (h.txn x).acts
  let laid := acts.foldl (fun h a => h.overShadow m a) h
  acts.zipIdx.findSome? fun e =>
    ((Hub.actFails t x m laid e.1 h).orElse fun _ =>
      if h.storeFull (acts.take e.2) e.1 then some .busy else none).map fun st => (e.2, e.1, st)

/-- The prepare of transaction `x` ends (R434), not while the coordinator's Hearth is being taken over (R442). -/
def Hub.prepareDone (t x : Nat) (h : Hub) : Hub :=
  if h.txnState x ≠ 2 ∨ h.failover then h
  else if h.get F.TXN_TIME_commit_time x ≤ t then h.abortTxn t x abortLate
  else
    match h.prepareFails t x with
    | none => (h.put F.TXN_STATE_state x 3).txnResult t x .ok
    | some (i, a, st) =>
      let h := if st = .busy then (h.ownersOf a).foldl (fun h n => h.sbump F.SPK_TXN_STAGE_refused n 0 1) h else h
      ((h.put F.TXN_STATE_first_fail x i).put F.TXN_STATE_fail_status x st.code).abortTxn t x abortPrepare
/-- PREPARE_DONE (R434). -/
def execPrepareDone (id : Nat) (s : State) : Out := s.liftIf (decide (id < 16)) fun t h => h.prepareDone t id

/-! ### The commit instant -/

/-- A staged write takes effect at C (R435): its status, and what it leaves. Its level was checked when it was staged, and
its transaction holds the claim. -/
def Hub.commitWrite (t : Nat) (m : Master) (addr : Nat) (v : Word) (h : Hub) : Status × Hub :=
  match h.target m.idx addr 0 with
  | .error st => (st, h)
  | .ok x =>
    match h.writeState x addr with
    | some st => (st, h)
    | none =>
      match x with
      | .reg r _ =>
        let k := (h.writeCmd m r v.toNat).2
        match k.pre h with
        | some st => (st, h)
        | none => k.body t h
      | .window u w => h.windowWrite t u w v
      | .scratch | .crucible | .flash => (.ok, h.wr addr 8 v.toNat)

/-- A staged POKE reaches a unit at C: in a timed range through `ta_stage`, whose unit refuses it unless it is RUNNING
(R532), else through `dbg_*`. -/
def Hub.commitPoke (t u w : Nat) (data : Word) (force : Bool) (h : Hub) : Status × Hub :=
  let timed := bitAt (kindFlags (unitKind u)) 1 && ((rangeOf u w).map WinRange.timed).getD false
  if timed && !force && h.runState u != .running then
    (.held, h.sbump F.SPK_SOCK_STATUS_ta_refused (dieOf u) (localOf u) 1)
  else h.writeUnit t u w data force

/-- The outcomes of an action that are not OK (R438). -/
def failsOf (index : Nat) (outs : List (Nat × Status)) : List TxnFail :=
  (outs.filter fun e => e.2 ≠ .ok).map fun e => { index, unit := e.1, status := e.2 }

/-- Action `i` of transaction `x` of master `m` takes effect at C (R435). Writes to a group wait for their group's
outcome. -/
def Hub.commitAct (t x : Nat) (m : Master) (h : Hub) (e : StagedAct × Nat) : Hub :=
  let i := e.2
  match e.1 with
  | .write addr v =>
    let r := h.commitWrite t m addr v
    if (h.groupOfAct m e.1).isSome ∧ r.1 = .ok then r.2 else r.2.txnOutcome t x i (failsOf i [(0xFFFF, r.1)])
  | .poke target group w data force =>
    let r := h.pokeEach (fun u h => h.commitPoke t u w data force) (h.targets target group)
    r.2.txnOutcome t x i (failsOf i r.1)
  | .pokep target group w data =>
    let r := h.pokeEach (fun u h => h.queuePoke u w (issuerOf m) data) (h.targets target group)
    r.2.txnOutcome t x i (failsOf i r.1)
  | .run op target group n => h.issueRun t op target group false n (causeBy m) (.txn x i)
  | .quench mask =>
    let q : QuenchReq := { source := quenchSource m
                           unit := match m with
                             | .core c => c
                             | _ => h.quenchRoot
                           mask, reply := some (.txn x i) }
    { h with quenchReqs := q :: h.quenchReqs }.quenchAssert t
  | .reheat mask =>
    match h.reheatRefusal mask with
    | some st => h.txnOutcome t x i (failsOf i [(0xFFFF, st)])
    | none => h.acceptReheat t mask (some (.txn x i))

/-- A group that a transaction wrote takes effect as if its ARM had been written at C (R435): at C itself, but for HGRP,
which waits for the group commands issued before (R171). The group's writes have their outcome. DEDUCED (assumption
51). -/
def Hub.commitGroup (t x : Nat) (m : Master) (h : Hub) (g : GroupId) : Hub :=
  let mine := ((h.txn x).acts.zipIdx.filter fun e =>
    h.groupOfAct m e.1 = some g && (h.txn x).waiting.contains e.2).map Prod.snd
  let st := h.armRefusal t g
  let h := if st.isSome || !h.groupDiffers g then h
    else
      match g with
      | .pkg .hgrp => h.armGroup t g
      | .pkg k => h.takeGroup t k (h.groupVals g) []
      | _ => h.armGroup t g
  mine.foldl (fun h i => h.txnOutcome t x i (failsOf i [(0xFFFF, st.getD .ok)])) h

/-- ARMs of the listed groups that fell due before C take effect first. -/
def Hub.settleArms (t : Nat) (gs : List GroupId) (h : Hub) : Hub :=
  gs.foldl (fun h g =>
    match g with
    | .pkg k => if ((h.armDue t k).map fun d => decide (d ≤ t)).getD false then h.groupEffect t k else h
    | _ => h) h

/-- The commit instant of transaction `x` (R435): a prepare under way aborts LATE (R434); a prepared transaction's actions
take effect in the order they were staged. -/
def Hub.commitInstant (t x : Nat) (h : Hub) : Hub :=
  if h.txnState x = 2 then h.abortTxn t x abortLate
  else
    let m := h.txnMaster x
    let acts := (h.txn x).acts
    let gs := (acts.filterMap (h.groupOfAct m)).eraseDups
    let h := h.settleArms t gs
    let h := (h.put F.TXN_STATE_state x 4).modTxn x fun y => { y with waiting := List.range acts.length }
    let h := acts.zipIdx.foldl (Hub.commitAct t x m) h
    gs.foldl (Hub.commitGroup t x m) h

/-- When transaction `x` commits or is late. -/
def Hub.commitDue (h : Hub) (x : Nat) : Option Nat :=
  if h.txnState x = 2 ∨ h.txnState x = 3 then some (h.get F.TXN_TIME_commit_time x) else none
/-- COMMIT_INSTANT (R435). -/
def execCommitInstant (id : Nat) (s : State) : Out :=
  if id < 16 then s.liftAt (s.hub.commitDue id) fun t h => h.commitInstant t id
  else .refused .illFormed

end Sys2Proof.Machine
end

