-- ==== Sys2Proof/Machine/Flow.lean ====
section
/-! DEFINITION. The branches and jumps of R105, BREAK (R460), and the way out of an exception (R130). -/

namespace Sys2Proof.Machine

open Sys2Proof

/-- BEQ: branches when rs1 and rs2 compare equal (R105). -/
def execBeq (c : Nat) (rs1 rs2 : RegNo) (off : Imm16) (s : State) : Out :=
  s.instr c fun _ h => effBranch .eq c rs1 rs2 off h

/-- BNE: branches when rs1 and rs2 compare not equal (R105). -/
def execBne (c : Nat) (rs1 rs2 : RegNo) (off : Imm16) (s : State) : Out :=
  s.instr c fun _ h => effBranch .ne c rs1 rs2 off h

/-- BLT: branches when rs1 and rs2 compare less, signed (R105). -/
def execBlt (c : Nat) (rs1 rs2 : RegNo) (off : Imm16) (s : State) : Out :=
  s.instr c fun _ h => effBranch .lt c rs1 rs2 off h

/-- BGE: branches when rs1 and rs2 compare at least, signed (R105). -/
def execBge (c : Nat) (rs1 rs2 : RegNo) (off : Imm16) (s : State) : Out :=
  s.instr c fun _ h => effBranch .ge c rs1 rs2 off h

/-- BLTU: branches when rs1 and rs2 compare less, unsigned (R105). -/
def execBltu (c : Nat) (rs1 rs2 : RegNo) (off : Imm16) (s : State) : Out :=
  s.instr c fun _ h => effBranch .ltu c rs1 rs2 off h

/-- BGEU: branches when rs1 and rs2 compare at least, unsigned (R105). -/
def execBgeu (c : Nat) (rs1 rs2 : RegNo) (off : Imm16) (s : State) : Out :=
  s.instr c fun _ h => effBranch .geu c rs1 rs2 off h

/-- JAL: rd = PC + 4, PC = PC + off21 × 4 (R105). -/
def effJal (c : Nat) (rd : RegNo) (off : BitVec 21) (h : Hub) : Effect :=
  .jump (h.setGpr c rd (h.pc c + 4)) (h.pc c + jumpOffset off)

/-- JAL (R105). -/
def execJal (c : Nat) (rd : RegNo) (off : BitVec 21) (s : State) : Out := s.instr c fun _ h => effJal c rd off h

/-- JALR: rd = PC + 4, PC = (rs1 + sext(imm16)) with bits [1:0] cleared (R105); after STK_XCTL.exit was written it
clears STK_CAUSE.active as it jumps (R130). -/
def effJalr (c : Nat) (rd rs1 : RegNo) (imm : Imm16) (h : Hub) : Effect :=
  let target := (h.gpr c rs1 + sext16 imm) &&& ~~~3
  let h' := h.setGpr c rd (h.pc c + 4)
  let h' := if (h.core c).exitArmed then
      (h'.cput F.STK_CAUSE_active c 0).modCore c fun x => { x with exitArmed := false }
    else h'
  .jump h' target

/-- JALR (R105, R130). -/
def execJalr (c : Nat) (rd rs1 : RegNo) (imm : Imm16) (s : State) : Out :=
  s.instr c fun _ h => effJalr c rd rs1 imm h

/-- BREAK: debug halt with cause BREAK if a debugger is attached (R460, R463), else the exception BREAK (R129). -/
def effBreak (t c : Nat) (h : Hub) : Effect :=
  if h.attached c then .stay (h.debugHalt t c 2) else .raise .breakpoint 0

/-- BREAK (R105, R460). -/
def execBreakInstr (c : Nat) (s : State) : Out := s.instr c fun t h => effBreak t c h

end Sys2Proof.Machine
end

