-- ==== Sys2Proof/Machine/Handover.lean ====
section
/-! DEFINITION. The handover instant of a failover (R442, R444). -/

namespace Sys2Proof.Machine

open Sys2Proof

/-- A waiting instruction of core `c`, against the Hearth that is active now (R110). -/
def hearthRuns (t c : Nat) (op : HearthOp) (h : Hub) : Effect :=
  match op with
  | .lck rd lock limit => effLck t c rd lock limit h
  | .ulk lock flags => effUlk t c lock flags h
  | .lgrRead rd a => effLgrRead c rd a h
  | .lgrOpen a => effLgrOpen t c a h
  | .lgrClose a => effLgrClose c a h
  | .lgrSeal rd => effLgrSeal t c rd h
  | .txb rd => effTxb c rd h
  | .txc rd id at_ => effTxc t c rd id at_ h
  | .txa id => effTxa t c id h
  | .capt rd plan => effCapt t c rd plan h
  | .hld rd a => effHld t c rd a h
  | .hst a v => effHst t c a v h

/-- The instruction that core `c` waits in for the Hearth completes (R110). -/
def Hub.resumeHearth (t : Nat) (h : Hub) (c : Nat) : Hub :=
  match (h.core c).wait with
  | .hearth op =>
    let h := h.modCore c fun x => { x with wait := .idle }
    (hearthRuns t c op h).finish t c h
  | _ => h

/-- The leases of the locks go on: one granted before the takeover has what was left of it then, one granted since its
whole 10 ms (R128). -/
def Hub.leasesResume (t : Nat) (h : Hub) : Hub :=
  { h with locks := h.locks.map fun e =>
      (e.1, { e.2 with due := if e.2.due = 0 then 0 else min (e.2.due + (t - h.failoverAt)) (t + ms 10) }) }

/-- The old Hearth restarts after H (R444, R540): its cores' memories are lost, and its restart is counted. DEDUCED
(assumption 52). -/
def Hub.oldRestarts (old : Nat) (h : Hub) : Hub :=
  let gone := fun a => (hearthCores old).any fun c => decide (localBase c ≤ a) && decide (a < localBase c + localSize c)
  let h := (hearthCores old).foldl (fun h c => h.modCore c fun _ => {}) { h with mem := h.mem.filter fun e => !gone e.1 }
  (h.bump F.HRT_RESET_CAUSE_hearth_restarts 0 1).put F.HRT_RESET_CAUSE_last_kind 0 2
    |>.put F.HRT_RESET_CAUSE_restart_cause 0 3

/-- The standby's recipes start at their entry points, with the slots of their SLOTS sections (R442). -/
def Hub.startRecipes (t d : Nat) (h : Hub) : Hub :=
  (hearthCores d).foldl (fun h c =>
    match (h.core c).image with
    | some x => (h.install t c x).release_ t c
    | none => h) h

/-- What was held since the takeover began is sent (R442, R267, R388). -/
def Hub.sendHeld (t : Nat) (h : Hub) : Hub :=
  let ns := h.heldNotices
  let es := h.heldEvents
  let js := h.heldJobs
  let h := { h with heldNotices := [], heldEvents := [], heldJobs := [] }
  let h := ns.foldl (fun h n => h.deliverNotice t n) h
  let h := es.foldl (fun h e => h.hubEvent t e.1 e.2) h
  js.foldl (fun h e => h.jobReport t e.1 e.2) h

/-- The handover instant H (R442). -/
def Hub.handover (t : Nat) (h : Hub) : Hub :=
  let old := h.hearthDie
  let new := h.standbyDie
  let slot := h.boot.peerSlot
  let h := h.resetRegs .f inHearth
  let h := { h with
    failover := false
    load := none
    fail := { peerDue := some (t + secs 1) }
    boot := { h.boot with slot := slot, peerSlot := h.boot.slot } }
  let h := (h.putB F.HRT_STATE_active_hearth 0 (decide (new = 4))).setReg .HRT_FO_TIME 0 (BitVec.ofNat 64 t)
    |>.put F.HRT_STATE_standby_ready 0 0
    |>.put F.HRT_FO_STATUS_phase 0 3
    |>.bump F.HRT_FO_STATUS_failovers 0 1
    |>.put F.HRT_UPD_STATUS_booted_slot 0 (slot.getD 0)
  let h := (h.leasesResume t).oldRestarts old
  let h := (h.startRecipes t new).refreshState t
  let h := allCores.foldl (fun h c => h.resumeHearth t c) h
  let h := (h.lanesResume t).sendHeld t
  if h.ledger.sealWait then h.closeBatch t else h
/-- When a handover falls due. -/
def Hub.handoverDue (h : Hub) : Option Nat := if h.failover then h.fail.handover else none
/-- HANDOVER_INSTANT (R442). -/
def execHandoverInstant (s : State) : Out := s.liftAt s.hub.handoverDue fun t h => h.handover t

end Sys2Proof.Machine
end

