-- ==== Sys2Proof/Machine/LocalMem.lean ====
section
/-! DEFINITION. The local loads and stores of R93 and R105. -/

namespace Sys2Proof.Machine

open Sys2Proof

/-- LD: a local load of 8 bytes (R93, R105). -/
def execLd (c : Nat) (rd rs1 : RegNo) (imm : Imm16) (s : State) : Out :=
  s.instr c fun _ h => effLoad c rd rs1 imm 8 zextBytes h

/-- LW: a local load of 4 bytes, sign-extended (R93, R105). -/
def execLw (c : Nat) (rd rs1 : RegNo) (imm : Imm16) (s : State) : Out :=
  s.instr c fun _ h => effLoad c rd rs1 imm 4 (sextBytes 4) h

/-- LWU: a local load of 4 bytes, zero-extended (R93, R105). -/
def execLwu (c : Nat) (rd rs1 : RegNo) (imm : Imm16) (s : State) : Out :=
  s.instr c fun _ h => effLoad c rd rs1 imm 4 zextBytes h

/-- LH: a local load of 2 bytes, sign-extended (R93, R105). -/
def execLh (c : Nat) (rd rs1 : RegNo) (imm : Imm16) (s : State) : Out :=
  s.instr c fun _ h => effLoad c rd rs1 imm 2 (sextBytes 2) h

/-- LHU: a local load of 2 bytes, zero-extended (R93, R105). -/
def execLhu (c : Nat) (rd rs1 : RegNo) (imm : Imm16) (s : State) : Out :=
  s.instr c fun _ h => effLoad c rd rs1 imm 2 zextBytes h

/-- LB: a local load of 1 byte, sign-extended (R93, R105). -/
def execLb (c : Nat) (rd rs1 : RegNo) (imm : Imm16) (s : State) : Out :=
  s.instr c fun _ h => effLoad c rd rs1 imm 1 (sextBytes 1) h

/-- LBU: a local load of 1 byte, zero-extended (R93, R105). -/
def execLbu (c : Nat) (rd rs1 : RegNo) (imm : Imm16) (s : State) : Out :=
  s.instr c fun _ h => effLoad c rd rs1 imm 1 zextBytes h

/-- ST: a local store of 8 bytes (R93, R105). -/
def execSt (c : Nat) (rs2 rs1 : RegNo) (imm : Imm16) (s : State) : Out :=
  s.instr c fun _ h => effStore c rs2 rs1 imm 8 h

/-- SW: a local store of 4 bytes (R93, R105). -/
def execSw (c : Nat) (rs2 rs1 : RegNo) (imm : Imm16) (s : State) : Out :=
  s.instr c fun _ h => effStore c rs2 rs1 imm 4 h

/-- SH: a local store of 2 bytes (R93, R105). -/
def execSh (c : Nat) (rs2 rs1 : RegNo) (imm : Imm16) (s : State) : Out :=
  s.instr c fun _ h => effStore c rs2 rs1 imm 2 h

/-- SB: a local store of 1 byte (R93, R105). -/
def execSb (c : Nat) (rs2 rs1 : RegNo) (imm : Imm16) (s : State) : Out :=
  s.instr c fun _ h => effStore c rs2 rs1 imm 1 h

end Sys2Proof.Machine
end

