-- ==== Sys2Proof/Machine/Dispatch.lean ====
section
/-! DEFINITION. The dispatch of a command to its meaning: one arm per constructor of Instr, no wildcard. -/

namespace Sys2Proof.Machine

open Sys2Proof

/-- A command's effect on everything but the queue. -/
def exec (i : Instr) (s : State) : Host.Outcome State Fault Refusal :=
  match i with
  | .pllLock => Sys2Proof.Machine.execPllLock s
  | .pllLossOfLock => Sys2Proof.Machine.execPllLossOfLock s
  | .powerOnLockTimeout => Sys2Proof.Machine.execPowerOnLockTimeout s
  | .checkWord spoke drift => Sys2Proof.Machine.execCheckWord spoke drift s
  | .trimWrite m spoke trim => Sys2Proof.Machine.execTrimWrite m spoke trim s
  | .trimSlewTick spoke => Sys2Proof.Machine.execTrimSlewTick spoke s
  | .timeExchange offset => Sys2Proof.Machine.execTimeExchange offset s
  | .parentSilent => Sys2Proof.Machine.execParentSilent s
  | .timStep m ticks => Sys2Proof.Machine.execTimStep m ticks s
  | .wallOffsetWrite m off => Sys2Proof.Machine.execWallOffsetWrite m off s
  | .unitEvent unit cls ctx payload => Sys2Proof.Machine.execUnitEvent unit cls ctx payload s
  | .traceWrite spoke => Sys2Proof.Machine.execTraceWrite spoke s
  | .lossRecordTimer spoke level => Sys2Proof.Machine.execLossRecordTimer spoke level s
  | .ringStop node => Sys2Proof.Machine.execRingStop node s
  | .traceStart m => Sys2Proof.Machine.execTraceStart m s
  | .traceStop m => Sys2Proof.Machine.execTraceStop m s
  | .trcArm m => Sys2Proof.Machine.execTrcArm m s
  | .fifoPeakRead m spoke => Sys2Proof.Machine.execFifoPeakRead m spoke s
  | .add c rd rs1 rs2 => Sys2Proof.Machine.execAdd c rd rs1 rs2 s
  | .sub c rd rs1 rs2 => Sys2Proof.Machine.execSub c rd rs1 rs2 s
  | .and c rd rs1 rs2 => Sys2Proof.Machine.execAnd c rd rs1 rs2 s
  | .or c rd rs1 rs2 => Sys2Proof.Machine.execOr c rd rs1 rs2 s
  | .xor c rd rs1 rs2 => Sys2Proof.Machine.execXor c rd rs1 rs2 s
  | .shl c rd rs1 rs2 => Sys2Proof.Machine.execShl c rd rs1 rs2 s
  | .shr c rd rs1 rs2 => Sys2Proof.Machine.execShr c rd rs1 rs2 s
  | .sar c rd rs1 rs2 => Sys2Proof.Machine.execSar c rd rs1 rs2 s
  | .mul c rd rs1 rs2 => Sys2Proof.Machine.execMul c rd rs1 rs2 s
  | .mulh c rd rs1 rs2 => Sys2Proof.Machine.execMulh c rd rs1 rs2 s
  | .min c rd rs1 rs2 => Sys2Proof.Machine.execMin c rd rs1 rs2 s
  | .max c rd rs1 rs2 => Sys2Proof.Machine.execMax c rd rs1 rs2 s
  | .slt c rd rs1 rs2 => Sys2Proof.Machine.execSlt c rd rs1 rs2 s
  | .sltu c rd rs1 rs2 => Sys2Proof.Machine.execSltu c rd rs1 rs2 s
  | .addi c rd rs1 imm => Sys2Proof.Machine.execAddi c rd rs1 imm s
  | .andi c rd rs1 imm => Sys2Proof.Machine.execAndi c rd rs1 imm s
  | .ori c rd rs1 imm => Sys2Proof.Machine.execOri c rd rs1 imm s
  | .xori c rd rs1 imm => Sys2Proof.Machine.execXori c rd rs1 imm s
  | .shli c rd rs1 sh => Sys2Proof.Machine.execShli c rd rs1 sh s
  | .shri c rd rs1 sh => Sys2Proof.Machine.execShri c rd rs1 sh s
  | .lui c rd hw imm => Sys2Proof.Machine.execLui c rd hw imm s
  | .ld c rd rs1 imm => Sys2Proof.Machine.execLd c rd rs1 imm s
  | .lw c rd rs1 imm => Sys2Proof.Machine.execLw c rd rs1 imm s
  | .lwu c rd rs1 imm => Sys2Proof.Machine.execLwu c rd rs1 imm s
  | .lh c rd rs1 imm => Sys2Proof.Machine.execLh c rd rs1 imm s
  | .lhu c rd rs1 imm => Sys2Proof.Machine.execLhu c rd rs1 imm s
  | .lb c rd rs1 imm => Sys2Proof.Machine.execLb c rd rs1 imm s
  | .lbu c rd rs1 imm => Sys2Proof.Machine.execLbu c rd rs1 imm s
  | .st c rs2 rs1 imm => Sys2Proof.Machine.execSt c rs2 rs1 imm s
  | .sw c rs2 rs1 imm => Sys2Proof.Machine.execSw c rs2 rs1 imm s
  | .sh c rs2 rs1 imm => Sys2Proof.Machine.execSh c rs2 rs1 imm s
  | .sb c rs2 rs1 imm => Sys2Proof.Machine.execSb c rs2 rs1 imm s
  | .beq c rs1 rs2 off => Sys2Proof.Machine.execBeq c rs1 rs2 off s
  | .bne c rs1 rs2 off => Sys2Proof.Machine.execBne c rs1 rs2 off s
  | .blt c rs1 rs2 off => Sys2Proof.Machine.execBlt c rs1 rs2 off s
  | .bge c rs1 rs2 off => Sys2Proof.Machine.execBge c rs1 rs2 off s
  | .bltu c rs1 rs2 off => Sys2Proof.Machine.execBltu c rs1 rs2 off s
  | .bgeu c rs1 rs2 off => Sys2Proof.Machine.execBgeu c rs1 rs2 off s
  | .jal c rd off => Sys2Proof.Machine.execJal c rd off s
  | .jalr c rd rs1 imm => Sys2Proof.Machine.execJalr c rd rs1 imm s
  | .hld c rd rs1 imm => Sys2Proof.Machine.execHld c rd rs1 imm s
  | .hst c rs2 rs1 imm => Sys2Proof.Machine.execHst c rs2 rs1 imm s
  | .postedWriteComplete c => Sys2Proof.Machine.execPostedWriteComplete c s
  | .sprr c rd spr => Sys2Proof.Machine.execSprr c rd spr s
  | .sprw c spr rs1 => Sys2Proof.Machine.execSprw c spr rs1 s
  | .fence c rd => Sys2Proof.Machine.execFence c rd s
  | .breakInstr c => Sys2Proof.Machine.execBreakInstr c s
  | .xctlExit c => Sys2Proof.Machine.execXctlExit c s
  | .wdogKick c => Sys2Proof.Machine.execWdogKick c s
  | .watchdogExpiry c => Sys2Proof.Machine.execWatchdogExpiry c s
  | .strikerCoreReset c => Sys2Proof.Machine.execStrikerCoreReset c s
  | .peek c rd rs1 off => Sys2Proof.Machine.execPeek c rd rs1 off s
  | .qpeek c rd rs1 off => Sys2Proof.Machine.execQpeek c rd rs1 off s
  | .poke c rs2 rs1 off force group => Sys2Proof.Machine.execPoke c rs2 rs1 off force group s
  | .pokep c rs2 rs1 off group => Sys2Proof.Machine.execPokep c rs2 rs1 off group s
  | .handshakeSilence x => Sys2Proof.Machine.execHandshakeSilence x s
  | .halt c rd rs1 group nowait => Sys2Proof.Machine.execHalt c rd rs1 group nowait s
  | .run c rd rs1 group nowait => Sys2Proof.Machine.execRun c rd rs1 group nowait s
  | .step c rd rs1 rs2 group => Sys2Proof.Machine.execStep c rd rs1 rs2 group s
  | .quench c rd rs1 => Sys2Proof.Machine.execQuench c rd rs1 s
  | .reheat c rd rs1 => Sys2Proof.Machine.execReheat c rd rs1 s
  | .waitev c rd rs1 rs2 => Sys2Proof.Machine.execWaitev c rd rs1 rs2 s
  | .waitevDeadline c => Sys2Proof.Machine.execWaitevDeadline c s
  | .arm c rs1 rs2 => Sys2Proof.Machine.execArm c rs1 rs2 s
  | .disarm c rs1 => Sys2Proof.Machine.execDisarm c rs1 s
  | .fire c rs1 rs2 => Sys2Proof.Machine.execFire c rs1 rs2 s
  | .evpop c rd rs1 => Sys2Proof.Machine.execEvpop c rd rs1 s
  | .tnow c rd => Sys2Proof.Machine.execTnow c rd s
  | .twait c rs1 => Sys2Proof.Machine.execTwait c rs1 s
  | .twaitExpiry c => Sys2Proof.Machine.execTwaitExpiry c s
  | .capt c rd rs1 => Sys2Proof.Machine.execCapt c rd rs1 s
  | .cwait c rd rs1 rs2 => Sys2Proof.Machine.execCwait c rd rs1 rs2 s
  | .cwaitDeadline c => Sys2Proof.Machine.execCwaitDeadline c s
  | .swg c rd rs1 => Sys2Proof.Machine.execSwg c rd rs1 s
  | .txb c rd => Sys2Proof.Machine.execTxb c rd s
  | .txc c rd rs1 rs2 => Sys2Proof.Machine.execTxc c rd rs1 rs2 s
  | .txa c rs1 => Sys2Proof.Machine.execTxa c rs1 s
  | .lck c rd rs1 rs2 => Sys2Proof.Machine.execLck c rd rs1 rs2 s
  | .lckWaitLimit lock m => Sys2Proof.Machine.execLckWaitLimit lock m s
  | .ulk c rs1 rs2 => Sys2Proof.Machine.execUlk c rs1 rs2 s
  | .leaseLapse lock => Sys2Proof.Machine.execLeaseLapse lock s
  | .lgrRead c rd rs1 => Sys2Proof.Machine.execLgrRead c rd rs1 s
  | .lgrOverheadOpen c rs1 => Sys2Proof.Machine.execLgrOverheadOpen c rs1 s
  | .lgrOverheadClose c rs1 => Sys2Proof.Machine.execLgrOverheadClose c rs1 s
  | .lgrSeal c rd => Sys2Proof.Machine.execLgrSeal c rd s
  | .send c rs1 rs2 => Sys2Proof.Machine.execSend c rs1 rs2 s
  | .recv c rd rs1 => Sys2Proof.Machine.execRecv c rd rs1 s
  | .recvDeadline c => Sys2Proof.Machine.execRecvDeadline c s
  | .vtx c rs1 => Sys2Proof.Machine.execVtx c rs1 s
  | .vrx c rd => Sys2Proof.Machine.execVrx c rd s
  | .lockAcquire m lock waitUs => Sys2Proof.Machine.execLockAcquire m lock waitUs s
  | .lockRelease m lock => Sys2Proof.Machine.execLockRelease m lock s
  | .lockReleaseClean m lock => Sys2Proof.Machine.execLockReleaseClean m lock s
  | .recipeLoad m image target => Sys2Proof.Machine.execRecipeLoad m image target s
  | .recipeLoadDone => Sys2Proof.Machine.execRecipeLoadDone s
  | .slotTimerExpiry c slot => Sys2Proof.Machine.execSlotTimerExpiry c slot s
  | .triggerEval matrix => Sys2Proof.Machine.execTriggerEval matrix s
  | .xtrigInEdge => Sys2Proof.Machine.execXtrigInEdge s
  | .xtrigOutPulseEnd => Sys2Proof.Machine.execXtrigOutPulseEnd s
  | .trgArm m matrix => Sys2Proof.Machine.execTrgArm m matrix s
  | .hgrpArm m => Sys2Proof.Machine.execHgrpArm m s
  | .unitHaltAck unit lockHeld sync => Sys2Proof.Machine.execUnitHaltAck unit lockHeld sync s
  | .lockHeldRelease unit => Sys2Proof.Machine.execLockHeldRelease unit s
  | .haltDeferralExpiry unit => Sys2Proof.Machine.execHaltDeferralExpiry unit s
  | .unitSelfHalt unit fault code lockHeld sync => Sys2Proof.Machine.execUnitSelfHalt unit fault code lockHeld sync s
  | .unitGate unit => Sys2Proof.Machine.execUnitGate unit s
  | .unitUngate unit => Sys2Proof.Machine.execUnitUngate unit s
  | .unitProbe m unit => Sys2Proof.Machine.execUnitProbe m unit s
  | .probeAnswer unit halted => Sys2Proof.Machine.execProbeAnswer unit halted s
  | .probeTimeout unit => Sys2Proof.Machine.execProbeTimeout unit s
  | .stepCountReached x => Sys2Proof.Machine.execStepCountReached x s
  | .stepLimitExpiry unit quanta => Sys2Proof.Machine.execStepLimitExpiry unit quanta s
  | .rcCmdHalt m target group nowait => Sys2Proof.Machine.execRcCmdHalt m target group nowait s
  | .rcCmdRun m target group => Sys2Proof.Machine.execRcCmdRun m target group s
  | .rcCmdStep m target group count => Sys2Proof.Machine.execRcCmdStep m target group count s
  | .unitResetDone unit => Sys2Proof.Machine.execUnitResetDone unit s
  | .unitResetTimeout unit => Sys2Proof.Machine.execUnitResetTimeout unit s
  | .quenchPin => Sys2Proof.Machine.execQuenchPin s
  | .quenchPinRelease => Sys2Proof.Machine.execQuenchPinRelease s
  | .qchCmdQuench m mask => Sys2Proof.Machine.execQchCmdQuench m mask s
  | .qchCmdReheat m mask => Sys2Proof.Machine.execQchCmdReheat m mask s
  | .quenchAssert => Sys2Proof.Machine.execQuenchAssert s
  | .unitQuenchAck unit lockHeld sync => Sys2Proof.Machine.execUnitQuenchAck unit lockHeld sync s
  | .quenchAckTimeout unit lockHeld sync => Sys2Proof.Machine.execQuenchAckTimeout unit lockHeld sync s
  | .rampNotchStep die => Sys2Proof.Machine.execRampNotchStep die s
  | .ballastCodeStep die => Sys2Proof.Machine.execBallastCodeStep die s
  | .settleEnd starts lows highs => Sys2Proof.Machine.execSettleEnd starts lows highs s
  | .blwArm m => Sys2Proof.Machine.execBlwArm m s
  | .linkBanked link => Sys2Proof.Machine.execLinkBanked link s
  | .bankTimeout link => Sys2Proof.Machine.execBankTimeout link s
  | .peerWakeRequest link => Sys2Proof.Machine.execPeerWakeRequest link s
  | .keepaliveTimer link => Sys2Proof.Machine.execKeepaliveTimer link s
  | .bankedFlitRx link flit => Sys2Proof.Machine.execBankedFlitRx link flit s
  | .linkHoldExpiry link => Sys2Proof.Machine.execLinkHoldExpiry link s
  | .bnkArm m => Sys2Proof.Machine.execBnkArm m s
  | .reheatStart => Sys2Proof.Machine.execReheatStart s
  | .reheatDrain => Sys2Proof.Machine.execReheatDrain s
  | .reheatRelease volts => Sys2Proof.Machine.execReheatRelease volts s
  | .planRegister m n addr => Sys2Proof.Machine.execPlanRegister m n addr s
  | .planClear m n => Sys2Proof.Machine.execPlanClear m n s
  | .captureStartReg m n => Sys2Proof.Machine.execCaptureStartReg m n s
  | .sizingDone slot => Sys2Proof.Machine.execSizingDone slot s
  | .blockCommit slot region block data => Sys2Proof.Machine.execBlockCommit slot region block data s
  | .scanReadDone slot scan sentinelOk => Sys2Proof.Machine.execScanReadDone slot scan sentinelOk s
  | .scanSilence slot scan => Sys2Proof.Machine.execScanSilence slot scan s
  | .sramPortSilence die bank => Sys2Proof.Machine.execSramPortSilence die bank s
  | .sramUncorrectable slot region block => Sys2Proof.Machine.execSramUncorrectable slot region block s
  | .sramFallbackDeadline slot => Sys2Proof.Machine.execSramFallbackDeadline slot s
  | .hostPathLoss => Sys2Proof.Machine.execHostPathLoss s
  | .captureClose slot => Sys2Proof.Machine.execCaptureClose slot s
  | .captureCancel m handle => Sys2Proof.Machine.execCaptureCancel m handle s
  | .captureRelease m handle => Sys2Proof.Machine.execCaptureRelease m handle s
  | .swageBlock node slot => Sys2Proof.Machine.execSwageBlock node slot s
  | .swgChainAppend m handle desc => Sys2Proof.Machine.execSwgChainAppend m handle desc s
  | .swgCancel m handle => Sys2Proof.Machine.execSwgCancel m handle s
  | .arbiterDecision node out arrivals noCredit => Sys2Proof.Machine.execArbiterDecision node out arrivals noCredit s
  | .quotaWindowEnd node out => Sys2Proof.Machine.execQuotaWindowEnd node out s
  | .spnArm m node => Sys2Proof.Machine.execSpnArm m node s
  | .maxwaitRead m node r => Sys2Proof.Machine.execMaxwaitRead m node r s
  | .cmdDispatchNotice ctx seq cls queue engine => Sys2Proof.Machine.execCmdDispatchNotice ctx seq cls queue engine s
  | .cmdCompleteNotice ctx seq => Sys2Proof.Machine.execCmdCompleteNotice ctx seq s
  | .cmdAbortNotice ctx seq => Sys2Proof.Machine.execCmdAbortNotice ctx seq s
  | .wheelTick node => Sys2Proof.Machine.execWheelTick node s
  | .commandExpiry node ctx seq => Sys2Proof.Machine.execCommandExpiry node ctx seq s
  | .stepBegin ctx step => Sys2Proof.Machine.execStepBegin ctx step s
  | .updateBegin ctx step => Sys2Proof.Machine.execUpdateBegin ctx step s
  | .stepEnd ctx step => Sys2Proof.Machine.execStepEnd ctx step s
  | .hwtArm m => Sys2Proof.Machine.execHwtArm m s
  | .estSelect m ctx cls => Sys2Proof.Machine.execEstSelect m ctx cls s
  | .estReset m ctx cls => Sys2Proof.Machine.execEstReset m ctx cls s
  | .syncSignalReport obj value chip src engine lost => Sys2Proof.Machine.execSyncSignalReport obj value chip src engine lost s
  | .waitBeginReport obj value ctx unit engine lost => Sys2Proof.Machine.execWaitBeginReport obj value ctx unit engine lost s
  | .waitEndReport obj value ctx unit engine lost => Sys2Proof.Machine.execWaitEndReport obj value ctx unit engine lost s
  | .staleReread obj value waiters => Sys2Proof.Machine.execStaleReread obj value waiters s
  | .waitAgeThreshold obj ctx unit => Sys2Proof.Machine.execWaitAgeThreshold obj ctx unit s
  | .wfgAnalysis => Sys2Proof.Machine.execWfgAnalysis s
  | .wfgAnalyze m => Sys2Proof.Machine.execWfgAnalyze m s
  | .wfgDump m addr capacity => Sys2Proof.Machine.execWfgDump m addr capacity s
  | .wfgArm m => Sys2Proof.Machine.execWfgArm m s
  | .objRead m obj => Sys2Proof.Machine.execObjRead m obj s
  | .objDeclare m obj kind remote producer => Sys2Proof.Machine.execObjDeclare m obj kind remote producer s
  | .objForget m obj => Sys2Proof.Machine.execObjForget m obj s
  | .rcvRecover m p reason => Sys2Proof.Machine.execRcvRecover m p reason s
  | .rcvFenceOnly m p reason => Sys2Proof.Machine.execRcvFenceOnly m p reason s
  | .rcvContinue m p => Sys2Proof.Machine.execRcvContinue m p s
  | .rcvUnfence m p => Sys2Proof.Machine.execRcvUnfence m p s
  | .rcvUnitReset m unit => Sys2Proof.Machine.execRcvUnitReset m unit s
  | .rcvLinkRetrain m link => Sys2Proof.Machine.execRcvLinkRetrain m link s
  | .rcvRetire m => Sys2Proof.Machine.execRcvRetire m s
  | .drainEnd p completed outstanding => Sys2Proof.Machine.execDrainEnd p completed outstanding s
  | .selfRefreshConfirm stack => Sys2Proof.Machine.execSelfRefreshConfirm stack s
  | .holdTimeout p => Sys2Proof.Machine.execHoldTimeout p s
  | .partitionResetRelease p => Sys2Proof.Machine.execPartitionResetRelease p s
  | .partitionResetCheck p => Sys2Proof.Machine.execPartitionResetCheck p s
  | .memoryTrainDone group ok record => Sys2Proof.Machine.execMemoryTrainDone group ok record s
  | .linkTrainDone link ok => Sys2Proof.Machine.execLinkTrainDone link ok s
  | .resumeDone p okA okB => Sys2Proof.Machine.execResumeDone p okA okB s
  | .partitionLimitExpiry p => Sys2Proof.Machine.execPartitionLimitExpiry p s
  | .rcvArm m => Sys2Proof.Machine.execRcvArm m s
  | .sampleBoundary samples reports => Sys2Proof.Machine.execSampleBoundary samples reports s
  | .intervalEnd node => Sys2Proof.Machine.execIntervalEnd node s
  | .pmbusCheck readings => Sys2Proof.Machine.execPmbusCheck readings s
  | .pmbusStretchTimeout entry => Sys2Proof.Machine.execPmbusStretchTimeout entry s
  | .pmbAlert => Sys2Proof.Machine.execPmbAlert s
  | .epochClose => Sys2Proof.Machine.execEpochClose s
  | .batchSigned => Sys2Proof.Machine.execBatchSigned s
  | .calWindowEnd => Sys2Proof.Machine.execCalWindowEnd s
  | .calSolveDone => Sys2Proof.Machine.execCalSolveDone s
  | .overheadLimit die => Sys2Proof.Machine.execOverheadLimit die s
  | .ldgTagCmd m ctx delay => Sys2Proof.Machine.execLdgTagCmd m ctx delay s
  | .ldgAckWrite m apos => Sys2Proof.Machine.execLdgAckWrite m apos s
  | .ldgArm m => Sys2Proof.Machine.execLdgArm m s
  | .ldgCoefLoad m addr seed => Sys2Proof.Machine.execLdgCoefLoad m addr seed s
  | .attrPeakRead m node => Sys2Proof.Machine.execAttrPeakRead m node s
  | .groupTakesEffect g => Sys2Proof.Machine.execGroupTakesEffect g s
  | .timXchipArm m => Sys2Proof.Machine.execTimXchipArm m s
  | .txnOpen m => Sys2Proof.Machine.execTxnOpen m s
  | .txnCommit m id => Sys2Proof.Machine.execTxnCommit m id s
  | .txnAbort m id => Sys2Proof.Machine.execTxnAbort m id s
  | .prepareDone id => Sys2Proof.Machine.execPrepareDone id s
  | .commitInstant id => Sys2Proof.Machine.execCommitInstant id s
  | .txnIdTimeout id => Sys2Proof.Machine.execTxnIdTimeout id s
  | .heartbeatLoss => Sys2Proof.Machine.execHeartbeatLoss s
  | .failover m => Sys2Proof.Machine.execFailover m s
  | .restandby m => Sys2Proof.Machine.execRestandby m s
  | .mirrorDrainDone => Sys2Proof.Machine.execMirrorDrainDone s
  | .handoverInstant => Sys2Proof.Machine.execHandoverInstant s
  | .standbySyncDone => Sys2Proof.Machine.execStandbySyncDone s
  | .peerReadyTimeout => Sys2Proof.Machine.execPeerReadyTimeout s
  | .updErase m slot offset length => Sys2Proof.Machine.execUpdErase m slot offset length s
  | .updWrite m slot offset length => Sys2Proof.Machine.execUpdWrite m slot offset length s
  | .updVerify m slot => Sys2Proof.Machine.execUpdVerify m slot s
  | .updActivate m slot => Sys2Proof.Machine.execUpdActivate m slot s
  | .updOpDone => Sys2Proof.Machine.execUpdOpDone s
  | .mapOut m group => Sys2Proof.Machine.execMapOut m group s
  | .mapoutCopyDone unreadable lost => Sys2Proof.Machine.execMapoutCopyDone unreadable lost s
  | .mapIn m group => Sys2Proof.Machine.execMapIn m group s
  | .mapInTestDone ok => Sys2Proof.Machine.execMapInTestDone ok s
  | .timRecal m spoke all => Sys2Proof.Machine.execTimRecal m spoke all s
  | .recalMeasureDone spoke half => Sys2Proof.Machine.execRecalMeasureDone spoke half s
  | .dbgAttach m c => Sys2Proof.Machine.execDbgAttach m c s
  | .dbgDetach m c => Sys2Proof.Machine.execDbgDetach m c s
  | .dbgHalt m c => Sys2Proof.Machine.execDbgHalt m c s
  | .dbgResume m c => Sys2Proof.Machine.execDbgResume m c s
  | .dbgStep m c count => Sys2Proof.Machine.execDbgStep m c count s
  | .breakpointHit c => Sys2Proof.Machine.execBreakpointHit c s
  | .dbgLdataAccess m c write => Sys2Proof.Machine.execDbgLdataAccess m c write s
  | .vtInWrite m c w => Sys2Proof.Machine.execVtInWrite m c w s
  | .vtOutRelease m c => Sys2Proof.Machine.execVtOutRelease m c s
  | .trst => Sys2Proof.Machine.execTrst s
  | .patArm m => Sys2Proof.Machine.execPatArm m s
  | .getVersion ch => Sys2Proof.Machine.execGetVersion ch s
  | .getCapabilities ch => Sys2Proof.Machine.execGetCapabilities ch s
  | .negotiateAlgorithms ch offer => Sys2Proof.Machine.execNegotiateAlgorithms ch offer s
  | .getDigests ch => Sys2Proof.Machine.execGetDigests ch s
  | .getCertificate ch slot => Sys2Proof.Machine.execGetCertificate ch slot s
  | .challenge ch slot => Sys2Proof.Machine.execChallenge ch slot s
  | .getMeasurements ch index => Sys2Proof.Machine.execGetMeasurements ch index s
  | .keyExchange ch sessionId => Sys2Proof.Machine.execKeyExchange ch sessionId s
  | .finish ch ok => Sys2Proof.Machine.execFinish ch ok s
  | .getEncapsulatedRequest ch => Sys2Proof.Machine.execGetEncapsulatedRequest ch s
  | .deliverEncapsulatedResponse ch rootDigest chainOk => Sys2Proof.Machine.execDeliverEncapsulatedResponse ch rootDigest chainOk s
  | .heartbeat sn => Sys2Proof.Machine.execHeartbeat sn s
  | .keyUpdate sn => Sys2Proof.Machine.execKeyUpdate sn s
  | .endSession sn => Sys2Proof.Machine.execEndSession sn s
  | .spdmUnsupportedRequest ch code => Sys2Proof.Machine.execSpdmUnsupportedRequest ch code s
  | .sessionTimeout sn => Sys2Proof.Machine.execSessionTimeout sn s
  | .vynLinkTrained lanes => Sys2Proof.Machine.execVynLinkTrained lanes s
  | .hello hdr versions payloadMax credits => Sys2Proof.Machine.execHello hdr versions payloadMax credits s
  | .credit hdr credits => Sys2Proof.Machine.execCredit hdr credits s
  | .nak hdr expected => Sys2Proof.Machine.execNak hdr expected s
  | .spdmFrame hdr payload => Sys2Proof.Machine.execSpdmFrame hdr payload s
  | .securedFrame hdr session macOk => Sys2Proof.Machine.execSecuredFrame hdr session macOk s
  | .replayTimeout seq => Sys2Proof.Machine.execReplayTimeout seq s
  | .autReq sn tag level notices => Sys2Proof.Machine.execAutReq sn tag level notices s
  | .vynRead sn tag width addr length => Sys2Proof.Machine.execVynRead sn tag width addr length s
  | .vynWrite sn tag width addr data => Sys2Proof.Machine.execVynWrite sn tag width addr data s
  | .exportOpen sn tag handle recipient flags => Sys2Proof.Machine.execExportOpen sn tag handle recipient flags s
  | .exportSizingDone id => Sys2Proof.Machine.execExportSizingDone id s
  | .exportRead sn tag id offset length => Sys2Proof.Machine.execExportRead sn tag id offset length s
  | .exportDataFrame id => Sys2Proof.Machine.execExportDataFrame id s
  | .exportEnd sn tag id => Sys2Proof.Machine.execExportEnd sn tag id s
  | .innerUnknown sn tag opcode => Sys2Proof.Machine.execInnerUnknown sn tag opcode s
  | .hostExport m handle recipient recode verify limitMib => Sys2Proof.Machine.execHostExport m handle recipient recode verify limitMib s
  | .hostExportDone id => Sys2Proof.Machine.execHostExportDone id s
  | .rcptRegister m slot addr => Sys2Proof.Machine.execRcptRegister m slot addr s
  | .rcptClear m slot => Sys2Proof.Machine.execRcptClear m slot s
  | .rcptLock m slot => Sys2Proof.Machine.execRcptLock m slot s
  | .setEndpointId tr eid => Sys2Proof.Machine.execSetEndpointId tr eid s
  | .getEndpointId tr => Sys2Proof.Machine.execGetEndpointId tr s
  | .getEndpointUuid tr => Sys2Proof.Machine.execGetEndpointUuid tr s
  | .getMctpVersionSupport tr => Sys2Proof.Machine.execGetMctpVersionSupport tr s
  | .getMessageTypeSupport tr => Sys2Proof.Machine.execGetMessageTypeSupport tr s
  | .getVendorDefinedMessageSupport tr => Sys2Proof.Machine.execGetVendorDefinedMessageSupport tr s
  | .prepareForEndpointDiscovery => Sys2Proof.Machine.execPrepareForEndpointDiscovery s
  | .endpointDiscovery => Sys2Proof.Machine.execEndpointDiscovery s
  | .mctpUnsupportedCmd tr cmd => Sys2Proof.Machine.execMctpUnsupportedCmd tr cmd s
  | .mctpDiscard tr ty => Sys2Proof.Machine.execMctpDiscard tr ty s
  | .entdaa addr => Sys2Proof.Machine.execEntdaa addr s
  | .rstdaa => Sys2Proof.Machine.execRstdaa s
  | .enec events => Sys2Proof.Machine.execEnec events s
  | .disec events => Sys2Proof.Machine.execDisec events s
  | .getpid => Sys2Proof.Machine.execGetpid s
  | .getbcr => Sys2Proof.Machine.execGetbcr s
  | .getdcr => Sys2Proof.Machine.execGetdcr s
  | .getstatus => Sys2Proof.Machine.execGetstatus s
  | .getmrl => Sys2Proof.Machine.execGetmrl s
  | .setmrl n => Sys2Proof.Machine.execSetmrl n s
  | .getmwl => Sys2Proof.Machine.execGetmwl s
  | .setmwl n => Sys2Proof.Machine.execSetmwl n s
  | .reqDoorbell chan length => Sys2Proof.Machine.execReqDoorbell chan length s
  | .rspReadyRelease chan => Sys2Proof.Machine.execRspReadyRelease chan s
  | .warmResetRequestRepeat => Sys2Proof.Machine.execWarmResetRequestRepeat s
  | .jtagIdcode => Sys2Proof.Machine.execJtagIdcode s
  | .jtagIjtag => Sys2Proof.Machine.execJtagIjtag s
  | .jtagMbox word => Sys2Proof.Machine.execJtagMbox word s
  | .jtagBypass code => Sys2Proof.Machine.execJtagBypass code s
  | .sibOpen sn die seg => Sys2Proof.Machine.execSibOpen sn die seg s
  | .alertClear m bits => Sys2Proof.Machine.execAlertClear m bits s
  | .registerWrite m addr width value => Sys2Proof.Machine.execRegisterWrite m addr width value s
  | .coldReset => Sys2Proof.Machine.execColdReset s
  | .porRelease => Sys2Proof.Machine.execPorRelease s
  | .selfTestDone okA okB => Sys2Proof.Machine.execSelfTestDone okA okB s
  | .spineStageDone swageBad => Sys2Proof.Machine.execSpineStageDone swageBad s
  | .crucibleStageDone badGroups => Sys2Proof.Machine.execCrucibleStageDone badGroups s
  | .trimsStageDone trips => Sys2Proof.Machine.execTrimsStageDone trips s
  | .flashStageDone sfdpOk => Sys2Proof.Machine.execFlashStageDone sfdpOk s
  | .loadStageDone => Sys2Proof.Machine.execLoadStageDone s
  | .warmResetReport => Sys2Proof.Machine.execWarmResetReport s
  | .computeDieRelease faults late => Sys2Proof.Machine.execComputeDieRelease faults late s
  | .chipResetComplete => Sys2Proof.Machine.execChipResetComplete s
  | .chipResetTimeout => Sys2Proof.Machine.execChipResetTimeout s
  | .hearthRestart m => Sys2Proof.Machine.execHearthRestart m s
  | .reboot m => Sys2Proof.Machine.execReboot m s
  | .emberEnter m => Sys2Proof.Machine.execEmberEnter m s
  | .emberExit m => Sys2Proof.Machine.execEmberExit m s
  | .emberExitDone => Sys2Proof.Machine.execEmberExitDone s
  | .powerDomainFault d => Sys2Proof.Machine.execPowerDomainFault d s
  | .haltBoundNsExpiry unit => Sys2Proof.Machine.execHaltBoundNsExpiry unit s
  | .linkReturned link => Sys2Proof.Machine.execLinkReturned link s
  | .emberEntryDone => Sys2Proof.Machine.execEmberEntryDone s
  | .fabricLinkStateChange link state => Sys2Proof.Machine.execFabricLinkStateChange link state s
  | .vynLinkDown => Sys2Proof.Machine.execVynLinkDown s
  | .fencedNewRequest p kind => Sys2Proof.Machine.execFencedNewRequest p kind s

end Sys2Proof.Machine
end

