-- ==== Sys2Proof/Machine/Idle.lean ====
section
/-! DEFINITION. What the hub does when no command waits: one tick of Chip Time, in which one Striker core has its turn.
DESIGN CHOICE (assumption 6). -/

namespace Sys2Proof.Machine

open Sys2Proof

/-- One tick of the Chip Time unit (R47): while it slews at some ppm it withholds or inserts one tick in each run of them,
never two within 5,000 (R49). Before its start it stands still. -/
def Clock.tick (rate : Int) (k : Clock) : Clock :=
  if !k.started then k
  else if rate = 0 then { k.add 1 with phase := 0 }
  else if 1000000 / rate.natAbs ≤ k.phase + 1 then { k.add (if rate < 0 then 0 else 2) with phase := 0 }
  else { k.add 1 with phase := k.phase + 1 }

/-- The core whose turn it is: each in turn, by Chip Time. -/
def turnOf (t : Nat) : Nat := (allCores[t % allCores.length]?).getD 0x7F0

/-- Core `c` fetches the word at its PC and runs its instruction (R91, R94); an illegal encoding raises ILLEGAL (R102). A
core that is in reset, halted, stopped or in a wait does nothing. -/
def State.coreRuns (c : Nat) (s : State) : Out :=
  if !s.hub.ready c then .next s
  else
    match decodeStriker c (s.hub.rd (localBase c + (s.hub.pc c).toNat) 4) with
    | some i => if (s.hub.pc c).toNat < localSize c then exec i s else s.instr c fun _ _ => .raise .illegal 0
    | none => s.instr c fun _ _ => .raise .illegal 0

/-- The turn of core `c`: its oldest posted write completes (R98), and it runs one instruction. -/
def State.turn (c : Nat) (s : State) : Out :=
  match exec (.postedWriteComplete c) s with
  | .next s => s.coreRuns c
  | o => o

/-- The idle step. -/
def State.idle (s : State) : Out :=
  if !s.clk.started then .next s
  else
    let k := s.clk.tick s.hub.time.rate
    { s with clk := k, hub := (s.hub.recordHalts k.chipTime).sweep k.chipTime }.turn (turnOf k.chipTime)

end Sys2Proof.Machine
end

