-- ==== Sys2Proof/WellFormed.lean ====
section
/-! DEFINITION. Which commands can exist: a command names parts that the hub has, and its operands fit their fields. Every
other command is refused as ill-formed, in every state. -/

namespace Sys2Proof

open Sys2Proof.Machine

/-- A frame header with another frame's opcode does not spell this command; one with a reserved opcode is a malformed
frame of it (R492). -/
def VynHdr.spells (f : VynHdr) (opcode : Nat) : Bool := f.opcode == opcode || !frameOpcodes.contains f.opcode

/-- The command can reach the hub. Beside it, a BLOCK_COMMIT of a 4 KiB block (R268) is enough, not needed, for a region
that is read from memory. -/
def wellFormed (i : Instr) : Bool :=
  match i with
  | .pllLock => true
  | .pllLossOfLock => true
  | .powerOnLockTimeout => true
  | .checkWord spoke _ => decide (spoke < 32)
  | .trimWrite m spoke _ => decide (spoke < 32) && m.ok
  | .trimSlewTick spoke => decide (spoke < 32)
  | .timeExchange _ => true
  | .parentSilent => true
  | .timStep m _ => m.ok
  | .wallOffsetWrite m _ => m.ok
  | .unitEvent unit _ _ _ => unitOk unit
  | .traceWrite spoke => decide (spoke < 40)
  | .lossRecordTimer spoke level => decide (spoke < 40 ∧ level < 7)
  | .ringStop node => decide (node < 8)
  | .traceStart m => m.ok
  | .traceStop m => m.ok
  | .trcArm m => m.ok
  | .fifoPeakRead m spoke => decide (spoke < 32) && m.ok
  | .add c _ _ _ => coreOk c
  | .sub c _ _ _ => coreOk c
  | .and c _ _ _ => coreOk c
  | .or c _ _ _ => coreOk c
  | .xor c _ _ _ => coreOk c
  | .shl c _ _ _ => coreOk c
  | .shr c _ _ _ => coreOk c
  | .sar c _ _ _ => coreOk c
  | .mul c _ _ _ => coreOk c
  | .mulh c _ _ _ => coreOk c
  | .min c _ _ _ => coreOk c
  | .max c _ _ _ => coreOk c
  | .slt c _ _ _ => coreOk c
  | .sltu c _ _ _ => coreOk c
  | .addi c _ _ _ => coreOk c
  | .andi c _ _ _ => coreOk c
  | .ori c _ _ _ => coreOk c
  | .xori c _ _ _ => coreOk c
  | .shli c _ _ _ => coreOk c
  | .shri c _ _ _ => coreOk c
  | .lui c _ _ _ => coreOk c
  | .ld c _ _ _ => coreOk c
  | .lw c _ _ _ => coreOk c
  | .lwu c _ _ _ => coreOk c
  | .lh c _ _ _ => coreOk c
  | .lhu c _ _ _ => coreOk c
  | .lb c _ _ _ => coreOk c
  | .lbu c _ _ _ => coreOk c
  | .st c _ _ _ => coreOk c
  | .sw c _ _ _ => coreOk c
  | .sh c _ _ _ => coreOk c
  | .sb c _ _ _ => coreOk c
  | .beq c _ _ _ => coreOk c
  | .bne c _ _ _ => coreOk c
  | .blt c _ _ _ => coreOk c
  | .bge c _ _ _ => coreOk c
  | .bltu c _ _ _ => coreOk c
  | .bgeu c _ _ _ => coreOk c
  | .jal c _ _ => coreOk c
  | .jalr c _ _ _ => coreOk c
  | .hld c _ _ _ => coreOk c
  | .hst c _ _ _ => coreOk c
  | .postedWriteComplete c => coreOk c
  | .sprr c _ _ => coreOk c
  | .sprw c _ _ => coreOk c
  | .fence c _ => coreOk c
  | .breakInstr c => coreOk c
  | .xctlExit c => coreOk c
  | .wdogKick c => coreOk c
  | .watchdogExpiry c => coreOk c
  | .strikerCoreReset c => coreOk c
  | .peek c _ _ _ => coreOk c
  | .qpeek c _ _ _ => coreOk c
  | .poke c _ _ _ _ _ => coreOk c
  | .pokep c _ _ _ _ => coreOk c
  | .handshakeSilence x => unitOk x.unit
  | .halt c _ _ _ _ => coreOk c
  | .run c _ _ _ _ => coreOk c
  | .step c _ _ _ _ => coreOk c
  | .quench c _ _ => coreOk c
  | .reheat c _ _ => coreOk c
  | .waitev c _ _ _ => coreOk c
  | .waitevDeadline c => coreOk c
  | .arm c _ _ => coreOk c
  | .disarm c _ => coreOk c
  | .fire c _ _ => coreOk c
  | .evpop c _ _ => coreOk c
  | .tnow c _ => coreOk c
  | .twait c _ => coreOk c
  | .twaitExpiry c => coreOk c
  | .capt c _ _ => coreOk c
  | .cwait c _ _ _ => coreOk c
  | .cwaitDeadline c => coreOk c
  | .swg c _ _ => coreOk c
  | .txb c _ => coreOk c
  | .txc c _ _ _ => coreOk c
  | .txa c _ => coreOk c
  | .lck c _ _ _ => coreOk c
  | .lckWaitLimit lock m => decide (lock < 256 ∧ m.ok)
  | .ulk c _ _ => coreOk c
  | .leaseLapse lock => decide (lock < 256)
  | .lgrRead c _ _ => coreOk c
  | .lgrOverheadOpen c _ => coreOk c
  | .lgrOverheadClose c _ => coreOk c
  | .lgrSeal c _ => coreOk c
  | .send c _ _ => coreOk c
  | .recv c _ _ => coreOk c
  | .recvDeadline c => coreOk c
  | .vtx c _ => coreOk c
  | .vrx c _ => coreOk c
  | .lockAcquire m lock waitUs => decide (lock < 256 ∧ waitUs < 2 ^ 32) && m.ok
  | .lockRelease m lock => decide (lock < 256) && m.ok
  | .lockReleaseClean m lock => decide (lock < 256) && m.ok
  | .recipeLoad m image target => decide (image < 2 ^ 48 ∧ target < 2 ^ 16) && m.ok
  | .recipeLoadDone => true
  | .slotTimerExpiry c slot => decide (coreOk c ∧ slot < 64)
  | .triggerEval matrix => decide (matrix < 9)
  | .xtrigInEdge => true
  | .xtrigOutPulseEnd => true
  | .trgArm m matrix => decide (matrix < 9) && m.ok
  | .hgrpArm m => m.ok
  | .unitHaltAck unit _ _ => unitOk unit
  | .lockHeldRelease unit => unitOk unit
  | .haltDeferralExpiry unit => unitOk unit
  | .unitSelfHalt unit _ _ _ _ => unitOk unit
  | .unitGate unit => unitOk unit
  | .unitUngate unit => unitOk unit
  | .unitProbe m unit => unitOk unit && m.ok
  | .probeAnswer unit _ => unitOk unit
  | .probeTimeout unit => unitOk unit
  | .stepCountReached x => unitOk x.unit
  | .stepLimitExpiry unit _ => unitOk unit
  | .rcCmdHalt m target _ _ => decide (target < 65536) && m.ok
  | .rcCmdRun m target _ => decide (target < 65536) && m.ok
  | .rcCmdStep m target _ count => decide (target < 65536 ∧ count < 65536) && m.ok
  | .unitResetDone unit => unitOk unit
  | .unitResetTimeout unit => unitOk unit
  | .quenchPin => true
  | .quenchPinRelease => true
  | .qchCmdQuench m mask => decide (mask < 2 ^ 32) && m.ok
  | .qchCmdReheat m mask => decide (mask < 2 ^ 32) && m.ok
  | .quenchAssert => true
  | .unitQuenchAck unit _ _ => unitOk unit
  | .quenchAckTimeout unit _ _ => unitOk unit
  | .rampNotchStep die => decide (die < 32)
  | .ballastCodeStep die => decide (die < 32)
  | .settleEnd _ _ _ => true
  | .blwArm m => m.ok
  | .linkBanked link => decide (link < 48)
  | .bankTimeout link => decide (link < 48)
  | .peerWakeRequest link => decide (link < 48)
  | .keepaliveTimer link => decide (link < 48)
  | .bankedFlitRx link _ => decide (link < 48)
  | .linkHoldExpiry link => decide (link < 48)
  | .bnkArm m => m.ok
  | .reheatStart => true
  | .reheatDrain => true
  | .reheatRelease _ => true
  | .planRegister m n addr => decide (n < 64 ∧ addr < 2 ^ 48) && m.ok
  | .planClear m n => decide (n < 64) && m.ok
  | .captureStartReg m n => decide (n < 64) && m.ok
  | .sizingDone slot => decide (slot < 4)
  | .blockCommit slot _ _ data => decide (slot < 4) && data.length == 4096
  | .scanReadDone slot scan _ => decide (slot < 4 ∧ scan.bank < 8)
  | .scanSilence slot scan => decide (slot < 4 ∧ scan.bank < 8)
  | .sramPortSilence die bank => decide (die < 32) && decide (bank < 8)
  | .sramUncorrectable slot _ _ => decide (slot < 4)
  | .sramFallbackDeadline slot => decide (slot < 4)
  | .hostPathLoss => true
  | .captureClose slot => decide (slot < 4)
  | .captureCancel m handle => decide (handle < 65536) && m.ok
  | .captureRelease m handle => decide (handle < 65536) && m.ok
  | .swageBlock node slot => decide (node < 8) && decide (slot < 4)
  | .swgChainAppend m handle desc => decide (handle < 65536 ∧ desc < 2 ^ 48) && m.ok
  | .swgCancel m handle => decide (handle < 65536) && m.ok
  | .arbiterDecision node out arrivals _ => decide (node < 8) && decide (out < 11) && arrivals.all (transferOk node out)
  | .quotaWindowEnd node out => decide (node < 8) && decide (out < 11)
  | .spnArm m node => decide (node < 8) && m.ok
  | .maxwaitRead m node r => decide (node < 8 ∧ r < 48) && m.ok
  | .cmdDispatchNotice ctx seq cls queue engine => ctxOk ctx && decide (seq < 2 ^ 32) && decide (cls < 16) && decide (queue < 256) && unitOk engine
  | .cmdCompleteNotice ctx seq => ctxOk ctx && decide (seq < 2 ^ 32)
  | .cmdAbortNotice ctx seq => ctxOk ctx && decide (seq < 2 ^ 32)
  | .wheelTick node => decide (node < 8)
  | .commandExpiry node ctx _ => decide (node < 8) && ctxOk ctx
  | .stepBegin ctx step => ctxOk ctx && decide (step < 2 ^ 32)
  | .updateBegin ctx step => ctxOk ctx && decide (step < 2 ^ 32)
  | .stepEnd ctx step => ctxOk ctx && decide (step < 2 ^ 32)
  | .hwtArm m => m.ok
  | .estSelect m ctx cls => decide (ctxOk ctx ∧ cls < 16) && m.ok
  | .estReset m ctx cls => decide (ctxOk ctx ∧ cls < 16) && m.ok
  | .syncSignalReport obj value chip src engine _ => reportOk obj value engine && decide (src < if chip then 65536 else 2048)
  | .waitBeginReport obj value ctx unit engine _ => reportOk obj value engine && ctxOk ctx && unitOk unit
  | .waitEndReport obj value ctx unit engine _ => reportOk obj value engine && ctxOk ctx && unitOk unit
  | .staleReread obj value waiters => decide (obj < 65536) && decide (value < 2 ^ 32) && waiters.all fun e => ctxOk e.1 && unitOk e.2.1 && decide (e.2.2 < 2 ^ 32)
  | .waitAgeThreshold obj ctx unit => decide (obj < 65536) && ctxOk ctx && unitOk unit
  | .wfgAnalysis => true
  | .wfgAnalyze m => m.ok
  | .wfgDump m addr capacity => decide (addr % 8 = 0 ∧ addr < 2 ^ 48 ∧ capacity < 65536) && m.ok
  | .wfgArm m => m.ok
  | .objRead m obj => decide (obj < 65536) && m.ok
  | .objDeclare m obj kind _ producer => decide (obj < 65536 ∧ kind < 4 ∧ producer < 65536) && m.ok
  | .objForget m obj => decide (obj < 65536) && m.ok
  | .rcvRecover m p reason => decide (p < 8 ∧ reason < 16) && m.ok
  | .rcvFenceOnly m p reason => decide (p < 8 ∧ reason < 16) && m.ok
  | .rcvContinue m p => decide (p < 8) && m.ok
  | .rcvUnfence m p => decide (p < 8) && m.ok
  | .rcvUnitReset m unit => decide (unit < 65536) && m.ok
  | .rcvLinkRetrain m link => decide (link < 65536) && m.ok
  | .rcvRetire m => m.ok
  | .drainEnd p _ _ => decide (p < 8)
  | .selfRefreshConfirm stack => decide (stack < 16)
  | .holdTimeout p => decide (p < 8)
  | .partitionResetRelease p => decide (p < 8)
  | .partitionResetCheck p => decide (p < 8)
  | .memoryTrainDone group _ _ => decide (group < 32)
  | .linkTrainDone link _ => decide (link < 48)
  | .resumeDone p _ _ => decide (p < 8)
  | .partitionLimitExpiry p => decide (p < 8)
  | .rcvArm m => m.ok
  | .sampleBoundary samples reports => decide (samples.length = 32 ∧ reports.all activityOk = true)
  | .intervalEnd node => decide (node < 8)
  | .pmbusCheck readings => decide (readings.length = 8) && readings.all PmbReading.ok
  | .pmbusStretchTimeout entry => decide (entry < 8)
  | .pmbAlert => true
  | .epochClose => true
  | .batchSigned => true
  | .calWindowEnd => true
  | .calSolveDone => true
  | .overheadLimit die => decide (die < 32)
  | .ldgTagCmd m ctx delay => decide (ctx < 2 ^ 16 ∧ delay < 2 ^ 48) && m.ok
  | .ldgAckWrite m _ => m.ok
  | .ldgArm m => m.ok
  | .ldgCoefLoad m addr _ => decide (addr < 2 ^ 48) && m.ok
  | .attrPeakRead m node => decide (node < 8) && m.ok
  | .groupTakesEffect _ => true
  | .timXchipArm m => m.ok
  | .txnOpen m => m.ok
  | .txnCommit m id => decide (id < 16) && m.ok
  | .txnAbort m id => decide (id < 16) && m.ok
  | .prepareDone id => decide (id < 16)
  | .commitInstant id => decide (id < 16)
  | .txnIdTimeout id => decide (id < 16)
  | .heartbeatLoss => true
  | .failover m => m.ok
  | .restandby m => m.ok
  | .mirrorDrainDone => true
  | .handoverInstant => true
  | .standbySyncDone => true
  | .peerReadyTimeout => true
  | .updErase m slot offset length => m.ok && decide (slot < 2) && decide (offset < 2 ^ 24) && decide (length < 2 ^ 24)
  | .updWrite m slot offset length => m.ok && decide (slot < 2) && decide (offset < 2 ^ 24) && decide (length < 2 ^ 24)
  | .updVerify m slot => m.ok && decide (slot < 2)
  | .updActivate m slot => m.ok && decide (slot < 2)
  | .updOpDone => true
  | .mapOut m group => decide (group < 64) && m.ok
  | .mapoutCopyDone _ _ => true
  | .mapIn m group => decide (group < 64) && m.ok
  | .mapInTestDone _ => true
  | .timRecal m spoke _ => decide (spoke < 32) && m.ok
  | .recalMeasureDone spoke _ => decide (spoke < 32)
  | .dbgAttach m c => coreOk c && m.ok
  | .dbgDetach m c => coreOk c && m.ok
  | .dbgHalt m c => coreOk c && m.ok
  | .dbgResume m c => coreOk c && m.ok
  | .dbgStep m c _ => coreOk c && m.ok
  | .breakpointHit c => coreOk c
  | .dbgLdataAccess m c _ => coreOk c && m.ok
  | .vtInWrite m c _ => coreOk c && m.ok
  | .vtOutRelease m c => coreOk c && m.ok
  | .trst => true
  | .patArm m => m.ok
  | .getVersion _ => true
  | .getCapabilities _ => true
  | .negotiateAlgorithms _ _ => true
  | .getDigests _ => true
  | .getCertificate _ _ => true
  | .challenge _ _ => true
  | .getMeasurements _ _ => true
  | .keyExchange _ _ => true
  | .finish _ _ => true
  | .getEncapsulatedRequest _ => true
  | .deliverEncapsulatedResponse _ _ _ => true
  | .heartbeat s => decide (s < 20)
  | .keyUpdate s => decide (s < 20)
  | .endSession s => decide (s < 20)
  | .spdmUnsupportedRequest _ code => !(spdmCodes.contains code)
  | .sessionTimeout s => decide (s < 20)
  | .vynLinkTrained lanes => decide (lanes = 1 ∨ lanes = 2)
  | .hello hdr _ _ _ => hdr.spells 0x01
  | .credit hdr _ => hdr.spells 0x03
  | .nak hdr _ => hdr.spells 0x04
  | .spdmFrame hdr _ => hdr.spells 0x10
  | .securedFrame hdr _ _ => hdr.spells 0x11
  | .replayTimeout _ => true
  | .autReq s _ level _ => decide (level < 8) && decide (s < 20)
  | .vynRead s _ _ addr _ => decide (addr < 2 ^ 64) && decide (s < 20)
  | .vynWrite s _ _ addr _ => decide (addr < 2 ^ 64) && decide (s < 20)
  | .exportOpen s _ _ _ _ => decide (s < 20)
  | .exportSizingDone _ => true
  | .exportRead s _ _ _ _ => decide (s < 20)
  | .exportDataFrame _ => true
  | .exportEnd s _ _ => decide (s < 20)
  | .innerUnknown s _ opcode => !(innerOpcodes.contains opcode) && decide (s < 20)
  | .hostExport m handle recipient _ _ limitMib => decide (handle < 2 ^ 16 ∧ recipient < 2 ^ 8 ∧ limitMib < 2 ^ 32) && m.ok
  | .hostExportDone _ => true
  | .rcptRegister m slot addr => decide (slot < 8 ∧ addr < 2 ^ 48) && m.ok
  | .rcptClear m slot => decide (slot < 8) && m.ok
  | .rcptLock m slot => decide (slot < 8) && m.ok
  | .setEndpointId _ eid => decide (eid < 256)
  | .getEndpointId _ => true
  | .getEndpointUuid _ => true
  | .getMctpVersionSupport _ => true
  | .getMessageTypeSupport _ => true
  | .getVendorDefinedMessageSupport _ => true
  | .prepareForEndpointDiscovery => true
  | .endpointDiscovery => true
  | .mctpUnsupportedCmd tr cmd => !((controlCodes tr).contains cmd)
  | .mctpDiscard _ ty => !([0x00, 0x05, 0x06, 0x7F].contains ty)
  | .entdaa addr => decide (addr < 128)
  | .rstdaa => true
  | .enec _ => true
  | .disec _ => true
  | .getpid => true
  | .getbcr => true
  | .getdcr => true
  | .getstatus => true
  | .getmrl => true
  | .setmrl n => decide (n < 65536)
  | .getmwl => true
  | .setmwl n => decide (n < 65536)
  | .reqDoorbell chan _ => decide (chan < 16)
  | .rspReadyRelease chan => decide (chan < 16)
  | .warmResetRequestRepeat => true
  | .jtagIdcode => true
  | .jtagIjtag => true
  | .jtagMbox _ => true
  | .jtagBypass code => !([0x01, 0x20, 0x21].contains code.toNat)
  | .sibOpen s die seg => decide (s < 20) && decide (die < 32) && decide (seg < 64)
  | .alertClear m _ => m.ok
  | .registerWrite m addr _ _ => decide (addr < 2 ^ 64) && m.ok
  | .coldReset => true
  | .porRelease => true
  | .selfTestDone _ _ => true
  | .spineStageDone _ => true
  | .crucibleStageDone _ => true
  | .trimsStageDone trips => trips.length == 32 && trips.all fun n => decide (n < 4095)
  | .flashStageDone _ => true
  | .loadStageDone => true
  | .warmResetReport => true
  | .computeDieRelease faults late => (faults.all fun e => unitOk e.1 && decide (e.2 < 7)) && late.all unitOk
  | .chipResetComplete => true
  | .chipResetTimeout => true
  | .hearthRestart m => m.ok
  | .reboot m => m.ok
  | .emberEnter m => m.ok
  | .emberExit m => m.ok
  | .emberExitDone => true
  | .powerDomainFault d => decide (d < 119)
  | .haltBoundNsExpiry unit => unitOk unit
  | .linkReturned link => decide (link < 48)
  | .emberEntryDone => true
  | .fabricLinkStateChange link state => decide (link < 48) && decide (state < 6) && decide (state ≠ 4)
  | .vynLinkDown => true
  | .fencedNewRequest p _ => decide (p < 8)

end Sys2Proof
end

