-- ==== Sys2Proof/Safety.lean ====
section
/-! DEFINITION. The terms the statements are made in: a safe state, when a command is carried out, and what it leaves. -/

namespace Sys2Proof.Machine

open Sys2Proof

/-- The memory is in its canonical form, and so is every register copy whose value is kept: no key twice, and none at
its reset value. -/
def State.Canonical (s : State) : Prop := Memory.wf s.hub.mem = true ∧ canonical regDefault s.hub.regs = true

/-- A command answers a next state in which `p` holds. -/
def Completes (i : Instr) (s : State) (p : State → Prop) : Prop := ∃ t, exec i s = .next t ∧ p t

/-- Every byte of memory reads as before, but those at which `p` holds. -/
def SameMemory (p : Nat → Prop) (s t : State) : Prop := ∀ a, ¬ p a → t.hub.byte a = s.hub.byte a

/-- Every register copy holds what it held, but those at which `p` holds. -/
def SameRegs (p : Reg → Nat → Prop) (s t : State) : Prop := ∀ r i, ¬ p r i → t.hub.reg r i = s.hub.reg r i

/-- Of the registers nothing changes but the copies of `p`, and no byte of memory. -/
def Only (p : Reg → Nat → Prop) (s t : State) : Prop := SameRegs p s t ∧ SameMemory (fun _ => False) s t

/-- The registers that count what becomes of a record on its way to the trace and the matrices (R74, R168). -/
abbrev TraceReg (r : Reg) : Prop := r = .TRC_COLLECT ∨ r = .TRC_LOSS_TOTAL ∨ r = .TRG_STATUS ∨ r = .HTRG_STATUS

/-- The registers of a Striker core that the end of a wait, or a delivery to one of its slots, may write (R153, R154). -/
abbrev CoreReg (r : Reg) : Prop := r = .STK_DBG_GPR ∨ r = .STK_DBG_PC ∨ r = .STK_INSTRET ∨ r = .STK_SLOTOVF ∨
  r = .STK_DBG_STATUS ∨ r = .STK_WDOG_COUNT

/-- The commands that may move Chip Time: the timed events (assumption 5), COLD_RESET, TIM_STEP, and the writes that may
reach it. -/
def movesTime : Instr → Bool
  | .pllLock .. | .powerOnLockTimeout .. | .trimSlewTick .. | .timeExchange .. | .parentSilent .. | .timStep ..
  | .lossRecordTimer .. | .ringStop .. | .postedWriteComplete .. | .watchdogExpiry .. | .handshakeSilence ..
  | .waitevDeadline .. | .twaitExpiry .. | .cwaitDeadline .. | .lckWaitLimit .. | .leaseLapse ..
  | .recvDeadline .. | .slotTimerExpiry .. | .xtrigOutPulseEnd .. | .haltDeferralExpiry .. | .probeTimeout ..
  | .stepLimitExpiry .. | .unitResetTimeout .. | .quenchAckTimeout .. | .rampNotchStep .. | .ballastCodeStep ..
  | .settleEnd .. | .bankTimeout .. | .keepaliveTimer .. | .linkHoldExpiry .. | .reheatStart .. | .reheatDrain ..
  | .reheatRelease .. | .sramFallbackDeadline .. | .quotaWindowEnd .. | .wheelTick .. | .drainEnd ..
  | .holdTimeout .. | .partitionResetRelease .. | .partitionResetCheck .. | .partitionLimitExpiry ..
  | .sampleBoundary .. | .intervalEnd .. | .pmbusCheck .. | .epochClose .. | .overheadLimit ..
  | .groupTakesEffect .. | .commitInstant .. | .txnIdTimeout .. | .handoverInstant .. | .peerReadyTimeout ..
  | .sessionTimeout .. | .replayTimeout .. | .vynWrite .. | .warmResetRequestRepeat .. | .registerWrite ..
  | .coldReset .. | .computeDieRelease .. | .chipResetTimeout .. | .haltBoundNsExpiry .. => true
  | _ => false

/-! ### A Striker instruction -/

/-- Core `c` carries out the instruction at its PC (R91): it is between instructions, its PC stands in local memory, no
breakpoint names it (R464), and neither a step (R467) nor a halt asked for (R462) ends with it, nor does a WATCHDOG held
off (R133) follow it. -/
structure Runs (s : State) (c : Nat) : Prop where
  core : coreOk c = true
  ready : s.hub.ready c = true
  inside : (s.hub.pc c).toNat < localSize c
  noBreak : s.hub.breakpointHit c (s.hub.pc c).toNat = false
  noStep : s.hub.cget F.STK_DBG_STATUS_steps_left c = 0
  noHalt : (s.hub.core c).haltAsked = false
  noWatch : (s.hub.core c).wdogRaised = true → s.hub.cget F.STK_CAUSE_active c ≠ 0

/-- The copies that a completed instruction of core `c` writes: its PC, its count of instructions, and rd unless it is
h0. -/
def InstrReg (c : Nat) (rd : RegNo) (r : Reg) (i : Nat) : Prop :=
  (r = .STK_DBG_PC ∧ i = coreIdx c) ∨ (r = .STK_INSTRET ∧ i = coreIdx c) ∨
    (rd ≠ 0 ∧ r = .STK_DBG_GPR ∧ i = coreIdx c * 32 + rd.toNat)

/-- The hub without its register values, its cores and its memory. -/
def Hub.others (h : Hub) : Hub := { h with regs := [], cores := [], mem := [] }

/-- What a register instruction of core `c` leaves: rd holds `v` (h0 reads zero), the PC is `pc`, the instruction is
counted, and nothing else has changed but memory, of which `at_` says where it may. -/
structure Left (s t : State) (c : Nat) (rd : RegNo) (v pc : Word) (at_ : Nat → Prop) : Prop where
  dest : t.hub.gpr c rd = if rd = 0 then 0 else v
  pc : t.hub.pc c = pc
  count : t.hub.reg .STK_INSTRET (coreIdx c) = s.hub.reg .STK_INSTRET (coreIdx c) + 1
  regs : SameRegs (InstrReg c rd) s t
  mem : SameMemory at_ s t
  core : t.hub.core c = { s.hub.core c with bpSkip := false }
  cores : ∀ d, d ≠ c → t.hub.core d = s.hub.core d
  rest : t.hub.others = s.hub.others
  clk : t.clk = s.clk
  pending : t.pending = s.pending

/-- The copy of general register `rd` of core `c`, which h0 has not. -/
def RdReg (c : Nat) (rd : RegNo) (r : Reg) (i : Nat) : Prop :=
  rd ≠ 0 ∧ r = .STK_DBG_GPR ∧ i = coreIdx c * 32 + rd.toNat

/-- What an S instruction of core `c` leaves that ends with `st` (R88): the status in h31, the PC at the next
instruction, the instruction counted; of the registers nothing else has changed but those of `p`, and no byte of memory. -/
structure EndsS (s t : State) (c : Nat) (st : Status) (p : Reg → Nat → Prop) : Prop where
  status : t.hub.gpr c statusReg = BitVec.ofNat 64 st.code
  pc : t.hub.pc c = s.hub.pc c + 4
  count : t.hub.reg .STK_INSTRET (coreIdx c) = s.hub.reg .STK_INSTRET (coreIdx c) + 1
  regs : SameRegs (fun r i => InstrReg c statusReg r i ∨ p r i) s t
  mem : SameMemory (fun _ => False) s t
  clk : t.clk = s.clk
  pending : t.pending = s.pending

/-- The same, with the result `v` in rd. -/
def ResultS (s : State) (c : Nat) (rd : RegNo) (v : Word) (st : Status) (t : State) : Prop :=
  EndsS s t c st (RdReg c rd) ∧ t.hub.gpr c rd = if rd = 0 then 0 else v

/-- Core `c` stays in its instruction, waiting in `w`; no register and no byte of memory has changed. -/
structure Waits (s t : State) (c : Nat) (w : Wait) : Prop where
  wait : (t.hub.core c).wait = w
  regs : SameRegs (fun _ _ => False) s t
  mem : SameMemory (fun _ => False) s t
  clk : t.clk = s.clk
  pending : t.pending = s.pending

/-- What an exception of core `c` leaves (R130): where it came from, its cause and faulting address, and the PC at the
handler, with nothing else changed. -/
structure Raised (s t : State) (c : Nat) (k : Cause) (bad : Nat) : Prop where
  epc : t.hub.reg .STK_EPC (coreIdx c) = s.hub.pc c
  cause : t.hub.cget F.STK_CAUSE_cause c = k.code
  active : t.hub.cget F.STK_CAUSE_active c = 1
  bad : t.hub.reg .STK_BADADDR (coreIdx c) = BitVec.ofNat 64 bad
  pc : t.hub.pc c = BitVec.ofNat 64 (s.hub.cget F.STK_EVEC_vector c * 4)
  regs : SameRegs (fun r i => i = coreIdx c ∧
    (r = .STK_EPC ∨ r = .STK_CAUSE ∨ r = .STK_BADADDR ∨ r = .STK_DBG_PC)) s t
  mem : SameMemory (fun _ => False) s t
  clk : t.clk = s.clk
  pending : t.pending = s.pending

/-! ### A register write -/

/-- Master `m` may write a register that needs `level` (R480): it exists, holds the level, and has no transaction open,
and no transaction is prepared, so that no claim stands (R430, R433). -/
structure Admits (s : State) (m : Master) (level : Nat) : Prop where
  master : m.ok = true
  level : level ≤ s.hub.levelOf m
  noTxn : s.hub.openTxn m = none
  noClaim : ∀ x, x < 16 → s.hub.get F.TXN_STATE_state x ≠ 3

/-- The queue and the clock are as they were, and `p` holds of the hub. -/
def Acts (s : State) (p : Hub → Prop) (t : State) : Prop := t.clk = s.clk ∧ t.pending = s.pending ∧ p t.hub

/-- Chip Time has come forward to the instant `d` that a timed event fell due at, no further; the queue is as it was, and
`p` holds of the hub (DESIGN CHOICE, assumption 5). -/
def ActsAt (s : State) (d : Nat) (p : Hub → Prop) (t : State) : Prop :=
  t.clk = s.clk.reach d ∧ t.pending = s.pending ∧ p t.hub

/-- Master `m`'s register write ended with status OK (R566), and `p` holds of the hub. -/
def Accepts (s : State) (m : Master) (p : Hub → Prop) (t : State) : Prop :=
  (t.hub.master m).wstat = .ok ∧ Acts s p t

/-- A register write by `m` that ends with status `st` and has no effect. -/
def TurnedAway (s : State) (m : Master) (st : Status) (t : State) : Prop := Acts s (fun h => h = s.hub.wrote m st) t

/-- The hub has no run-control command waiting, no step and no halt under way, and no wait tracked. -/
def Hub.Quiet (h : Hub) : Prop :=
  h.cmds = [] ∧ h.wfg.objs = [] ∧ ∀ u, (h.unit u).step = none ∧ (h.unit u).halt = none

/-- Session `n` has sent a valid message at `t` (R487). -/
def Hub.hears (t n : Nat) (h : Hub) : Hub :=
  { h with sess := h.sess.map fun (e : Nat × SessX) => if e.1 = n then (n, { e.2 with lastAt := t }) else e }

/-- A recovery command of master `m` ended with `st` in RCV_RESULT (R362). -/
def RcvEnds (m : Master) (st : Status) (h : Hub) : Prop :=
  h.get F.RCV_RESULT_status m.idx = st.code ∧ h.get F.RCV_RESULT_done m.idx = 1

end Sys2Proof.Machine
end

