-- ==== Sys2Proof/Certificates/Slice0/Obligations.lean ====
section
/-! DEFINITION. The statements about the hub, for the provers. -/

open Sys2Proof Sys2Proof.Machine

/-- O1. For every command and every state, a step of the state with that command at the front of its queue is the
command's effect on the state with the queue's rest; on an empty queue the step is the idle step (assumption 6, a
design choice). (spec/INDEX.md: the block's commands) -/
def Obligations.StepRunsFrontCommand : Prop :=
  (∀ (i : Instr) (s : State), step { s with pending := i :: s.pending } = exec i s) ∧
  (∀ s : State, s.pending = [] → step s = s.idle)

/-- O2. Whatever the command, if it answers a next state then the queue of waiting commands is what it was: a step
takes one command from the front and adds none (assumption 1). (spec/INDEX.md: the block's commands) -/
def Obligations.QueueKeptByEveryCommand : Prop :=
  ∀ (i : Instr) (s t : State), exec i s = .next t → t.pending = s.pending

/-- O3. In every state in which core c carries out its instruction, ADD, SUB, AND, OR, XOR, SHL, SHR, SAR, MUL, MULH,
MIN, MAX, SLT and SLTU complete; rd holds the result R105 gives, of the values rs1 and rs2 had before; a write of h0
is discarded; the PC advances by 4; every other register, memory byte and part of the hub is unchanged. In every state
in which core c carries out its instruction, ADDI adds the sign-extended immediate, ANDI, ORI and XORI use the
zero-extended one, SHLI and SHRI shift by the 6-bit amount, and LUI with hw 0 to 2 writes imm19 shifted left by 16 ×
(hw + 1); each writes rd alone. LUI with hw 3 raises ILLEGAL and writes no rd. (spec/03_striker_instruction_set.md:
the register-register rows, spec/03_striker_instruction_set.md: the immediate rows and the extension of immediates) -/
def Obligations.AluResults : Prop :=
    (∀ (s : State) (c : Nat) (rd rs1 rs2 : RegNo), Runs s c →
      let x := s.hub.gpr c rs1
      let y := s.hub.gpr c rs2
      let gives := fun (v : Word) (t : State) => Left s t c rd v (s.hub.pc c + 4) fun _ => False
      Completes (.add c rd rs1 rs2) s (gives (x + y)) ∧
      Completes (.sub c rd rs1 rs2) s (gives (x - y)) ∧
      Completes (.and c rd rs1 rs2) s (gives (x &&& y)) ∧
      Completes (.or c rd rs1 rs2) s (gives (x ||| y)) ∧
      Completes (.xor c rd rs1 rs2) s (gives (x ^^^ y)) ∧
      Completes (.shl c rd rs1 rs2) s (gives (x <<< (y.extractLsb' 0 6))) ∧
      Completes (.shr c rd rs1 rs2) s (gives (x >>> (y.extractLsb' 0 6))) ∧
      Completes (.sar c rd rs1 rs2) s (gives (x.sshiftRight' (y.extractLsb' 0 6))) ∧
      Completes (.mul c rd rs1 rs2) s (gives ((x.signExtend 128 * y.signExtend 128).extractLsb' 0 64)) ∧
      Completes (.mulh c rd rs1 rs2) s (gives ((x.signExtend 128 * y.signExtend 128).extractLsb' 64 64)) ∧
      Completes (.min c rd rs1 rs2) s (gives (BitVec.ofInt 64 (min x.toInt y.toInt))) ∧
      Completes (.max c rd rs1 rs2) s (gives (BitVec.ofInt 64 (max x.toInt y.toInt))) ∧
      Completes (.slt c rd rs1 rs2) s (gives (if x.toInt < y.toInt then 1 else 0)) ∧
      Completes (.sltu c rd rs1 rs2) s (gives (if x.toNat < y.toNat then 1 else 0))) ∧
    (∀ (s : State) (c : Nat) (rd rs1 : RegNo), Runs s c →
      let x := s.hub.gpr c rs1
      let gives := fun (v : Word) (t : State) => Left s t c rd v (s.hub.pc c + 4) fun _ => False
      (∀ imm : Imm16,
        Completes (.addi c rd rs1 imm) s (gives (BitVec.ofInt 64 (x.toInt + imm.toInt))) ∧
        Completes (.andi c rd rs1 imm) s (gives (BitVec.ofNat 64 (x.toNat &&& imm.toNat))) ∧
        Completes (.ori c rd rs1 imm) s (gives (BitVec.ofNat 64 (x.toNat ||| imm.toNat))) ∧
        Completes (.xori c rd rs1 imm) s (gives (BitVec.ofNat 64 (x.toNat ^^^ imm.toNat)))) ∧
      (∀ sh : BitVec 6,
        Completes (.shli c rd rs1 sh) s (gives (BitVec.ofNat 64 (x.toNat * 2 ^ sh.toNat))) ∧
        Completes (.shri c rd rs1 sh) s (gives (BitVec.ofNat 64 (x.toNat / 2 ^ sh.toNat)))) ∧
      ∀ (hw : BitVec 2) (imm : BitVec 19),
        (hw ≠ 3 → Completes (.lui c rd hw imm) s (gives (BitVec.ofNat 64 (imm.toNat * 2 ^ (16 * (hw.toNat + 1)))))) ∧
        (hw = 3 → s.hub.cget F.STK_CAUSE_active c = 0 → Completes (.lui c rd hw imm) s fun t => Raised s t c .illegal 0))

/-- O4. In every state in which core c carries out its instruction, with a the address rs1 + sext(imm16): LD, LW, LWU,
LH, LHU, LB and LBU with a aligned and inside local memory write to rd the little-endian bytes at a, sign- or
zero-extended; ST, SW, SH and SB store the low bytes of rs2 at a and leave every other byte; nothing else changes but
the PC and the instruction count. An access that reaches beyond local memory raises LOCAL_RANGE, misaligned or not,
and a misaligned one inside it raises LOCAL_ALIGN, when no exception is active; nothing is loaded or stored then.
(R93) -/
def Obligations.LocalAccesses : Prop :=
  ∀ (s : State) (c : Nat) (r rs1 : RegNo) (imm : Imm16), Runs s c →
    let a := (s.hub.gpr c rs1 + imm.signExtend 64).toNat
    let b := fun (k : Nat) => (s.hub.byte (localBase c + a + k)).setWidth 64
    let gives := fun (v : Word) (t : State) => Left s t c r v (s.hub.pc c + 4) fun _ => False
    let stores := fun (n : Nat) (t : State) =>
      Left s t c 0 0 (s.hub.pc c + 4) (fun x => localBase c + a ≤ x ∧ x < localBase c + a + n) ∧
      ∀ k, k < n → t.hub.byte (localBase c + a + k) = (s.hub.gpr c r).extractLsb' (8 * k) 8
    let raises := fun (n : Nat) (t : State) =>
      if localSize c < a + n then Raised s t c .localRange a else Raised s t c .localAlign a
    (a + 8 ≤ localSize c ∧ a % 8 = 0 →
      Completes (.ld c r rs1 imm) s (gives
        (b 0 ||| b 1 <<< 8 ||| b 2 <<< 16 ||| b 3 <<< 24 ||| b 4 <<< 32 ||| b 5 <<< 40 ||| b 6 <<< 48 ||| b 7 <<< 56)) ∧
      Completes (.st c r rs1 imm) s (stores 8)) ∧
    (a + 4 ≤ localSize c ∧ a % 4 = 0 →
      let w := b 0 ||| b 1 <<< 8 ||| b 2 <<< 16 ||| b 3 <<< 24
      Completes (.lw c r rs1 imm) s (gives ((w.setWidth 32).signExtend 64)) ∧
      Completes (.lwu c r rs1 imm) s (gives w) ∧ Completes (.sw c r rs1 imm) s (stores 4)) ∧
    (a + 2 ≤ localSize c ∧ a % 2 = 0 →
      let w := b 0 ||| b 1 <<< 8
      Completes (.lh c r rs1 imm) s (gives ((w.setWidth 16).signExtend 64)) ∧
      Completes (.lhu c r rs1 imm) s (gives w) ∧ Completes (.sh c r rs1 imm) s (stores 2)) ∧
    (a + 1 ≤ localSize c →
      Completes (.lb c r rs1 imm) s (gives (((b 0).setWidth 8).signExtend 64)) ∧
      Completes (.lbu c r rs1 imm) s (gives (b 0)) ∧ Completes (.sb c r rs1 imm) s (stores 1)) ∧
    (s.hub.cget F.STK_CAUSE_active c = 0 →
      (¬ (a + 8 ≤ localSize c ∧ a % 8 = 0) →
        Completes (.ld c r rs1 imm) s (raises 8) ∧ Completes (.st c r rs1 imm) s (raises 8)) ∧
      (¬ (a + 4 ≤ localSize c ∧ a % 4 = 0) →
        Completes (.lw c r rs1 imm) s (raises 4) ∧ Completes (.lwu c r rs1 imm) s (raises 4) ∧
        Completes (.sw c r rs1 imm) s (raises 4)) ∧
      (¬ (a + 2 ≤ localSize c ∧ a % 2 = 0) →
        Completes (.lh c r rs1 imm) s (raises 2) ∧ Completes (.lhu c r rs1 imm) s (raises 2) ∧
        Completes (.sh c r rs1 imm) s (raises 2)) ∧
      (¬ a + 1 ≤ localSize c →
        Completes (.lb c r rs1 imm) s (raises 1) ∧ Completes (.lbu c r rs1 imm) s (raises 1) ∧
        Completes (.sb c r rs1 imm) s (raises 1)))

/-- O5. In every state in which core c carries out its instruction, BEQ, BNE, BLT, BGE, BLTU and BGEU add 4 times the
sign-extended offset to the address of the branch when their comparison holds and 4 otherwise, and write no register;
JAL and JALR write the return address to rd and jump, JALR to rs1 + sext(imm16) with bits [1:0] cleared; after
STK_XCTL.exit was written the JALR also clears STK_CAUSE.active. (spec/03_striker_instruction_set.md: the branch and
jump rows) -/
def Obligations.BranchesAndJumps : Prop :=
  ∀ (s : State) (c : Nat), Runs s c →
    let p := s.hub.pc c
    (∀ (rs1 rs2 : RegNo) (off : Imm16),
      let x := s.hub.gpr c rs1
      let y := s.hub.gpr c rs2
      let goes := fun (b : Prop) [Decidable b] (t : State) =>
        Left s t c 0 0 (if b then p + off.signExtend 64 * 4 else p + 4) fun _ => False
      Completes (.beq c rs1 rs2 off) s (goes (x = y)) ∧ Completes (.bne c rs1 rs2 off) s (goes (x ≠ y)) ∧
      Completes (.blt c rs1 rs2 off) s (goes (x.toInt < y.toInt)) ∧
      Completes (.bge c rs1 rs2 off) s (goes (y.toInt ≤ x.toInt)) ∧
      Completes (.bltu c rs1 rs2 off) s (goes (x.toNat < y.toNat)) ∧
      Completes (.bgeu c rs1 rs2 off) s (goes (y.toNat ≤ x.toNat))) ∧
    (∀ (rd : RegNo) (off : BitVec 21),
      Completes (.jal c rd off) s fun t => Left s t c rd (p + 4) (p + off.signExtend 64 * 4) fun _ => False) ∧
    ∀ (rd rs1 : RegNo) (imm : Imm16),
      ((s.hub.core c).exitArmed = false → Completes (.jalr c rd rs1 imm) s fun t =>
        Left s t c rd (p + 4) ((s.hub.gpr c rs1 + imm.signExtend 64) &&& ~~~3) fun _ => False) ∧
      ((s.hub.core c).exitArmed = true → Completes (.jalr c rd rs1 imm) s fun t =>
        t.hub.gpr c rd = (if rd = 0 then 0 else p + 4) ∧ t.hub.pc c = (s.hub.gpr c rs1 + imm.signExtend 64) &&& ~~~3 ∧
        t.hub.cget F.STK_CAUSE_active c = 0 ∧ (t.hub.core c).exitArmed = false ∧
        SameRegs (fun r i => InstrReg c rd r i ∨ (r = .STK_CAUSE ∧ i = coreIdx c)) s t ∧ SameMemory (fun _ => False) s t)

/-- O6. PLL_LOCK in a powered hub whose Chip Time has not started starts it at zero; when it has started, the lock
sets pll_locked and the clock does not change. PLL_LOSS_OF_LOCK of a locked PLL leaves the clock as it is, clears
pll_locked, raises the alert cause PLL_UNLOCK and writes an UNLOCK record. POWER_ON_LOCK_TIMEOUT with no lock starts
Chip Time at zero from the free-running output with that alert raised. No memory byte changes, and no register but
those named, the power domains that come up with the end of stage POWER_ON (assumption 46, a design choice), and those
that writing a record may count in. (spec/02_chip_time_and_events.md: the Chip Time unit,
spec/17_resets_power_startup.md: stage POWER_ON) -/
def Obligations.ChipTimeStartsAndFreeRuns : Prop :=
  (∀ s : State, s.hub.powered = true → s.clk.started = false → Completes .pllLock s fun t =>
    t.clk = { chipTime := 0, started := true } ∧ t.pending = s.pending ∧ t.hub.get F.TIM_STATUS_pll_locked = 1 ∧
    SameMemory (fun _ => False) s t ∧
    SameRegs (fun r _ => r = .TIM_STATUS ∨ r = .HRT_BOOT_STATUS ∨ r = .HRT_PWR_DOM) s t) ∧
  (∀ s : State, s.hub.powered = true → s.clk.started = true → Completes .pllLock s fun t =>
    Acts s (fun h => h.get F.TIM_STATUS_pll_locked = 1) t ∧
    SameMemory (fun _ => False) s t ∧ SameRegs (fun r _ => r = .TIM_STATUS) s t) ∧
  (∀ s : State, s.hub.get F.TIM_STATUS_pll_locked = 1 → Completes .pllLossOfLock s fun t =>
    Acts s (fun h => h.get F.TIM_STATUS_pll_locked = 0 ∧ bitAt (h.get F.HRT_ALERT_cause) 0 = true) t ∧
    SameMemory (fun _ => False) s t ∧ SameRegs (fun r _ => r = .TIM_STATUS ∨ r = .HRT_ALERT ∨ TraceReg r) s t) ∧
  (∀ s : State, s.hub.powered = true → s.clk.started = false → Completes .powerOnLockTimeout s fun t =>
    t.clk = { chipTime := 0, started := true } ∧ t.pending = s.pending ∧
    bitAt (t.hub.get F.HRT_ALERT_cause) 0 = true ∧ SameMemory (fun _ => False) s t ∧
    SameRegs (fun r _ => r = .HRT_ALERT ∨ r = .HRT_BOOT_STATUS ∨ r = .HRT_PWR_DOM) s t)

/-- O7. A check word at which a replica whose trim is applied agrees to one tick corrects nothing; beyond one tick the
replica is reloaded, its lag then being what its trim makes up, and its check-error count goes up by one, saturating
(that the lag moves by the drift is the model's, assumption 58). A write of TIM_TRIM_n by a master of level 3 puts the
trim into the register and leaves the change to be slewed. Each slew tick, 1 µs after the last, moves what is left by
one toward zero; with nothing left it changes nothing. No replica steps back, and no memory byte changes. A follower's
exchange over a link that is up records its offset when it falls due; while ACQUIRING a lag beyond 1 µs steps Chip
Time forward by it, a lead beyond 1 µs starts the -200 ppm slew, and the eighth good exchange in a row locks; on a
chip that is no follower an exchange changes nothing. While LOCKED the third bad exchange in a row unlocks. A parent
silent for 4 intervals puts a LOCKED follower into HOLDOVER. TIM_STEP steps Chip Time forward by its ticks, or is
refused with ROLE on a follower; TIM_WALL_OFFSET takes the offset, its stamp and wall_valid.
(spec/02_chip_time_and_events.md: distribution of Chip Time (check words and trims), spec/02_chip_time_and_events.md:
alignment across chips) -/
def Obligations.ReplicasTrimsAndAlignment : Prop :=
    ((∀ (s : State) (n : Nat) (e : Int), n < 32 → (s.hub.trim n - (s.hub.spoke n).lag + e).natAbs ≤ 1 →
      Completes (.checkWord n e) s fun t =>
        Acts s (fun h => (h.spoke n).lag = (s.hub.spoke n).lag - e ∧ (h.spoke n).trimLeft = (s.hub.spoke n).trimLeft ∧
          s.hub.replica s.clk.chipTime n ≤ h.replica s.clk.chipTime n) t ∧
        SameMemory (fun _ => False) s t ∧ SameRegs (fun _ _ => False) s t) ∧
    (∀ (s : State) (n : Nat) (e : Int), n < 32 → 1 < (s.hub.trim n - (s.hub.spoke n).lag + e).natAbs →
      Completes (.checkWord n e) s fun t =>
        Acts s (fun h => (h.spoke n).lag = s.hub.trim n ∧ (h.spoke n).trimLeft = (s.hub.spoke n).trimLeft ∧
          s.hub.replica s.clk.chipTime n ≤ h.replica s.clk.chipTime n ∧
          h.get F.TIM_TRIM_check_errors n = min 255 (s.hub.get F.TIM_TRIM_check_errors n + 1)) t ∧
        SameMemory (fun _ => False) s t ∧ SameRegs (fun r i => (r = .TIM_TRIM ∧ i = n) ∨ TraceReg r) s t) ∧
    (∀ (s : State) (m : Master) (n : Nat) (v : BitVec 12), n < 32 → Admits s m 3 → Completes (.trimWrite m n v) s fun t =>
      Accepts s m (fun h => h.get F.TIM_TRIM_trim n = v.toNat ∧
        (h.spoke n).trimLeft = (s.hub.spoke n).trimLeft + (v.toInt - signedOf 12 (s.hub.get F.TIM_TRIM_trim n)) ∧
        s.hub.replica s.clk.chipTime n ≤ h.replica s.clk.chipTime n) t ∧
      SameMemory (fun _ => False) s t ∧ SameRegs (fun r i => (r = .TIM_TRIM ∧ i = n) ∨ TraceReg r) s t) ∧
    (∀ (s : State) (n : Nat), n < 32 → (s.hub.spoke n).trimLeft = 0 → Completes (.trimSlewTick n) s fun t => t = s) ∧
    (∀ (s : State) (n : Nat), n < 32 → (s.hub.spoke n).trimLeft ≠ 0 → Completes (.trimSlewTick n) s fun t =>
      ActsAt s (s.hub.spoke n).trimAt (fun h =>
        (h.spoke n).trimLeft = (s.hub.spoke n).trimLeft - (s.hub.spoke n).trimLeft.sign ∧
        (h.spoke n).trimAt = (s.clk.reach (s.hub.spoke n).trimAt).chipTime + us 1 ∧
        s.hub.replica t.clk.chipTime n ≤ h.replica t.clk.chipTime n) t ∧
      SameMemory (fun _ => False) s t ∧ SameRegs (fun r _ => TraceReg r) s t)) ∧
    ((∀ (s : State) (o : Int), s.hub.get F.TIM_XCHIP_CFG_role ≠ 2 →
      Completes (.timeExchange o) s (fun t => t = s) ∧ Completes .parentSilent s fun t => t = s) ∧
    (∀ (s : State) (o : Int), s.hub.follows = true → s.hub.parentUp = true →
      let k := s.clk.reach (s.hub.time.heard + us (2 ^ s.hub.get F.TIM_XCHIP_CFG_interval_log2))
      Completes (.timeExchange o) s fun t => t.pending = s.pending ∧ SameMemory (fun _ => False) s t ∧
        t.hub.get F.TIM_XCHIP_OFFSET_last_offset = unsignedOf 32 o ∧ t.hub.time.heard = k.chipTime ∧
        SameRegs (fun r _ => r = .TIM_STATUS ∨ r = .TIM_XCHIP_OFFSET ∨ r = .TIM_LAST_STEP ∨ TraceReg r) s t ∧
        (s.hub.get F.TIM_STATUS_xchip_state = 1 → o < -4000 →
          t.clk = k.add o.natAbs ∧ t.hub.get F.TIM_STATUS_xchip_state = 1 ∧ t.hub.time.goodRun = 0) ∧
        (s.hub.get F.TIM_STATUS_xchip_state = 1 → 4000 < o →
          t.clk = k ∧ t.hub.get F.TIM_STATUS_xchip_state = 4 ∧ t.hub.time.rate = -200) ∧
        (s.hub.get F.TIM_STATUS_xchip_state = 1 → o.natAbs ≤ 40 → 7 ≤ s.hub.time.goodRun →
          t.clk = k ∧ t.hub.get F.TIM_STATUS_xchip_state = 2) ∧
        (s.hub.get F.TIM_STATUS_xchip_state = 2 → 40 < o.natAbs → 2 ≤ s.hub.time.badRun →
          t.clk = k ∧ t.hub.get F.TIM_STATUS_xchip_state = 1)) ∧
    (∀ s : State, s.hub.follows = true → s.hub.get F.TIM_STATUS_xchip_state = 2 →
      let d := s.hub.time.heard + 4 * us (2 ^ s.hub.get F.TIM_XCHIP_CFG_interval_log2)
      Completes .parentSilent s fun t =>
        ActsAt s d (fun h => h.get F.TIM_STATUS_xchip_state = 3 ∧ h.time.holdoverAt = (s.clk.reach d).chipTime ∧
          h.time.rate = s.hub.time.rate) t ∧
        SameMemory (fun _ => False) s t ∧ SameRegs (fun r _ => r = .TIM_STATUS ∨ TraceReg r) s t) ∧
    (∀ (s : State) (m : Master) (k : Word), Admits s m 3 → s.hub.owedStep = 0 →
      Completes (.timStep m k) s fun t =>
        if s.hub.get F.TIM_XCHIP_CFG_role = 2 then (t.hub.master m).wstat = .role ∧ t.clk = s.clk
        else (t.hub.master m).wstat = .ok ∧ t.clk = (if k = 0 then s.clk else s.clk.add k.toNat) ∧
          (k ≠ 0 → t.hub.reg .TIM_LAST_STEP 0 = k) ∧ SameMemory (fun _ => False) s t ∧
          SameRegs (fun r _ => r = .TIM_LAST_STEP ∨ TraceReg r) s t) ∧
    (∀ (s : State) (m : Master) (off : Word), Admits s m 3 → Completes (.wallOffsetWrite m off) s fun t =>
      Accepts s m (fun h => h.reg .TIM_WALL_OFFSET 0 = off ∧ h.reg .TIM_WALL_STAMP 0 = BitVec.ofNat 64 s.clk.chipTime ∧
        h.get F.TIM_STATUS_wall_valid = 1) t ∧ SameMemory (fun _ => False) s t ∧
      SameRegs (fun r _ => r = .TIM_WALL_OFFSET ∨ r = .TIM_WALL_STAMP ∨ r = .TIM_STATUS ∨ TraceReg r) s t))

/-- O8. An event of a unit that presents events, of a class the spec lists, that passes its spoke's filter, joins the
spoke's FIFO in stamp order, stamped with the spoke's replica, when the FIFO is below its level's threshold; at or
above it (levels 0 to 6) it is dropped and counted; a level 7 event waits while the FIFO holds 512 records. A level 0
to 5 event that finds three entries of its socket occupied is discarded and counted there and as a drop. A reserved
class is counted in bad_class and queues nothing. A unit that presents none changes nothing. A read of TRC_COLLECT by
a master of level 1 returns the register and resets fifo_peak to the present occupancy. A loss record that falls due
leaves no drop of its level unreported, at a collector or a trace writer. No memory byte changes.
(spec/02_chip_time_and_events.md: stamping at source, the collector's FIFO, spec/16_unit_socket.md: events) -/
def Obligations.UnitEventsReachTheCollector : Prop :=
  (∀ (s : State) (u : Nat) (cls : Byte) (ctx : Option (BitVec 11)) (pay : BitVec 28), unitOk u = true →
    let n := dieOf u
    let lv := classLevel cls.toNat
    let crowded := lv ≤ 5 ∧ 3 ≤ s.hub.socketHolds u
    let counts := fun (h : Hub) => (h.spoke n).fifo = (s.hub.spoke n).fifo ∧ (h.spoke n).held = (s.hub.spoke n).held ∧
      (h.loss n lv).count = min (2 ^ 25 - 1) ((s.hub.loss n lv).count + 1)
    (s.hub.unitPresents u = false → Completes (.unitEvent u cls ctx pay) s fun t => t = s) ∧
    (s.hub.unitPresents u = true → crowded → Completes (.unitEvent u cls ctx pay) s fun t =>
      Acts s counts t ∧ SameMemory (fun _ => False) s t ∧
      t.hub.sget F.SPK_SOCK_STATUS_ev_drops n (localOf u) = min 65535 (s.hub.sget F.SPK_SOCK_STATUS_ev_drops n (localOf u) + 1)) ∧
    (s.hub.unitPresents u = true → ¬ crowded → classKnown cls.toNat = false → Completes (.unitEvent u cls ctx pay) s fun t =>
      Acts s (fun h => ∀ k, h.spoke k = s.hub.spoke k) t ∧ SameMemory (fun _ => False) s t ∧
      t.hub.sget F.TRC_COLLECT_bad_class n = min 65535 (s.hub.sget F.TRC_COLLECT_bad_class n + 1)) ∧
    (s.hub.unitPresents u = true → ¬ crowded → classKnown cls.toNat = true →
      let r := mkRec (s.hub.replica s.clk.chipTime n) u cls.toNat (ctx.map BitVec.toNat) pay.toNat
      let occ := (s.hub.spoke n).fifo.length
      s.hub.filterPasses n r = true → Completes (.unitEvent u cls ctx pay) s fun t =>
        Acts s (fun h =>
          (lv < 7 → (lv + 1) * 64 ≤ occ → counts h) ∧
          (lv < 7 → occ < (lv + 1) * 64 → (h.spoke n).fifo = insertRec r (s.hub.spoke n).fifo) ∧
          (7 ≤ lv → occ < 512 → (h.spoke n).fifo = insertRec r (s.hub.spoke n).fifo) ∧
          (7 ≤ lv → 512 ≤ occ → (h.spoke n).fifo = (s.hub.spoke n).fifo ∧ (h.spoke n).held = (s.hub.spoke n).held ++ [r])) t ∧
        SameMemory (fun _ => False) s t ∧ SameRegs (fun q _ => TraceReg q) s t)) ∧
  (∀ (s : State) (m : Master) (n : Nat), n < 32 → Admits s m 1 → s.hub.spokeOn n = true →
    Completes (.fifoPeakRead m n) s fun t =>
      Accepts s m (fun h => (h.master m).rdata = s.hub.reg .TRC_COLLECT n ∧
        h.sget F.TRC_COLLECT_fifo_peak n = min 512 (s.hub.spoke n).fifo.length) t ∧
      SameMemory (fun _ => False) s t ∧ SameRegs (fun r i => r = .TRC_COLLECT ∧ i = n) s t) ∧
  (∀ (s : State) (n lv d : Nat), n < 40 → lv < 7 → s.hub.lossDue n lv = some d →
    Completes (.lossRecordTimer n lv) s fun t =>
      ActsAt s d (fun h => if n < 32 then (h.loss n lv).count = 0 else (h.writerLoss (n - 32) lv).count = 0) t ∧
      SameMemory (fun _ => False) s t ∧ SameRegs (fun r _ => TraceReg r) s t)

/-- O9. A collector passes its oldest record to its node's accepting trace writer, which queues it, or drops and
counts it at or above its level's threshold; a level 7 record stays where it is while the writer's FIFO holds 512. A
trace writer that accepts records, under policy WRAP and with no fill threshold, takes the oldest record of its FIFO
and stores its 16 bytes at the segment's write position, changing no other byte of memory. (Each where no level's
threshold is crossed downwards, so that no loss record is due.) A start by a master of level 2 makes every placed,
nonempty segment's writer accept; a stop makes every writer refuse and marks the ones that accepted as stopped. A stop
that the first full segment sent takes effect at its instant at the node it names, likewise.
(spec/02_chip_time_and_events.md: the trace ring) -/
def Obligations.TraceWritersWriteAndStop : Prop :=
  (∀ (s : State) (n : Nat) (r : Rec) (rest : List Rec), n < 32 → (s.hub.spoke n).fifo = r :: rest →
    (rest.length + 1) % 64 ≠ 0 → (s.hub.node (nodeOf n)).accept = true →
    let lv := classLevel r.cls
    let occ := (s.hub.node (nodeOf n)).fifo.length
    let left := ((s.hub.spoke n).held.take 1).foldl (fun l y => insertRec y l) rest
    (lv < 7 → (lv + 1) * 64 ≤ occ → Completes (.traceWrite n) s fun t =>
      Acts s (fun h => (h.spoke n).fifo = left ∧ (h.node (nodeOf n)).fifo = (s.hub.node (nodeOf n)).fifo ∧
        (h.writerLoss (nodeOf n) lv).count = min (2 ^ 25 - 1) ((s.hub.writerLoss (nodeOf n) lv).count + 1)) t ∧
      SameMemory (fun _ => False) s t ∧ SameRegs (fun q _ => q = .TRC_LOSS_TOTAL) s t) ∧
    ((lv < 7 → occ < (lv + 1) * 64) → occ < 512 → Completes (.traceWrite n) s fun t =>
      Acts s (fun h => (h.spoke n).fifo = left ∧ (h.node (nodeOf n)).fifo = (s.hub.node (nodeOf n)).fifo ++ [r]) t ∧
      SameMemory (fun _ => False) s t ∧ SameRegs (fun _ _ => False) s t) ∧
    (lv = 7 → 512 ≤ occ → Completes (.traceWrite n) s fun t => t = s)) ∧
  (∀ (s : State) (p : Nat) (r : Rec) (rest : List Rec), p < 8 → (s.hub.node p).fifo = r :: rest →
    (rest.length + 1) % 64 ≠ 0 → (s.hub.node p).accept = true → s.hub.get F.TRC_RING_CFG_policy = 0 →
    s.hub.get F.TRC_FILL_threshold = 0 → Completes (.traceWrite (32 + p)) s fun t =>
      let a := s.hub.segBase p + s.hub.sget F.TRC_SEG_STATUS_wptr p
      Acts s (fun h => (h.node p).fifo = rest ++ (s.hub.node p).held.take 1 ∧ h.bytes a 16 = r.toBytes) t ∧
      SameMemory (fun x => a ≤ x ∧ x < a + 16) s t ∧
      SameRegs (fun q i => (q = .TRC_SEG_STATUS ∨ q = .TRC_SEG_WRAPS) ∧ i = p) s t) ∧
  (∀ (s : State) (m : Master), Admits s m 2 → Completes (.traceStart m) s fun t =>
    Accepts s m (fun h => ∀ p, p < 8 →
      (h.node p).accept = (decide (s.hub.segSize ≠ 0) && decide (s.hub.segBase p ≠ 0))) t) ∧
  (∀ (s : State) (m : Master), Admits s m 2 → Completes (.traceStop m) s fun t =>
    Accepts s m (fun h => ∀ p, p < 8 → (h.node p).accept = false ∧
      ((s.hub.node p).accept = true → h.sget F.TRC_SEG_STATUS_stopped p = 1)) t) ∧
  (∀ (s : State) (p d : Nat), p < 8 → (s.hub.node p).stopDue = some d → (s.hub.node p).accept = true →
    Completes (.ringStop p) s fun t =>
      ActsAt s d (fun h => (h.node p).accept = false ∧ (h.node p).stopDue = none ∧
        h.sget F.TRC_SEG_STATUS_stopped p = 1) t)

/-- O10. For each group g with an ARM command, a master of the command's level that no claim stops, whose ARM is not
preceded by one that waits and whose shadow differs from the settings in force and passes the group's checks: the
command ends with OK, and a group of package scope holds the shadow values it latched, due 2 µs later (HGRP: once the
group commands already issued have completed); an ARM that changes nothing ends with OK and changes nothing but the
write's status; one whose shadow fails the group's checks ends with that status and arms nothing.
(spec/13_transactions_and_live_update.md: configuration groups) -/
def Obligations.ArmsLatchTheShadow : Prop :=
  ∀ (s : State) (m : Master) (i : Instr) (g : GroupId) (level : Nat),
    (i, g, level) ∈ [(Instr.trcArm m, GroupId.pkg .trc, 2), (Instr.timXchipArm m, GroupId.pkg .tim, 3),
      (Instr.hgrpArm m, GroupId.pkg .hgrp, 3), (Instr.blwArm m, GroupId.pkg .blw, 3), (Instr.bnkArm m, GroupId.pkg .bnk, 3),
      (Instr.hwtArm m, GroupId.pkg .hwt, 3), (Instr.wfgArm m, GroupId.pkg .wfg, 3), (Instr.rcvArm m, GroupId.pkg .rcv, 3),
      (Instr.ldgArm m, GroupId.pkg .ldg, 3), (Instr.patArm m, GroupId.pat, 4)] ++
      (List.range 9).map (fun k => (Instr.trgArm m k, GroupId.trg k, 3)) ++
      (List.range 8).map (fun k => (Instr.spnArm m k, GroupId.spn k, 3)) →
    Admits s m level → s.hub.armOff g = false → s.hub.armWaits g = false →
    (s.hub.groupDiffers g = true → s.hub.groupRefusal g = none → Completes i s fun t =>
      Accepts s m (fun h => match g with
        | .pkg k => (∃ a, h.arm k = some a ∧ a.vals = s.hub.groupVals g ∧
              a.due = (if k = .hgrp then none else some (s.clk.chipTime + us 2)) ∧
              a.cmds = (if k = .hgrp then (s.hub.cmds.filter fun e => e.2.group).map Prod.fst else []) ∧
              (k ≠ .trc → a.segments = []) ∧ ∀ x, x ∈ a.segments →
                x.2 = s.hub.shGet F.TRC_RING_CFG_seg_size * (16 * mib)) ∧
            h.shadow = s.hub.shadow ∧ h.regs = s.hub.regs
        | .trg k =>
            if k < 8 then ∀ j, j < 1024 → h.reg .TRG_ENTRY (k * 1024 + j) = s.hub.shadowReg .TRG_ENTRY (k * 1024 + j)
            else ∀ j, j < 256 → h.reg .HTRG_ENTRY j = s.hub.shadowReg .HTRG_ENTRY j
        | .spn k => h.reg .SPN_QUOTA k = s.hub.shadowReg .SPN_QUOTA k ∧
            ∀ j, j < 48 → h.reg .SPN_REQ (k * 48 + j) = s.hub.shadowReg .SPN_REQ (k * 48 + j)
        | .pat => ∀ j, j < 64 → h.reg .PAT_ADDR j = s.hub.shadowReg .PAT_ADDR j ∧
            h.reg .PAT_DATA j = s.hub.shadowReg .PAT_DATA j) t ∧ SameMemory (fun _ => False) s t) ∧
    (s.hub.groupDiffers g = false → Completes i s fun t =>
      Accepts s m (fun h => h = s.hub.wrote m .ok) t) ∧
    (∀ st, s.hub.groupDiffers g = true → s.hub.groupRefusal g = some st → Completes i s fun t =>
      Acts s (fun h => h = s.hub.wrote m st) t)

/-- O11. With no exception active and no step or halt pending: a core between instructions whose PC lies outside local
memory takes FETCH_RANGE whatever its instruction; BREAK with no debugger attached takes BREAK. Each writes STK_EPC,
STK_CAUSE with active, STK_BADADDR and the PC as an exception entry does, and changes no other register and no byte of
memory. With an exception active BREAK stops the core and EPC, cause and BADADDR stay. A core that is not between
instructions does nothing. STK_XCTL.exit prepares the JALR that leaves an exception.
(spec/03_striker_instruction_set.md: exceptions) -/
def Obligations.ExceptionsAreTaken : Prop :=
  (∀ (s : State) (i : Instr) (c w : Nat), encodeStriker i = some (c, w) → coreOk c = true → s.hub.ready c = true →
    localSize c ≤ (s.hub.pc c).toNat → s.hub.cget F.STK_CAUSE_active c = 0 →
    s.hub.cget F.STK_DBG_STATUS_steps_left c = 0 → (s.hub.core c).haltAsked = false →
    Completes i s fun t => Raised s t c .fetchRange (s.hub.pc c).toNat) ∧
  (∀ (s : State) (i : Instr) (c w : Nat), encodeStriker i = some (c, w) → coreOk c = true → s.hub.ready c = false →
    Completes i s fun t => t = s) ∧
  (∀ (s : State) (c : Nat), Runs s c → s.hub.attached c = false →
    (s.hub.cget F.STK_CAUSE_active c = 0 → Completes (.breakInstr c) s fun t => Raised s t c .breakpoint 0) ∧
    (s.hub.cget F.STK_CAUSE_active c = 1 → Completes (.breakInstr c) s fun t =>
      t.hub.coreState c = 2 ∧ t.hub.reg .STK_EPC (coreIdx c) = s.hub.reg .STK_EPC (coreIdx c) ∧
      t.hub.reg .STK_CAUSE (coreIdx c) = s.hub.reg .STK_CAUSE (coreIdx c) ∧
      t.hub.reg .STK_BADADDR (coreIdx c) = s.hub.reg .STK_BADADDR (coreIdx c) ∧ SameMemory (fun _ => False) s t)) ∧
  (∀ (s : State) (c : Nat), coreOk c = true → Completes (.xctlExit c) s fun t =>
    Acts s (fun h => (h.core c).exitArmed = true) t ∧ SameMemory (fun _ => False) s t ∧
    SameRegs (fun _ _ => False) s t)

/-- O12. A kick reloads the count, and restarts it while the watchdog is enabled on a running core. An expiry with no
exception active reloads the count and, in a core between instructions, takes WATCHDOG at the instant it falls due; in
an instruction that it may not interrupt it is held off to the end of that instruction. With an exception active it
resets the core. A core reset leaves the core in RESET, with no slot armed and nothing in its inbox. A BREAK under a
debugger, and a breakpoint whose owner is attached, halt the core at the instruction, with causes BREAK and
BREAKPOINT. (spec/03_striker_instruction_set.md: the watchdog, the reset of a core, spec/14_hub_self_debug.md: debug
halt) -/
def Obligations.WatchdogAndCoreReset : Prop :=
  (∀ (s : State) (c : Nat), coreOk c = true → Completes (.wdogKick c) s fun t =>
    Acts s (fun h => h.cget F.STK_WDOG_COUNT_remaining_us c = s.hub.cget F.STK_WDOG_reload_us c ∧
      (h.core c).wdogDue = if s.hub.cget F.STK_WDOG_enable c = 1 ∧ s.hub.coreState c = 0 then
        some (s.clk.chipTime + us (s.hub.cget F.STK_WDOG_reload_us c)) else none) t ∧
    SameMemory (fun _ => False) s t ∧ SameRegs (fun r i => r = .STK_WDOG_COUNT ∧ i = coreIdx c) s t) ∧
  (∀ (s : State) (c d : Nat), coreOk c = true → (s.hub.core c).wdogDue = some d →
    (s.hub.cget F.STK_CAUSE_active c = 0 → (s.hub.core c).wait = .idle → Completes (.watchdogExpiry c) s fun t =>
      ActsAt s d (fun h => h.reg .STK_EPC (coreIdx c) = s.hub.pc c ∧ h.cget F.STK_CAUSE_cause c = 7 ∧
        h.cget F.STK_CAUSE_active c = 1 ∧ h.reg .STK_BADADDR (coreIdx c) = 0 ∧
        h.cget F.STK_WDOG_COUNT_remaining_us c = s.hub.cget F.STK_WDOG_reload_us c ∧
        h.pc c = BitVec.ofNat 64 (s.hub.cget F.STK_EVEC_vector c * 4)) t ∧ SameMemory (fun _ => False) s t) ∧
    (s.hub.cget F.STK_CAUSE_active c = 0 → (s.hub.core c).wait ≠ .idle → (s.hub.core c).wait.interruptible = false →
      Completes (.watchdogExpiry c) s fun t =>
        ActsAt s d (fun h => (h.core c).wdogRaised = true ∧ (h.core c).wait = (s.hub.core c).wait) t ∧
        SameMemory (fun _ => False) s t ∧ SameRegs (fun r i => r = .STK_WDOG_COUNT ∧ i = coreIdx c) s t) ∧
    (s.hub.cget F.STK_CAUSE_active c = 1 → Completes (.watchdogExpiry c) s fun t =>
      ActsAt s d (fun h => h.coreState c = 3) t)) ∧
  (∀ (s : State) (c : Nat), coreOk c = true → Completes (.strikerCoreReset c) s fun t =>
    Acts s (fun h => h.coreState c = 3 ∧ (h.core c).slots = [] ∧ (h.core c).inbox = []) t) ∧
  (∀ (s : State) (c : Nat), Runs s c → s.hub.attached c = true → Completes (.breakInstr c) s fun t =>
    Acts s (fun h => h.coreState c = 1 ∧ h.cget F.STK_DBG_STATUS_cause c = 2 ∧ h.pc c = s.hub.pc c) t ∧
    SameMemory (fun _ => False) s t) ∧
  (∀ (s : State) (c : Nat), coreOk c = true → s.hub.ready c = true →
    s.hub.breakpointHit c (s.hub.pc c).toNat = true → (s.hub.core c).bpSkip = false →
    Completes (.breakpointHit c) s fun t =>
      Acts s (fun h => h.coreState c = 1 ∧ h.cget F.STK_DBG_STATUS_cause c = 3 ∧ h.pc c = s.hub.pc c) t ∧
      SameMemory (fun _ => False) s t)

/-- O13. For a core that carries out its instruction: HLD of an aligned word of Hearth scratch with no posted write of
the core to it, at level 2 or above, returns the little-endian word with OK; at an address above the hub address space
it is refused with RESERVED and rd is kept. HST of such a word at level 3 outside a transaction is posted with OK and
changes no memory yet; the oldest posted write of an idle core completes by storing its 8 bytes there and nothing
else. FENCE with nothing posted writes the count of refused writes to rd and the first refusal's status to h31; with a
write posted it waits. An unassigned special register number raises ILLEGAL_SPR. (spec/03_striker_instruction_set.md:
hub addresses) -/
def Obligations.HubMemoryAccesses : Prop :=
  (∀ (s : State) (c : Nat) (rd rs1 : RegNo) (imm : Imm16), Runs s c → rd ≠ statusReg →
    let a := (s.hub.gpr c rs1 + imm.signExtend 64).toNat
    (0x40000000 ≤ a → a < 0x40800000 → a % 8 = 0 → 2 ≤ s.hub.coreLevel c → s.hub.postedTo c a = false →
      Completes (.hld c rd rs1 imm) s (ResultS s c rd (BitVec.ofNat 64 (s.hub.rd a 8)) .ok)) ∧
    (0x2004000000 ≤ a → s.hub.postedTo c a = false → Completes (.hld c rd rs1 imm) s fun t =>
      EndsS s t c .reserved fun _ _ => False) ∧
    (0x40000000 ≤ a → a < 0x40800000 → s.hub.postedTo c a = true → Completes (.hld c rd rs1 imm) s fun t =>
      Waits s t c (.hld rd a))) ∧
  (∀ (s : State) (c : Nat) (rs2 rs1 : RegNo) (imm : Imm16), Runs s c →
    let a := (s.hub.gpr c rs1 + imm.signExtend 64).toNat
    0x40000000 ≤ a → a < 0x40800000 → a % 8 = 0 → 3 ≤ s.hub.coreLevel c → s.hub.openTxn (.core c) = none →
    Completes (.hst c rs2 rs1 imm) s fun t => EndsS s t c .ok (fun _ _ => False) ∧
      (t.hub.core c).posted = (s.hub.core c).posted ++ [Posted.mk s.clk.chipTime (s.hub.coreLevel c) a 0 (s.hub.gpr c rs2)]) ∧
  (∀ (s : State) (c a lv iss : Nat) (v : Word) (rest : List Posted), coreOk c = true → (s.hub.core c).wait = .idle →
    (s.hub.core c).posted = { issued := iss, level := lv, addr := a, width := 0, value := v } :: rest → 0x40000000 ≤ a → a < 0x40800000 →
    a % 8 = 0 → 3 ≤ lv → s.hub.planReadOnly a 8 = false → s.hub.owedStep = 0 →
    Completes (.postedWriteComplete c) s fun t =>
      Acts s (fun h => (h.core c).posted = rest ∧ h.rd a 8 = v.toNat) t ∧
      SameMemory (fun x => a ≤ x ∧ x < a + 8) s t ∧ SameRegs (fun _ _ => False) s t) ∧
  (∀ (s : State) (c : Nat) (rd : RegNo), Runs s c → rd ≠ statusReg →
    ((s.hub.core c).posted = [] → Completes (.fence c rd) s fun t =>
      EndsS s t c (match (s.hub.core c).firstFail with | none => .ok | some f => Status.ofCode f.2)
        (fun r i => RdReg c rd r i ∨ (r = .STK_HSTFAIL ∧ i = coreIdx c)) ∧
      t.hub.gpr c rd = (if rd = 0 then 0 else BitVec.ofNat 64 (s.hub.core c).refused) ∧
      (t.hub.core c).refused = 0 ∧ (t.hub.core c).firstFail = none) ∧
    ((s.hub.core c).posted ≠ [] → Completes (.fence c rd) s fun t => Waits s t c (.fence rd))) ∧
  (∀ (s : State) (c : Nat) (rd rs1 : RegNo) (spr : BitVec 12), Runs s c → sprOf c spr = none →
    s.hub.cget F.STK_CAUSE_active c = 0 →
    Completes (.sprr c rd spr) s (fun t => Raised s t c .illegalSpr 0) ∧
    Completes (.sprw c spr rs1) s (fun t => Raised s t c .illegalSpr 0))

/-- O14. For a core that carries out its instruction: SPRR of any assigned number writes the register, as a read shows
it, to rd, h31 as any other; nothing else changes but the PC and the instruction count. For STK_EPC, STK_BADADDR and
STK_EVEC that is the register's word. SPRW of any assigned number with no claim standing completes: the PC and the
instruction count advance, and of the registers only the one named and the watchdog's count may change, and no byte of
memory, h31 neither. STK_EPC takes the value; STK_EVEC takes it in bits 63 to 2; the read-only STK_BADADDR keeps its
own; STK_XCTL.exit prepares the JALR that leaves the exception. SPRW of a result buffer that leaves local memory
raises LOCAL_RANGE (that STK_BADADDR then holds the buffer's first address is the model's choice, assumption 68).
(spec/03_striker_instruction_set.md: special registers, spec/01_hub_anatomy.md: access codes) -/
def Obligations.SpecialRegisters : Prop :=
  ∀ (s : State) (c : Nat) (rd rs1 : RegNo) (spr : BitVec 12), Runs s c → ∀ x, sprOf c spr = some x →
    (Completes (.sprr c rd spr) s fun t =>
      Left s t c rd (BitVec.ofNat 64 (s.hub.shownWord s.clk.chipTime (.core c) x.reg x.copy)) (s.hub.pc c + 4)
        (fun _ => False) ∧
      (x.reg = .STK_EPC ∨ x.reg = .STK_BADADDR ∨ x.reg = .STK_EVEC → rd ≠ 0 → t.hub.gpr c rd = s.hub.reg x.reg x.copy)) ∧
    (x.reg = .STK_RVEC → rvecBad c (s.hub.gpr c rs1) = true → s.hub.cget F.STK_CAUSE_active c = 0 →
      Completes (.sprw c spr rs1) s fun t =>
        Raised s t c .localRange (bits (s.hub.gpr c rs1).toNat 3 29 * 8)) ∧
    ((x.reg = .STK_RVEC → rvecBad c (s.hub.gpr c rs1) = false) → (∀ x, x < 16 → s.hub.get F.TXN_STATE_state x ≠ 3) →
      Completes (.sprw c spr rs1) s fun t =>
        t.hub.pc c = s.hub.pc c + 4 ∧
        t.hub.reg .STK_INSTRET (coreIdx c) = s.hub.reg .STK_INSTRET (coreIdx c) + 1 ∧
        SameRegs (fun r i => InstrReg c 0 r i ∨ (r = x.reg ∧ i = x.copy) ∨ (r = .STK_WDOG_COUNT ∧ i = coreIdx c)) s t ∧
        SameMemory (fun _ => False) s t ∧ t.clk = s.clk ∧ t.pending = s.pending ∧
        (x.reg = .STK_EPC → t.hub.reg .STK_EPC (coreIdx c) = s.hub.gpr c rs1) ∧
        (x.reg = .STK_EVEC → t.hub.cget F.STK_EVEC_vector c = (s.hub.gpr c rs1).toNat / 4) ∧
        (x.reg = .STK_BADADDR → t.hub.reg .STK_BADADDR (coreIdx c) = s.hub.reg .STK_BADADDR (coreIdx c)) ∧
        (x.reg = .STK_XCTL → (s.hub.gpr c rs1).toNat % 2 = 1 → (t.hub.core c).exitArmed = true))

/-- O15. For a core that carries out its instruction, at level 2 (reads) or 3 (writes), outside a transaction, and a
populated unit of a powered spoke with no silence outstanding: PEEK of a word known on a HALTED unit by the quiet path
returns it with OK, QPEEK likewise; PEEK of a side-effect word there is HELD; PEEK of a word without side effect on a
RUNNING unit returns the unit's word, a value the spec leaves open (statement holds of every one). POKE of a writable
word of a RUNNING unit sends it and ends OK, of a HALTED unit without FORCE it is HELD and sends nothing. POKEP of a
writable word of a HALTED unit joins the pending-poke queue with STAGED, and at 16 entries ends QUEUE_FULL. A unit
whose halt request meets 2 µs of silence becomes UNRESPONSIVE; silence of a unit that runs or is halted outside a step
is met by a later access (assumption 57, the model's), and a PEEK that meets it ends TIMEOUT and leaves the unit
UNRESPONSIVE. (spec/03_striker_instruction_set.md: unit access) -/
def Obligations.UnitWindowAccesses : Prop :=
  (∀ (s : State) (c : Nat) (rd rs1 : RegNo) (off : BitVec 13) (u w : Nat) (r : WinRange), Runs s c → rd ≠ statusReg →
    unitTarget (s.hub.gpr c rs1) off false = { target := u, word := w, reservedSet := false } → unitOk u = true →
    s.hub.spokeOn (dieOf u) = true → 2 ≤ s.hub.coreLevel c → (s.hub.unit u).mute = none → rangeOf u w = some r →
    (∀ v, s.hub.runState u = .halted → r.quiet = true → aGet (fun _ => none) (s.hub.unit u).win w = some v →
      (r.sideEffect = false → Completes (.peek c rd rs1 off) s (ResultS s c rd v .ok)) ∧
      (r.sideEffect = true → Completes (.peek c rd rs1 off) s fun t => EndsS s t c .held fun _ _ => False) ∧
      Completes (.qpeek c rd rs1 off) s (ResultS s c rd v .ok)) ∧
    (s.hub.runState u = .running → r.sideEffect = false → aGet (fun _ => none) (s.hub.unit u).win w = none →
      Completes (.peek c rd rs1 off) s (ResultS s c rd (Config.freeWord s.hub.fresh) .ok))) ∧
  (∀ (s : State) (c : Nat) (rs2 rs1 : RegNo) (off : BitVec 13) (u w : Nat) (r : WinRange), Runs s c →
    unitTarget (s.hub.gpr c rs1) off false = { target := u, word := w, reservedSet := false } → unitOk u = true →
    s.hub.spokeOn (dieOf u) = true → 3 ≤ s.hub.coreLevel c → s.hub.openTxn (.core c) = none → s.hub.retired = false →
    (s.hub.unit u).mute = none → rangeOf u w = some r → r.writable = true →
    (s.hub.runState u = .running → Completes (.poke c rs2 rs1 off false false) s fun t =>
      EndsS s t c .ok (fun q _ => TraceReg q) ∧ t.hub.out = s.hub.out ++ [.write u w (s.hub.gpr c rs2)]) ∧
    (s.hub.runState u = .halted → Completes (.poke c rs2 rs1 off false false) s fun t =>
      EndsS s t c .held (fun _ _ => False) ∧ t.hub.out = s.hub.out) ∧
    (s.hub.runState u = .halted → (s.hub.spoke (dieOf u)).ppq.length < 16 →
      Completes (.pokep c rs2 rs1 off false) s fun t => EndsS s t c .staged (fun _ _ => False) ∧
        (t.hub.spoke (dieOf u)).ppq = (s.hub.spoke (dieOf u)).ppq ++
          [{ unit := u, off13 := w, stager := c, data := s.hub.gpr c rs2 }]) ∧
    (s.hub.runState u = .halted → 16 ≤ (s.hub.spoke (dieOf u)).ppq.length →
      Completes (.pokep c rs2 rs1 off false) s fun t => EndsS s t c .queueFull fun _ _ => False)) ∧
  (∀ (s : State) (u n : Nat), unitOk u = true →
    (∀ x, s.hub.runState u = .haltPending → (s.hub.unit u).halt = some x → x.defer = none →
      Completes (.handshakeSilence ⟨u, n⟩) s fun t =>
        ActsAt s (x.since + us 2) (fun h => h.runState u = .unresponsive) t) ∧
    (s.hub.runState u = .running ∨ s.hub.runState u = .halted ∧ (s.hub.unit u).step = none →
      Completes (.handshakeSilence ⟨u, n⟩) s fun t =>
        ActsAt s (s.clk.chipTime + us 2) (fun h => (h.unit u).mute = some n ∧ h.runState u = s.hub.runState u) t ∧
        SameMemory (fun _ => False) s t ∧ SameRegs (fun _ _ => False) s t)) ∧
  (∀ (s : State) (c : Nat) (rd rs1 : RegNo) (off : BitVec 13) (u w : Nat) (r : WinRange), Runs s c → rd ≠ statusReg →
    unitTarget (s.hub.gpr c rs1) off false = { target := u, word := w, reservedSet := false } → unitOk u = true →
    s.hub.spokeOn (dieOf u) = true → 2 ≤ s.hub.coreLevel c → (s.hub.unit u).mute = some 0 → rangeOf u w = some r →
    s.hub.runState u = .running → Completes (.peek c rd rs1 off) s fun t =>
      t.hub.runState u = .unresponsive ∧ t.hub.gpr c statusReg = BitVec.ofNat 64 Status.timeout.code)

/-- O16. For a core at level 3 that carries out its instruction outside a transaction, with no run-control command
under way, and a populated unit of a powered spoke: HALT of a RUNNING unit makes it HALT_PENDING, sends the socket a
halt, and the core waits; HALT of a HALTED unit outside a step ends at once with OK and count 1; RUN of a RUNNING unit
ends OK with count 1; RUN of a HALTED unit with nothing staged makes it RUNNING, sends the socket a run and ends OK
with count 1; STEP of a HALTED unit sends the socket its count and the core waits; STEP of a RUNNING unit ends
NOT_HELD with rd zero; STEP of zero quanta ends RESERVED with rd zero. (spec/05_run_control.md: HALT, RUN and STEP) -/
def Obligations.RunControlInstructions : Prop :=
  ∀ (s : State) (c : Nat) (rd rs1 rs2 : RegNo) (u : Nat), Runs s c → rd ≠ statusReg → (s.hub.gpr c rs1).toNat = u →
    unitOk u = true → s.hub.spokeOn (dieOf u) = true → 3 ≤ s.hub.coreLevel c → s.hub.openTxn (.core c) = none →
    s.hub.retired = false → s.hub.cmds = [] →
    let n := (s.hub.gpr c rs2).toNat
    (s.hub.runState u = .running → Completes (.halt c rd rs1 false false) s fun t =>
      Acts s (fun h => h.runState u = .haltPending ∧ (h.core c).wait = .runControl rd s.hub.nextCmd ∧
        h.out = s.hub.out ++ [.runControl u .halt 0]) t ∧ SameMemory (fun _ => False) s t ∧
      SameRegs (fun r i => r = .SPK_UNIT_STATE ∧ i = spokeInst .SPK_UNIT_STATE (dieOf u) (localOf u)) s t) ∧
    (s.hub.runState u = .halted → (s.hub.unit u).step = none → ∀ nowait,
      Completes (.halt c rd rs1 false nowait) s (ResultS s c rd 1 .ok)) ∧
    (s.hub.runState u = .running → ∀ nowait, Completes (.run c rd rs1 false nowait) s (ResultS s c rd 1 .ok)) ∧
    (s.hub.runState u = .halted → (s.hub.unit u).step = none → s.hub.pokesOf u = [] → linkOfUnit u = none →
      ∀ nowait, Completes (.run c rd rs1 false nowait) s fun t =>
        EndsS s t c .ok (fun r i => RdReg c rd r i ∨ r = .SPK_UNIT_STATE ∨ TraceReg r) ∧
        t.hub.gpr c rd = (if rd = 0 then 0 else 1) ∧ t.hub.runState u = .running ∧
        t.hub.out = s.hub.out ++ [.runControl u .run 0]) ∧
    (s.hub.runState u = .halted → (s.hub.unit u).step = none → 0 < n → n < 65536 →
      Completes (.step c rd rs1 rs2 false) s fun t =>
        Acts s (fun h => h.uget F.SPK_UNIT_STATE_stepping u = 1 ∧ (h.core c).wait = .runControl rd s.hub.nextCmd ∧
          h.out = s.hub.out ++ [.runControl u .step n]) t ∧ SameMemory (fun _ => False) s t) ∧
    (s.hub.runState u = .running → 0 < n → n < 65536 → Completes (.step c rd rs1 rs2 false) s fun t =>
      EndsS s t c .notHeld (RdReg c rd) ∧ t.hub.gpr c rd = 0) ∧
    (n = 0 → Completes (.step c rd rs1 rs2 false) s fun t =>
      EndsS s t c .reserved (RdReg c rd) ∧ t.hub.gpr c rd = 0)

/-- O17. With no run-control command under way: a HALT_PENDING unit that answers with lock_held low is HALTED; one
that answers with it high defers by 10 µs (the quench line not asserted) and stays HALT_PENDING; its release halts it,
and the deferral limit makes it HALTED_HOLDING with its sync object shown. A RUNNING unit that halts itself on its
breakpoint becomes HALTED. The gate takes a RUNNING unit to GATED and nothing from another state; the ungate back to
RUNNING while the line is not asserted. The declared bound of an unanswered halt request changes no run state, and a
NOWAIT HALT of a master that waits for it ends with PENDING. (spec/05_run_control.md: halting, deferral, self-halts,
gating, probes) -/
def Obligations.UnitHaltEvents : Prop :=
  (∀ (s : State) (u : Nat), unitOk u = true → s.hub.cmds = [] →
    (∀ x sync, s.hub.runState u = .haltPending → (s.hub.unit u).halt = some x → x.defer = none →
      (Completes (.unitHaltAck u false sync) s fun t => Acts s (fun h => h.runState u = .halted ∧
        h.uget F.SPK_UNIT_STATE_lock_held u = 0) t) ∧
      (declaresLock u = true → s.hub.lineAsserted = false → Completes (.unitHaltAck u true sync) s fun t =>
        Acts s (fun h => h.runState u = .haltPending ∧ h.uget F.SPK_UNIT_STATE_lock_held u = 1 ∧
          h.deferDue u = some (s.clk.chipTime + us 10)) t)) ∧
    (∀ x d, s.hub.runState u = .haltPending → (s.hub.unit u).halt = some x → x.defer = some (.runs d) →
      (Completes (.lockHeldRelease u) s fun t => Acts s (fun h => h.runState u = .halted ∧
        h.uget F.SPK_UNIT_STATE_lock_held u = 0) t) ∧
      (Completes (.haltDeferralExpiry u) s fun t => ActsAt s d (fun h => h.runState u = .haltedHolding ∧
        h.uget F.SPK_UNIT_STATE_hold_sync u = (s.hub.unit u).sync % 65536) t)) ∧
    (∀ code sync, s.hub.runState u = .running → (∀ g, g < 256 → s.hub.inGroup g u = false) →
      Completes (.unitSelfHalt u false code false sync) s fun t => Acts s (fun h => h.runState u = .halted) t) ∧
    (s.hub.runState u = .running → Completes (.unitGate u) s fun t => Acts s (fun h => h.runState u = .gated) t) ∧
    (s.hub.runState u ≠ .running → Completes (.unitGate u) s fun t => t = s) ∧
    (s.hub.runState u = .gated → s.hub.lineAsserted = false → Completes (.unitUngate u) s fun t =>
      Acts s (fun h => h.runState u = .running) t) ∧
    (∀ d, s.hub.boundDue u = some d → Completes (.haltBoundNsExpiry u) s fun t =>
      ActsAt s d (fun h => ∀ v, h.runState v = s.hub.runState v) t)) ∧
  ∀ (s : State) (u k : Nat) (m : Master) (d : Nat), unitOk u = true → s.hub.cmds = [(k, ({
      op := .halt
      nowait := true
      group := false
      reply := .reg m
      units := [{ unit := u }] } : RunCmd))] →
    s.hub.runState u = .haltPending → s.hub.boundDue u = some d → Completes (.haltBoundNsExpiry u) s fun t =>
      ActsAt s d (fun h => h.cmds = [] ∧ h.runState u = .haltPending ∧
        h.get F.HRT_RC_RESULT_status m.idx = Status.pending.code ∧ h.get F.HRT_RC_RESULT_done m.idx = 1) t ∧
      SameMemory (fun _ => False) s t

/-- O18. A stepping unit on a die that is not quenched shows the quanta it has completed in steps_done, and at its
count is sent a halt; one whose limit passes first is sent a halt, marked as ended by its limit. A probe by a master
of level 3 of a powered spoke's unit is sent and due 2 µs later; an UNRESPONSIVE unit of a valid descriptor that
answers takes the state it reports; a probe that is not answered is counted and the unit's state stays.
(spec/05_run_control.md: stepping, status probes) -/
def Obligations.StepsAndProbes : Prop :=
  ∀ (s : State) (u : Nat), unitOk u = true →
    (∀ x n, (s.hub.unit u).step = some x → x.halting = false → s.hub.dieQuenched (dieOf u) = false →
      x.count < 65536 →
      (x.count ≤ x.done + n → Completes (.stepCountReached ⟨u, n⟩) s fun t =>
        Acts s (fun h => h.uget F.SPK_UNIT_STATE_steps_done u = x.count ∧
          (∃ y, (h.unit u).step = some y ∧ y.done = x.count ∧ y.halting = true ∧ y.limited = false ∧
            y.since = s.clk.chipTime) ∧ h.out = s.hub.out ++ [.runControl u .halt 0]) t ∧
          SameMemory (fun _ => False) s t) ∧
      (x.done + n < x.count → Completes (.stepCountReached ⟨u, n⟩) s fun t =>
        Acts s (fun h => h.uget F.SPK_UNIT_STATE_steps_done u = x.done + n ∧
          (h.unit u).step = some { x with done := x.done + n } ∧ h.out = s.hub.out) t ∧
          SameMemory (fun _ => False) s t)) ∧
    (∀ x d n, (s.hub.unit u).step = some x → x.halting = false → x.limit = .runs d →
      Completes (.stepLimitExpiry u n) s fun t => ActsAt s d (fun h =>
        (∃ y, (h.unit u).step = some y ∧ y.done = min (x.count - 1) (x.done + n) ∧ y.halting = true ∧ y.limited = true) ∧
        h.uget F.SPK_UNIT_STATE_steps_done u = min 65535 (min (x.count - 1) (x.done + n)) ∧
        h.out = s.hub.out ++ [.runControl u .halt 0]) t ∧ SameMemory (fun _ => False) s t) ∧
    (∀ m, Admits s m 3 → s.hub.spokeOn (dieOf u) = true → Completes (.unitProbe m u) s fun t =>
      Accepts s m (fun h => (h.unit u).probeDue = some (s.clk.chipTime + us 2) ∧
        h.out = s.hub.out ++ [.runControl u .probe 0]) t ∧ SameMemory (fun _ => False) s t ∧
      SameRegs (fun _ _ => False) s t) ∧
    (∀ halted, (s.hub.unit u).probeDue ≠ none → s.hub.runState u = .unresponsive →
      s.hub.uget F.SPK_SOCK_STATUS_fault u = 0 → Completes (.probeAnswer u halted) s fun t =>
        Acts s (fun h => h.runState u = (if halted then .halted else .running) ∧ (h.unit u).probeDue = none) t) ∧
    (∀ d, (s.hub.unit u).probeDue = some d → Completes (.probeTimeout u) s fun t =>
      ActsAt s d (fun h => (h.unit u).probeDue = none ∧ h.runState u = s.hub.runState u) t ∧
      SameMemory (fun _ => False) s t ∧ SameRegs (fun r _ => r = .SPK_RC_COUNT) s t)

/-- O19. A write of HRT_RC_CMD by a master of level 3 with no result buffer and no command of its own under way, for
one populated unit of a powered spoke, named itself or as the one member of a group, no run-control command under way:
HALT of a HALTED unit, RUN of a RUNNING unit and STEP of a RUNNING unit finish at once: done is 1, the count of units
acted on is 1, 1 and 0, and the status OK, OK and NOT_HELD (STEP by its own name). RUN of a HALTED unit with nothing
staged makes it RUNNING with OK and count 1; STEP of a HALTED unit clears done and starts its step; HALT of a RUNNING
unit clears done and makes the unit HALT_PENDING. For a unit that does not exist the outcome is NO_UNIT with done. A
second command while one runs ends BUSY. (spec/05_run_control.md: HRT_RC_CMD) -/
def Obligations.RunControlRegister : Prop :=
  ∀ (s : State) (m : Master), Admits s m 3 → s.hub.get F.HRT_RC_RVEC_capacity m.idx = 0 →
    let ends := fun (st : Status) (n : Nat) (h : Hub) => h.get F.HRT_RC_RESULT_status m.idx = st.code ∧
      h.get F.HRT_RC_RESULT_count m.idx = n ∧ h.get F.HRT_RC_RESULT_done m.idx = 1
    ((s.hub.master m).rcCmd = none → s.hub.cmds = [] → s.hub.retired = false →
      ∀ u x g, unitOk u = true → s.hub.spokeOn (dieOf u) = true →
      (g = false ∧ x = u) ∨ (g = true ∧ x < 256 ∧ s.hub.groupUnits x = [u]) →
      (s.hub.runState u = .halted → (s.hub.unit u).step = none → ∀ nowait,
        Completes (.rcCmdHalt m x g nowait) s fun t => Accepts s m (ends .ok 1) t ∧ SameMemory (fun _ => False) s t) ∧
      (s.hub.runState u = .halted → (s.hub.unit u).step = none → s.hub.pokesOf u = [] → linkOfUnit u = none →
        Completes (.rcCmdRun m x g) s fun t => Accepts s m (fun h => ends .ok 1 h ∧ h.runState u = .running ∧
          h.out = s.hub.out ++ [.runControl u .run 0]) t ∧ SameMemory (fun _ => False) s t) ∧
      (s.hub.runState u = .halted → (s.hub.unit u).step = none → ∀ k, 0 < k → k < 65536 →
        Completes (.rcCmdStep m x g k) s fun t => Accepts s m (fun h => h.get F.HRT_RC_RESULT_done m.idx = 0 ∧
          (∃ y, (h.unit u).step = some y ∧ y.count = k ∧ y.done = 0) ∧ h.uget F.SPK_UNIT_STATE_stepping u = 1 ∧
          h.out = s.hub.out ++ [.runControl u .step k]) t ∧ SameMemory (fun _ => False) s t) ∧
      (s.hub.runState u = .running →
        (Completes (.rcCmdRun m x g) s fun t => Accepts s m (ends .ok 1) t ∧ SameMemory (fun _ => False) s t) ∧
        (∀ k, 0 < k → k < 65536 → Completes (.rcCmdStep m u false k) s fun t =>
          Accepts s m (ends .notHeld 0) t ∧ SameMemory (fun _ => False) s t) ∧
        Completes (.rcCmdHalt m x g false) s fun t =>
          Accepts s m (fun h => h.runState u = .haltPending ∧ h.get F.HRT_RC_RESULT_done m.idx = 0) t)) ∧
    ((s.hub.master m).rcCmd = none → ∀ u, u < 65536 → unitOk u = false →
      (Completes (.rcCmdHalt m u false false) s fun t => Accepts s m (ends .noUnit 0) t) ∧
      Completes (.rcCmdRun m u false) s fun t => Accepts s m (ends .noUnit 0) t) ∧
    ((s.hub.master m).rcCmd ≠ none → ∀ u, unitOk u = true → Completes (.rcCmdRun m u false) s fun t =>
      t.hub = s.hub.wrote m .busy ∧ t.clk = s.clk ∧ t.pending = s.pending)

/-- O20. For a core that carries out its instruction: WAITEV with a slot of its mask pending returns the lowest with
OK, with none pending and no deadline waits, with none pending and a deadline past ends DEADLINE, and with mask 0 ends
RESERVED. ARM of a free-running SOFT slot number below 64 leaves it armed with an empty FIFO and ends OK. DISARM
leaves the slot unarmed. EVPOP returns the oldest payload with OK, and ends EMPTY on an empty or unarmed slot. FIRE at
a SOFT slot with room of a core in no wait queues its payload with OK, at a full FIFO ends BUSY and queues nothing,
and at no core ends NO_UNIT. (spec/04_striker_programs.md: event slots, spec/03_striker_instruction_set.md: WAITEV,
ARM, DISARM, FIRE, EVPOP) -/
def Obligations.SlotInstructions : Prop :=
  ∀ (s : State) (c : Nat) (rd rs1 rs2 : RegNo), Runs s c → rd ≠ statusReg →
    let x := (s.hub.gpr c rs1).toNat
    let y := (s.hub.gpr c rs2).toNat
    (∀ n, s.hub.pendingIn c x = some n → Completes (.waitev c rd rs1 rs2) s (ResultS s c rd (BitVec.ofNat 64 n) .ok)) ∧
    (x ≠ 0 → s.hub.pendingIn c x = none →
      (y = 0 → Completes (.waitev c rd rs1 rs2) s fun t => Waits s t c (.waitev rd x 0)) ∧
      (0 < y → y < s.clk.chipTime → Completes (.waitev c rd rs1 rs2) s fun t => EndsS s t c .deadline fun _ _ => False)) ∧
    (x = 0 → Completes (.waitev c rd rs1 rs2) s fun t => EndsS s t c .reserved fun _ _ => False) ∧
    (x < 64 → y = 0 → Completes (.arm c rs1 rs2) s fun t =>
      EndsS s t c .ok (fun r i => r = .STK_SLOTOVF ∧ i = coreIdx c) ∧ t.hub.slot c x = some { desc := 0 }) ∧
    (x < 64 → Completes (.disarm c rs1) s fun t =>
      EndsS s t c .ok (fun r i => r = .STK_SLOTOVF ∧ i = coreIdx c) ∧ t.hub.slot c x = none) ∧
    (63 < x → (Completes (.arm c rs1 rs2) s fun t => EndsS s t c .reserved fun _ _ => False) ∧
      Completes (.disarm c rs1) s fun t => EndsS s t c .reserved fun _ _ => False) ∧
    (∀ z p rest, x < 64 → s.hub.slot c x = some z → z.desc < 2 ^ 64 → z.fifo = p :: rest → Completes (.evpop c rd rs1) s fun t =>
      ResultS s c rd p .ok t ∧ (t.hub.slot c x).map Slot.fifo = some rest) ∧
    (x < 64 → (∀ z, s.hub.slot c x = some z → z.fifo = []) → Completes (.evpop c rd rs1) s fun t =>
      EndsS s t c .empty fun _ _ => False) ∧
    (∀ d n z, x = d + n * 2 ^ 16 → d < 65536 → n < 64 → coreOk d = true → isHearthCore d = false →
      s.hub.slot d n = some z → z.kind = 0 → (s.hub.core d).wait = .idle →
      (z.fifo.length < 8 → Completes (.fire c rs1 rs2) s fun t => EndsS s t c .ok (fun _ _ => False) ∧
        (t.hub.slot d n).map Slot.fifo = some (z.fifo ++ [s.hub.gpr c rs2])) ∧
      (8 ≤ z.fifo.length → Completes (.fire c rs1 rs2) s fun t => EndsS s t c .busy (fun _ _ => False) ∧
        t.hub.slot d n = some z)) ∧
    (x < 65536 → coreOk x = false → Completes (.fire c rs1 rs2) s fun t => EndsS s t c .noUnit fun _ _ => False)

/-- O21. TNOW writes the Chip Time of the core's spoke replica to rd. TWAIT to a past instant completes at once, to a
later one waits, and returns when the instant arrives. The deadline of a waiting WAITEV or RECV ends it with DEADLINE
once its tick is over (assumption 61), and of a waiting CWAIT with PENDING, rd kept, when no step, halt or watchdog is
pending. A TIMER slot that expires delivers the instant to its FIFO and, when periodic, runs on by its period.
(spec/03_striker_instruction_set.md: waits and deadlines, spec/04_striker_programs.md: TIMER slots) -/
def Obligations.WaitsAndTimers : Prop :=
  (∀ (s : State) (c : Nat) (rd rs1 : RegNo), Runs s c →
    (Completes (.tnow c rd) s fun t => Left s t c rd (BitVec.ofNat 64 (s.hub.replica s.clk.chipTime (dieOf c)))
      (s.hub.pc c + 4) fun _ => False) ∧
    ((s.hub.gpr c rs1).toNat ≤ s.clk.chipTime → Completes (.twait c rs1) s fun t =>
      Left s t c 0 0 (s.hub.pc c + 4) fun _ => False) ∧
    (s.clk.chipTime < (s.hub.gpr c rs1).toNat → Completes (.twait c rs1) s fun t =>
      Waits s t c (.twait (s.hub.gpr c rs1).toNat))) ∧
  (∀ (s : State) (c d : Nat), coreOk c = true → s.hub.cget F.STK_DBG_STATUS_steps_left c = 0 →
    (s.hub.core c).haltAsked = false → (s.hub.core c).wdogRaised = false →
    let returns := fun (k : Nat) (st : Option Status) (t : State) => ActsAt s k (fun h => (h.core c).wait = .idle ∧
      h.pc c = s.hub.pc c + 4 ∧ ∀ z, st = some z → h.gpr c statusReg = BitVec.ofNat 64 z.code) t ∧
      SameRegs (fun r i => InstrReg c statusReg r i) s t ∧ SameMemory (fun _ => False) s t
    ((s.hub.core c).wait = .twait d → Completes (.twaitExpiry c) s (returns d none)) ∧
    (d ≠ 0 → ∀ rd x, ((s.hub.core c).wait = .waitev rd x d → Completes (.waitevDeadline c) s (returns (d + 1) (some .deadline))) ∧
      ((s.hub.core c).wait = .recv rd d → Completes (.recvDeadline c) s (returns (d + 1) (some .deadline))) ∧
      ((s.hub.core c).wait = .cwait rd x d → Completes (.cwaitDeadline c) s (returns (d + 1) (some .pending))))) ∧
  (∀ (s : State) (c n d : Nat) (z : Slot), coreOk c = true → n < 64 → s.hub.slot c n = some z → z.desc < 2 ^ 64 → z.due = some d →
    z.fifo.length < 8 → (s.hub.core c).wait = .idle → Completes (.slotTimerExpiry c n) s fun t =>
      ActsAt s d (fun h => h.slot c n = some { z with
          due := (if bitAt z.desc 4 then some (d + us (bits z.desc 8 32)) else none),
          fifo := z.fifo ++ [BitVec.ofNat 64 d] }) t ∧
      SameRegs (fun _ _ => False) s t ∧ SameMemory (fun _ => False) s t)

/-- O22. For a core that carries out its instruction: SEND to a running core of a spoke that waits in nothing, has
room and arms no INBOX slot queues the sender and the word with OK; with eight messages there it ends BUSY; to a core
that is stopped or in reset it ends UNRESPONSIVE. RECV returns the oldest message with OK and names its sender in
STK_MSGSRC; with none and no deadline it waits. VTX fills OUT when it is empty and ends BUSY when it is full; VRX
takes IN when it is full and ends EMPTY when not. A master of level 3 fills an empty IN, is refused with BUSY while it
is full, and releases OUT. Outside FAILOVER and with no lease of the lock due: LCK of a free lock by a core that
carries out its instruction makes the core its owner with a lease of 10 ms and one more grant, and ends OK, or BROKEN
while the lock is broken, with the grant count in rd; of a lock of another master it ends LOCKED at limit 0 and waits
at a nonzero limit. ULK of the core's own lock with no waiter frees it with OK; of a lock it does not own it ends
NOT_OWNER. Through LCK_REQ a master of level 3 is granted a free lock, with the outcome in LCK_RESULT, frees its own
with no waiter, and with CLEAN clears broken. A lease that lapses with no waiter leaves the lock free and broken. A
waiter whose limit passes while another master holds the lock with its lease running leaves the queue, and a register
request ends LOCKED. (spec/03_striker_instruction_set.md: SEND and RECV, spec/14_hub_self_debug.md: the virtual
terminal, spec/04_striker_programs.md: hub locks) -/
def Obligations.MessagesTerminalAndLocks : Prop :=
    ((∀ (s : State) (c : Nat) (rd rs1 rs2 : RegNo) (d : Nat), Runs s c → rd ≠ statusReg →
      ((s.hub.gpr c rs1).toNat = d → coreOk d = true → isHearthCore d = false →
        (s.hub.coreState d < 2 → (s.hub.core d).inbox.length < 8 → (s.hub.core d).wait = .idle →
          s.hub.slotsOf d (fun z => z.kind == 5) = [] → Completes (.send c rs1 rs2) s fun t =>
            EndsS s t c .ok (fun _ _ => False) ∧ (t.hub.core d).inbox = (s.hub.core d).inbox ++ [(c, s.hub.gpr c rs2)]) ∧
        (s.hub.coreState d < 2 → 8 ≤ (s.hub.core d).inbox.length → Completes (.send c rs1 rs2) s fun t =>
          EndsS s t c .busy fun _ _ => False) ∧
        (2 ≤ s.hub.coreState d → Completes (.send c rs1 rs2) s fun t => EndsS s t c .unresponsive fun _ _ => False)) ∧
      (∀ p v rest, (s.hub.core c).inbox = (p, v) :: rest → p < 65536 → Completes (.recv c rd rs1) s fun t =>
        EndsS s t c .ok (fun r i => RdReg c rd r i ∨ (r = .STK_MSGSRC ∧ i = coreIdx c)) ∧
        t.hub.gpr c rd = (if rd = 0 then 0 else v) ∧ t.hub.cget F.STK_MSGSRC_sender c = p ∧ (t.hub.core c).inbox = rest) ∧
      ((s.hub.core c).inbox = [] → (s.hub.gpr c rs1).toNat = 0 → Completes (.recv c rd rs1) s fun t =>
        Waits s t c (.recv rd 0)) ∧
      (s.hub.cget F.STK_VT_STAT_out_full c = 0 → Completes (.vtx c rs1) s fun t =>
        EndsS s t c .ok (fun r i => (r = .STK_VT_OUT ∨ r = .STK_VT_STAT) ∧ i = coreIdx c) ∧
        t.hub.reg .STK_VT_OUT (coreIdx c) = s.hub.gpr c rs1 ∧ t.hub.cget F.STK_VT_STAT_out_full c = 1) ∧
      (s.hub.cget F.STK_VT_STAT_out_full c = 1 → Completes (.vtx c rs1) s fun t => EndsS s t c .busy fun _ _ => False) ∧
      (s.hub.cget F.STK_VT_STAT_in_full c = 1 → Completes (.vrx c rd) s fun t =>
        EndsS s t c .ok (fun r i => RdReg c rd r i ∨ (r = .STK_VT_STAT ∧ i = coreIdx c)) ∧
        t.hub.gpr c rd = (if rd = 0 then 0 else s.hub.reg .STK_VT_IN (coreIdx c)) ∧
        t.hub.cget F.STK_VT_STAT_in_full c = 0) ∧
      (s.hub.cget F.STK_VT_STAT_in_full c = 0 → Completes (.vrx c rd) s fun t => EndsS s t c .empty fun _ _ => False)) ∧
    (∀ (s : State) (m : Master) (c : Nat) (w : Word), coreOk c = true → Admits s m 3 →
      (s.hub.cget F.STK_VT_STAT_in_full c = 0 → Completes (.vtInWrite m c w) s fun t =>
        Accepts s m (fun h => h.reg .STK_VT_IN (coreIdx c) = w ∧ h.cget F.STK_VT_STAT_in_full c = 1) t ∧
        SameRegs (fun r i => (r = .STK_VT_IN ∨ r = .STK_VT_STAT) ∧ i = coreIdx c) s t ∧ SameMemory (fun _ => False) s t) ∧
      (s.hub.cget F.STK_VT_STAT_in_full c = 1 → Completes (.vtInWrite m c w) s fun t =>
        t.hub = s.hub.wrote m .busy ∧ t.clk = s.clk ∧ t.pending = s.pending) ∧
      Completes (.vtOutRelease m c) s fun t =>
        Accepts s m (fun h => h.cget F.STK_VT_STAT_out_full c = 0) t ∧
        SameRegs (fun r i => r = .STK_VT_STAT ∧ i = coreIdx c) s t ∧ SameMemory (fun _ => False) s t)) ∧
    ((∀ (s : State) (c : Nat) (rd rs1 rs2 : RegNo), Runs s c → rd ≠ statusReg → s.hub.failover = false →
      let l := (s.hub.gpr c rs1).toNat
      l < 256 →
      (s.hub.lockHeld l = false → Completes (.lck c rd rs1 rs2) s fun t =>
        EndsS s t c (if s.hub.flag F.LCK_STATE_broken l then .broken else .ok)
          (fun r i => RdReg c rd r i ∨ (r = .LCK_STATE ∧ i = l)) ∧
        t.hub.lockOwner l (.core c) = true ∧ (t.hub.lock l).due = s.clk.chipTime + ms 10 ∧
        t.hub.get F.LCK_STATE_grant_count l = (s.hub.get F.LCK_STATE_grant_count l + 1) % 2 ^ 32 ∧
        t.hub.gpr c rd = (if rd = 0 then 0 else BitVec.ofNat 64 (t.hub.get F.LCK_STATE_grant_count l))) ∧
      (s.hub.lockHeld l = true → s.hub.lockOwner l (.core c) = false → s.clk.chipTime < (s.hub.lock l).due →
        (s.hub.gpr c rs2 = 0 → Completes (.lck c rd rs1 rs2) s fun t => EndsS s t c .locked fun _ _ => False) ∧
        (s.hub.gpr c rs2 ≠ 0 → Completes (.lck c rd rs1 rs2) s fun t =>
          Acts s (fun h => (h.core c).wait = .lck rd l ∧ h.lockOwner l (.core c) = false ∧
            (h.lock l).waiters = (s.hub.lock l).waiters ++
              [LockWaiter.mk (.core c) (s.clk.chipTime + us (s.hub.gpr c rs2).toNat) false]) t) ∧
        (s.hub.gpr c rs2 = 0 → Completes (.ulk c rs1 rs2) s fun t => EndsS s t c .notOwner fun _ _ => False)) ∧
      (s.hub.lockOwner l (.core c) = true → s.clk.chipTime < (s.hub.lock l).due → (s.hub.lock l).waiters = [] →
        s.hub.gpr c rs2 = 0 → Completes (.ulk c rs1 rs2) s fun t =>
          EndsS s t c .ok (fun r i => r = .LCK_STATE ∧ i = l) ∧ t.hub.lockHeld l = false)) ∧
    (∀ (s : State) (m : Master) (l : Nat), Admits s m 3 → l < 256 → s.hub.failover = false →
      (s.hub.master m).lckWaiting = false →
      (∀ k, k < 2 ^ 32 → s.hub.lockHeld l = false → Completes (.lockAcquire m l k) s fun t =>
        Accepts s m (fun h => h.lockOwner l m = true ∧ h.get F.LCK_RESULT_done m.idx = 1 ∧
          h.get F.LCK_RESULT_status m.idx = (if s.hub.flag F.LCK_STATE_broken l then Status.broken else Status.ok).code) t ∧
        SameRegs (fun r i => (r = .LCK_STATE ∧ i = l) ∨ (r = .LCK_RESULT ∧ i = m.idx)) s t ∧ SameMemory (fun _ => False) s t) ∧
      (s.hub.lockOwner l m = true → s.clk.chipTime < (s.hub.lock l).due → (s.hub.lock l).waiters = [] →
        (Completes (.lockRelease m l) s fun t => Accepts s m (fun h => h.lockHeld l = false ∧
          h.flag F.LCK_STATE_broken l = s.hub.flag F.LCK_STATE_broken l ∧ h.get F.LCK_RESULT_done m.idx = 1) t ∧
          SameMemory (fun _ => False) s t) ∧
        Completes (.lockReleaseClean m l) s fun t => Accepts s m (fun h => h.lockHeld l = false ∧
          h.flag F.LCK_STATE_broken l = false ∧ h.get F.LCK_RESULT_done m.idx = 1) t ∧
          SameMemory (fun _ => False) s t)) ∧
    (∀ (s : State) (l : Nat), l < 256 → s.hub.lockHeld l = true → s.hub.failover = false → (s.hub.lock l).waiters = [] →
      Completes (.leaseLapse l) s fun t => ActsAt s (s.hub.lock l).due (fun h =>
        h.lockHeld l = false ∧ h.flag F.LCK_STATE_broken l = true) t ∧ SameMemory (fun _ => False) s t) ∧
    (∀ (s : State) (l : Nat) (m : Master) (w : LockWaiter), l < 256 → m.ok = true → s.hub.lockWaiter l m = some w →
      s.hub.lockHeld l = true → max s.clk.chipTime (w.limit + 1) < (s.hub.lock l).due → w.viaReg = true →
      Completes (.lckWaitLimit l m) s fun t => ActsAt s (w.limit + 1) (fun h => h.lockWaiter l m = none ∧
        h.get F.LCK_RESULT_status m.idx = Status.locked.code ∧ h.get F.LCK_RESULT_done m.idx = 1) t ∧
        SameMemory (fun _ => False) s t))

/-- O23. For a core at level 3 that carries out its instruction outside a transaction: QUENCH of a nonempty mask of
dies not all in reset, where the root refuses nothing, queues the core's request and the core waits; a mask of zero or
with a reserved bit ends RESERVED, and what the root refuses by hub state ends with that status. The pin going low
sets pin_low and, with pin_en set, queues a request for all dies; its release clears pin_low and releases no die. A
write of HRT_QCH_CMD op quench by a master of level 3 queues its request, and is refused with BUSY while an earlier
one runs. No other register changes, and no byte of memory. (spec/03_striker_instruction_set.md: QUENCH,
spec/06_quench_and_reheat.md: the quench root's requests) -/
def Obligations.QuenchRequestsReachTheRoot : Prop :=
  (∀ (s : State) (c : Nat) (rd rs1 : RegNo), Runs s c → rd ≠ statusReg → 3 ≤ s.hub.coreLevel c →
    s.hub.openTxn (.core c) = none →
    let mask := (s.hub.gpr c rs1).toNat
    (mask ≠ 0 → mask < 2 ^ 32 → s.hub.rootRefusal = none → maskDiff mask s.hub.resetDies ≠ 0 →
      Completes (.quench c rd rs1) s fun t => Acts s (fun h => (h.core c).wait = .quench rd ∧
        h.quenchReqs = s.hub.quenchReqs ++ [QuenchReq.mk 0 c mask (some (.core c rd))]) t ∧ Only (fun _ _ => False) s t) ∧
    (mask = 0 ∨ 2 ^ 32 ≤ mask → Completes (.quench c rd rs1) s fun t => EndsS s t c .reserved fun _ _ => False) ∧
    (∀ st, mask ≠ 0 → mask < 2 ^ 32 → s.hub.rootRefusal = some st → Completes (.quench c rd rs1) s fun t =>
      EndsS s t c st fun _ _ => False)) ∧
  (∀ s : State, Completes .quenchPin s fun t => Acts s (fun h => h.get F.HRT_QCH_STATUS_pin_low = 1 ∧
      h.quenchReqs = if s.hub.flag F.HRT_QCH_CFG_pin_en then
        s.hub.quenchReqs ++ [QuenchReq.mk 2 s.hub.quenchRoot allDies none] else s.hub.quenchReqs) t ∧
    Only (fun r _ => r = .HRT_QCH_STATUS) s t) ∧
  (∀ s : State, Completes .quenchPinRelease s fun t => Acts s (fun h => h.get F.HRT_QCH_STATUS_pin_low = 0 ∧
      h.quenchedDies = s.hub.quenchedDies ∧ h.quenchReqs = s.hub.quenchReqs) t ∧
    Only (fun r _ => r = .HRT_QCH_STATUS) s t) ∧
  (∀ (s : State) (m : Master) (mask : Nat), Admits s m 3 → mask ≠ 0 → mask < 2 ^ 32 →
    ((s.hub.master m).qchBusy = false → Completes (.qchCmdQuench m mask) s fun t =>
      Accepts s m (fun h => (h.master m).qchBusy = true ∧ ∃ q, h.quenchReqs = s.hub.quenchReqs ++ [q] ∧
        q.mask = mask ∧ q.source = quenchSource m ∧ q.reply = some (.reg m)) t ∧ Only (fun _ _ => False) s t) ∧
    ((s.hub.master m).qchBusy = true → Completes (.qchCmdQuench m mask) s (TurnedAway s m .busy)))

/-- O24. With no request waiting, QUENCH_ASSERT changes nothing. A request that the hub state refuses leaves the queue
and every die as it is. A request that it does not refuse, with no Reheat under way, leaves the queue, and the
asserted dies are then those before and those it names outside partitions in reset; where that adds a die, the source
is shown, the hub is held, and the first die of an episode stamps Q and counts the episode.
(spec/06_quench_and_reheat.md: the quench line and its assertion) -/
def Obligations.TheRootAssertsQuench : Prop :=
  (∀ s : State, s.hub.quenchReqs = [] → Completes .quenchAssert s fun t => t = s) ∧
  (∀ (s : State) (q : QuenchReq) (rest : List QuenchReq), s.hub.quenchReqs = q :: rest → q.reply = none →
    (∀ st, s.hub.rootRefusal = some st → Completes .quenchAssert s fun t =>
      Acts s (fun h => h.quenchReqs = rest ∧ h.quenchedDies = s.hub.quenchedDies) t ∧
      Only (fun r _ => r = .HRT_QCH_COUNT) s t) ∧
    (s.hub.rootRefusal = none → s.hub.reheat = none →
      let new := maskDiff (maskDiff q.mask s.hub.resetDies) s.hub.quenchedDies
      Completes .quenchAssert s fun t =>
        Acts s (fun h => h.quenchReqs = rest ∧ h.quenchedDies = s.hub.quenchedDies ||| new ∧
          (new ≠ 0 → h.get F.HRT_QCH_STATUS_last_source = q.source % 16 ∧ h.get F.HRT_STATE_quench_held = 1) ∧
          (new ≠ 0 → s.hub.quenchedDies = 0 → h.reg .HRT_QCH_TIME 0 = BitVec.ofNat 64 s.clk.chipTime ∧
            h.get F.HRT_QCH_COUNT_episodes = min 65535 (s.hub.get F.HRT_QCH_COUNT_episodes + 1))) t))

/-- O25. With no run-control command waiting: a unit asked for its acknowledgement that acknowledges keeps its run
state and the time its spoke's replica shows as its stop time, and nothing is awaited from it; a QUENCHED one shows
its lock_held, and resumes HALTED or, with lock_held high, HALTED_HOLDING where a halt was pending or remembered, else
as before. A unit asked for none changes nothing. A unit that has not acknowledged at its limit is counted in
noack_units, and nothing is awaited from it: a QUENCHED one is silent, a halted one UNRESPONSIVE. No byte of memory
changes. (spec/06_quench_and_reheat.md: the quench hold and its acknowledgement) -/
def Obligations.UnitsAnswerTheQuench : Prop :=
  (∀ (s : State) (u sync : Nat) (lk : Bool), unitOk u = true → s.hub.cmds = [] → (s.hub.unit u).ackDue ≠ none →
    let held := lk && declaresLock u
    Completes (.unitQuenchAck u lk sync) s fun t =>
      Acts s (fun h => h.runState u = s.hub.runState u ∧ (h.unit u).ackDue = none ∧
        (h.unit u).stopAt = s.hub.replica s.clk.chipTime (dieOf u) ∧
        (s.hub.runState u = .quenched → (h.unit u).halt = none ∧ h.uget F.SPK_UNIT_STATE_lock_held u = b2n held ∧
          h.uget F.SPK_UNIT_STATE_resume u =
            (if s.hub.uget F.SPK_UNIT_STATE_resume u = 3 then 3
              else if (s.hub.unit u).halt = none ∧ s.hub.uget F.SPK_UNIT_STATE_resume u = 0 then 0
              else if held then 2 else 1))) t ∧
      Only (fun r i => TraceReg r ∨ (r = .SPK_UNIT_STATE ∧ i = spokeInst .SPK_UNIT_STATE (dieOf u) (localOf u))) s t) ∧
  (∀ (s : State) (u sync : Nat) (lk : Bool), unitOk u = true → (s.hub.unit u).ackDue = none →
    (Completes (.unitQuenchAck u lk sync) s fun t => t = s) ∧
    Completes (.quenchAckTimeout u lk sync) s fun t => t = s) ∧
  (∀ (s : State) (u sync d : Nat) (lk : Bool), unitOk u = true → s.hub.cmds = [] → (s.hub.unit u).ackDue = some d →
    (s.hub.unit u).step = none →
    s.hub.runState u = .quenched ∨ s.hub.runState u = .halted ∨ s.hub.runState u = .haltedHolding →
    Completes (.quenchAckTimeout u lk sync) s fun t =>
      ActsAt s d (fun h => (h.unit u).ackDue = none ∧ (h.unit u).noAck = true ∧
        h.get F.HRT_QCH_COUNT_noack_units = min 65535 (s.hub.get F.HRT_QCH_COUNT_noack_units + 1) ∧
        (if s.hub.runState u = .quenched then h.runState u = .quenched ∧ h.uget F.SPK_UNIT_STATE_silent u = 1
          else h.runState u = .unresponsive)) t ∧ SameMemory (fun _ => False) s t)

/-- O26. A channel's next step, of the ramps it runs the one due first, a down-ramp's on a tie, falls due at its
instant: a notch steps the rail's notch by one, up in a down-ramp and down in an up-ramp; a ballast code likewise
steps the code by one the other way; with no step due nothing changes. The end of the settle that ends first ends its
down-ramp and shows the peak excursion, no less than that of any rail of the ramp, and the direction down; with none
under way it changes nothing. Only the rails' registers, the ramp's summary and the rate change, and what a record
counts in; no byte of memory. (spec/06_quench_and_reheat.md: the ramps' steps, the settle) -/
def Obligations.BellowsSteps : Prop :=
  (∀ (s : State) (d : Nat), d < 32 →
    (∀ x, s.hub.stepOf false d = some x → Completes (.rampNotchStep d) s fun t =>
      ActsAt s x.chan.due.ceil.toNat (fun h => h.blw F.BLW_RAIL_notch d + (if x.up then 1 else 0) =
        s.hub.blw F.BLW_RAIL_notch d + (if x.up then 0 else 1)) t ∧
      Only (fun r i => TraceReg r ∨ (r = .BLW_RAIL ∧ i = spokeInst .BLW_RAIL (nodeOf d) (dieRail d))) s t) ∧
    (∀ x, s.hub.stepOf true d = some x → s.hub.blw F.BLW_RAIL_code d < 255 → Completes (.ballastCodeStep d) s fun t =>
      ActsAt s x.chan.due.ceil.toNat (fun h => h.blw F.BLW_RAIL_code d + (if x.up then 0 else 1) =
        s.hub.blw F.BLW_RAIL_code d + (if x.up then 1 else 0)) t ∧
      Only (fun r i => r = .BLW_RAIL ∧ i = spokeInst .BLW_RAIL (nodeOf d) (dieRail d)) s t)) ∧
  (∀ (s : State) (d : Nat), d < 32 →
    (s.hub.stepOf false d = none → Completes (.rampNotchStep d) s fun t => t = s) ∧
    (s.hub.stepOf true d = none → Completes (.ballastCodeStep d) s fun t => t = s)) ∧
  (∀ (s : State) (x : RampX) (d : Nat) (v : RailVolts), s.hub.settling = some (x, d) →
    (Completes (.settleEnd v.starts v.lows v.highs) s fun t =>
      ActsAt s d (fun h => h.ramps = s.hub.ramps.erase x ∧ h.get F.BLW_LAST_excursion_mv = min 1023 (x.peak v) ∧
        h.get F.BLW_LAST_direction = 0) t ∧
      Only (fun r _ => r = .BLW_RAIL ∨ r = .BLW_LAST ∨ r = .BLW_RATE) s t) ∧
    ∀ c r, c ∈ x.chans → r ∈ c.rails →
      natAt v.highs (railDie c.node r.k) ≤ natAt v.starts (railDie c.node r.k) + x.peak v ∧
      natAt v.starts (railDie c.node r.k) ≤ natAt v.lows (railDie c.node r.k) + x.peak v) ∧
  ∀ (s : State) (a b c : List Nat), s.hub.settling = none → Completes (.settleEnd a b c) s fun t => t = s

/-- O27. REHEAT by a core of level 3 outside a transaction, with nothing that refuses it, is accepted for the quenched
dies of its mask in phase WAITING and the core waits; one that is refused ends with that status. HRT_QCH_CMD op Reheat
likewise, or its refusal shows in last_cmd_status; while an earlier command of the master runs it is refused with
BUSY. At its start the phase is RAMP_UP with an up-ramp; when the ramp has ended its dies' queues are drained, and
RELEASE follows. In phase RELEASE, for every state, the release of the Reheat returns the phase to IDLE, ends the
Reheat and its up-ramp, and clears exactly the Reheat's dies from the asserted ones; in any other phase it changes
nothing. (spec/06_quench_and_reheat.md: Reheat, spec/06_quench_and_reheat.md: Reheat, the release) -/
def Obligations.ReheatPhasesAndRelease : Prop :=
    ((∀ (s : State) (c : Nat) (rd rs1 : RegNo), Runs s c → rd ≠ statusReg → 3 ≤ s.hub.coreLevel c →
      s.hub.openTxn (.core c) = none →
      let mask := (s.hub.gpr c rs1).toNat
      mask ≠ 0 → mask < 2 ^ 32 →
      (s.hub.reheatRefusal mask = none → Completes (.reheat c rd rs1) s fun t => Acts s (fun h =>
          (h.core c).wait = .reheat rd ∧ h.get F.HRT_QCH_STATUS_reheat_phase = 1 ∧
          h.reheat = some (ReheatX.mk (mask &&& s.hub.quenchedDies) s.clk.chipTime none (some (.core c rd)))) t ∧
        Only (fun r _ => r = .HRT_QCH_STATUS) s t) ∧
      (∀ st, s.hub.reheatRefusal mask = some st → Completes (.reheat c rd rs1) s fun t => EndsS s t c st fun _ _ => False)) ∧
    (∀ (s : State) (m : Master) (mask : Nat), Admits s m 3 → mask ≠ 0 → mask < 2 ^ 32 →
      ((s.hub.master m).qchBusy = false → s.hub.reheatRefusal mask = none → Completes (.qchCmdReheat m mask) s fun t =>
        Accepts s m (fun h => (h.master m).qchBusy = true ∧ h.get F.HRT_QCH_STATUS_reheat_phase = 1 ∧
          h.reheat = some (ReheatX.mk (mask &&& s.hub.quenchedDies) s.clk.chipTime none (some (.reg m)))) t ∧
        Only (fun r _ => r = .HRT_QCH_STATUS) s t) ∧
      (∀ st, (s.hub.master m).qchBusy = false → s.hub.reheatRefusal mask = some st →
        Completes (.qchCmdReheat m mask) s fun t =>
          Accepts s m (fun h => h.get F.HRT_QCH_STATUS_last_cmd_status = st.code ∧ h.reheat = s.hub.reheat) t ∧
          Only (fun r _ => r = .HRT_QCH_STATUS) s t) ∧
      ((s.hub.master m).qchBusy = true → Completes (.qchCmdReheat m mask) s (TurnedAway s m .busy))) ∧
    (∀ (s : State) (x : ReheatX) (d : Nat), s.hub.reheat = some x →
      (s.hub.reheatDue = some d → Completes .reheatStart s fun t => ActsAt s d (fun h =>
        h.get F.HRT_QCH_STATUS_reheat_phase = 2 ∧
        h.reheat = some { x with started := some (s.clk.reach d).chipTime } ∧ h.ramps.any RampX.up = true) t) ∧
      (s.hub.drainDue = some d → Completes .reheatDrain s fun t => ActsAt s d (fun h =>
        h.get F.HRT_QCH_STATUS_reheat_phase = 4 ∧ h.reheat = some x) t ∧ SameMemory (fun _ => False) s t))) ∧
    ((∀ (s : State) (x : ReheatX) (v : RailVolts), s.hub.reheat = some x → s.hub.get F.HRT_QCH_STATUS_reheat_phase = 4 →
      Completes (.reheatRelease v) s fun t => ActsAt s 0 (fun h =>
        h.get F.HRT_QCH_STATUS_reheat_phase = 0 ∧ h.reheat = none ∧ h.ramps.any RampX.up = false ∧
        ∀ k, k < 32 → bitAt h.quenchedDies k = (bitAt s.hub.quenchedDies k && !bitAt x.mask k)) t) ∧
    (∀ (s : State) (v : RailVolts), s.hub.get F.HRT_QCH_STATUS_reheat_phase ≠ 4 →
      Completes (.reheatRelease v) s fun t => t = s))

/-- O28. With nothing offered a matrix changes nothing; an offer that no entry matches is taken and changes nothing
else. Where one entry matches: its count goes up by one, saturating, and a one-shot entry's enable clears; with the
quench action it queues a quench request of the entry's mask from the matrix, and with the record action last_status
is OK. A rising edge of XTRIG_IN is offered to the Hearth matrix, stamped. The end of an XTRIG_OUT pulse releases the
pin at its instant. No byte of memory changes. (spec/04_striker_programs.md: trigger matrices, evaluation and firing)
-/
def Obligations.TriggersFire : Prop :=
  (∀ (s : State) (m : Nat), m < 9 → aGet (fun _ => []) s.hub.offers m = [] → Completes (.triggerEval m) s fun t => t = s) ∧
  (∀ (s : State) (m p : Nat) (o : Offer) (rest : List (Nat × Offer)), m < 9 →
    aGet (fun _ => []) s.hub.offers m = (p, o) :: rest →
    ((∀ e, e < trgEntries m → s.hub.trgMatches (s.hub.trgEntry m e) o = false) → Completes (.triggerEval m) s fun t =>
      Acts s (fun h => aGet (fun _ => []) h.offers m = rest) t ∧ Only (fun _ _ => False) s t) ∧
    (∀ e, e < trgEntries m → (∀ k, k < trgEntries m → (s.hub.trgMatches (s.hub.trgEntry m k) o = true ↔ k = e)) →
      let x := s.hub.trgEntry m e
      let count := fun (h : Hub) => if m < 8 then h.sget F.TRG_FIRED_count m e else h.get F.HTRG_FIRED_count e
      let fired := fun (h : Hub) => count h = min (2 ^ 32 - 1) (count s.hub + 1) ∧
        (h.trgEntry m e).enable = !x.oneShot
      (x.action = 0 → Completes (.triggerEval m) s fun t => Acts s (fun h => fired h ∧
        h.quenchReqs = s.hub.quenchReqs ++ [QuenchReq.mk 1 (s.hub.trgSource m) (bits x.w3 16 32) (some (.fired m e))]) t ∧
        Only (fun r _ => TraceReg r ∨ r = .TRG_FIRED ∨ r = .HTRG_FIRED ∨ r = .TRG_ENTRY ∨ r = .HTRG_ENTRY) s t) ∧
      (x.action = 4 → Completes (.triggerEval m) s fun t => Acts s (fun h => fired h ∧
        (if m < 8 then h.sget F.TRG_FIRED_last_status m e else h.get F.HTRG_FIRED_last_status e) = Status.ok.code) t ∧
        Only (fun r _ => TraceReg r ∨ r = .TRG_FIRED ∨ r = .HTRG_FIRED ∨ r = .TRG_ENTRY ∨ r = .HTRG_ENTRY) s t))) ∧
  (∀ s : State, Completes .xtrigInEdge s fun t => Acts s (fun h =>
      aGet (fun _ => []) h.offers 8 = aGet (fun _ => []) s.hub.offers 8 ++ [(33, .xtrig s.clk.chipTime)]) t ∧
    Only (fun _ _ => False) s t) ∧
  (∀ s : State, s.hub.xtrigUntil ≠ 0 → Completes .xtrigOutPulseEnd s fun t =>
    ActsAt s s.hub.xtrigUntil (fun h => h.xtrigUntil = 0) t ∧ Only (fun _ _ => False) s t) ∧
  (∀ s : State, s.hub.xtrigUntil = 0 → Completes .xtrigOutPulseEnd s fun t => t = s)

/-- O29. A write to HRT_RCP_LOAD by a master of level 3 for a core of a spoke or of the active Hearth, with an image
in Hearth scratch or flash, starts the load with busy set, and is refused with BUSY while a load is in progress, and
with STANDBY for a core of the standby Hearth. The end of a load whose image fails its check shows the result and
changes nothing else; one whose sections do not expand, or whose slots ARM refuses, leaves the core in RESET with
DECOMPRESS or TOO_LARGE. The end of a load whose image passes puts the recipe's entry into the core's PC, its level
into STK_AUTH, its ID into the status, zero into every general register, and releases the core. With no load in
progress it changes nothing. (spec/04_striker_programs.md: loading a recipe) -/
def Obligations.RecipesLoad : Prop :=
  (∀ (s : State) (m : Master) (a c : Nat), Admits s m 3 → a < 2 ^ 48 → c < 2 ^ 16 → loadRefusal a c = none →
    (isHearthCore c = true → dieOf c ≠ s.hub.hearthDie → Completes (.recipeLoad m a c) s (TurnedAway s m .standby)) ∧
    (isHearthCore c = false ∨ dieOf c = s.hub.hearthDie →
      (s.hub.load = none → Completes (.recipeLoad m a c) s fun t =>
        Accepts s m (fun h => h.load = some { image := a, target := c, level := s.hub.levelOf m } ∧
          h.get F.HRT_RCP_STATUS_busy = 1 ∧ h.get F.HRT_RCP_STATUS_target = c) t ∧
        Only (fun r _ => r = .HRT_RCP_STATUS) s t) ∧
      (s.hub.load ≠ none → Completes (.recipeLoad m a c) s (TurnedAway s m .busy)))) ∧
  (∀ s : State, s.hub.load = none → Completes .recipeLoadDone s fun t => t = s) ∧
  (∀ (s : State) (x : LoadX), s.hub.load = some x → coreOk x.target = true →
    let r := s.hub.checkImage x.image x.target x.level
    let y := s.hub.readPart x.image
    Completes .recipeLoadDone s fun t =>
      Acts s (fun h => h.load = none ∧ h.get F.HRT_RCP_STATUS_busy = 0) t ∧
      (r ≠ .ok → t.hub.get F.HRT_RCP_STATUS_result = r.code ∧ Only (fun q _ => q = .HRT_RCP_STATUS) s t) ∧
      (r = .ok → s.hub.expands x.image = false → t.hub.get F.HRT_RCP_STATUS_result = LoadResult.decompress.code ∧
        t.hub.coreState x.target = 3) ∧
      (r = .ok → s.hub.expands x.image = true → y.arms = false →
        t.hub.get F.HRT_RCP_STATUS_result = LoadResult.tooLarge.code ∧ t.hub.coreState x.target = 3) ∧
      (r = .ok → s.hub.expands x.image = true → y.arms = true →
        t.hub.get F.HRT_RCP_STATUS_result = 0 ∧ t.hub.get F.HRT_RCP_STATUS_recipe_id = y.id % 2 ^ 32 ∧
        t.hub.pc x.target = BitVec.ofNat 64 y.entry ∧ t.hub.cget F.STK_AUTH_level x.target = y.level % 8 ∧
        (t.hub.core x.target).released = true ∧ (t.hub.core x.target).image = some y ∧
        ∀ r : RegNo, t.hub.gpr x.target r = 0))

/-- O30. A link asked to bank is BANKED with a hold flit sent; at its limit it is FAILED instead. A peer's wake
request to a LOW_POWER banked link is answered with a hold flit; a keep-alive is sent when due. A flit on a BANKED
link is buffered and counted while there is room, then held off. A link that reaches its hold limit goes DOWN, is no
longer banked, counts an expiry and raises the alert. A returning link comes back ACTIVE when BANKED, and is no longer
banked. A link changes state on its own under the link protocol, and a trained one with nothing to hold it banked is
ACTIVE. (spec/06_quench_and_reheat.md: link banking) -/
def Obligations.LinksAreBankedAndReturn : Prop :=
  ∀ (s : State) (l : Nat), l < 48 →
    ((s.hub.link l).bankDue ≠ none → Completes (.linkBanked l) s fun t => Acts s (fun h => h.linkState l = 4 ∧
      h.isBanked l = true ∧ (h.link l).bankedAt = s.clk.chipTime ∧
      (h.link l).keepDue = s.clk.chipTime + us (s.hub.get F.BNK_CFG_keepalive_us)) t) ∧
    ((s.hub.link l).bankDue = none → (Completes (.linkBanked l) s fun t => t = s) ∧
      Completes (.bankTimeout l) s fun t => t = s) ∧
    (∀ d, (s.hub.link l).bankDue = some d → Completes (.bankTimeout l) s fun t =>
      ActsAt s d (fun h => h.linkState l = 5 ∧ h.lget F.BNK_LINK_cause l = 0 ∧ (h.link l).bankDue = none) t) ∧
    (s.hub.linkState l = 3 → s.hub.isBanked l = true → Completes (.peerWakeRequest l) s fun t =>
      Acts s (fun h => h.out = s.hub.out ++ [.flit l .hold]) t ∧ Only (fun _ _ => False) s t) ∧
    (s.hub.linkState l ≠ 3 → Completes (.peerWakeRequest l) s fun t => t = s) ∧
    (s.hub.linkState l = 4 → Completes (.keepaliveTimer l) s fun t =>
      ActsAt s (s.hub.link l).keepDue (fun h => h.out = s.hub.out ++ [.flit l .keepAlive] ∧
        (h.link l).keepDue = (s.hub.link l).keepDue + us (s.hub.get F.BNK_CFG_keepalive_us)) t ∧
      Only (fun _ _ => False) s t) ∧
    (∀ w, s.hub.linkState l = 4 →
      ((s.hub.link l).rx.length < Config.linkRxBuffer l → Completes (.bankedFlitRx l w) s fun t =>
        Acts s (fun h => (h.link l).rx = (s.hub.link l).rx ++ [w] ∧
          h.lget F.BNK_LINK_rx_held l = min 65535 (s.hub.lget F.BNK_LINK_rx_held l + 1)) t ∧
        Only (fun r i => r = .BNK_LINK ∧ i = spokeInst .BNK_LINK (l / 6) (l % 6)) s t) ∧
      (Config.linkRxBuffer l ≤ (s.hub.link l).rx.length → Completes (.bankedFlitRx l w) s fun t =>
        Acts s (fun h => h.link l = s.hub.link l ∧ h.out = s.hub.out ++ [.flit l .hold]) t ∧
        Only (fun _ _ => False) s t)) ∧
    (s.hub.isBanked l = true → Completes (.linkHoldExpiry l) s fun t =>
      ActsAt s ((s.hub.link l).bankedAt + s.hub.holdLimit) (fun h => h.linkState l = 0 ∧ h.isBanked l = false ∧
        (h.link l).rx = [] ∧ bitAt (h.get F.HRT_ALERT_cause) 5 = true ∧
        h.get F.BNK_STATUS_expiries = min 65535 (s.hub.get F.BNK_STATUS_expiries + 1)) t) ∧
    ((s.hub.link l).returning = true → Completes (.linkReturned l) s fun t => Acts s (fun h =>
      h.linkState l = (if s.hub.linkState l = 4 then 2 else s.hub.linkState l) ∧ h.isBanked l = false ∧
      h.lget F.BNK_LINK_cause l = 0 ∧ (h.link l).rx = []) t) ∧
    ((s.hub.link l).returning = false → Completes (.linkReturned l) s fun t => t = s) ∧
    (s.hub.linkState l = 1 → s.hub.bankCause l = 0 → Completes (.fabricLinkStateChange l 2) s fun t =>
      Acts s (fun h => h.linkState l = 2) t ∧
      Only (fun r i => TraceReg r ∨ (r = .BNK_LINK ∧ i = spokeInst .BNK_LINK (l / 6) (l % 6))) s t) ∧
    (∀ k, k < 6 → k ≠ 4 → s.hub.isBanked l = false → ¬ (s.hub.linkState l = 1 ∧ k = 2) →
      Completes (.fabricLinkStateChange l k) s fun t => Acts s (fun h => h.linkState l = k) t ∧
        (s.hub.get F.BNK_STATUS_banked = 0 → (s.hub.link l).bankDue = none →
          Only (fun r i => TraceReg r ∨ r = .TIM_STATUS ∨ (r = .BNK_LINK ∧ i = spokeInst .BNK_LINK (l / 6) (l % 6))) s t))

/-- O31. Outside FAILOVER, for a core that carries out its instruction with no transaction open and an ID that no live
one holds: TXB opens one and returns its ID with OK. With one open: TXB ends BUSY; TXC of it closer than 2 µs ends
TXN_LEAD, and with staged actions starts its prepare, in which the core waits; TXA of it aborts it as COMMANDED with
OK; an ID above 15 ends RESERVED. Through TXN_CMD a master of level 3 does likewise, with the outcome in its result
register. No byte of memory changes. (spec/13_transactions_and_live_update.md: transactions) -/
def Obligations.TransactionsOpenCommitAndAbort : Prop :=
  (∀ (s : State) (c : Nat) (rd rs1 rs2 : RegNo), Runs s c → rd ≠ statusReg → s.hub.failover = false →
    let a := (s.hub.gpr c rs1).toNat
    let txnRegs := fun (r : Reg) (i : Nat) => r = .TXN_STATE ∨ r = .TXN_TIME ∨ r = .TXN_OWNER ∨ (r = .STK_TXN ∧ i = coreIdx c)
    (s.hub.openTxn (.core c) = none → (∃ x, x < 16 ∧ s.hub.txnLive x = false) → Completes (.txb c rd) s fun t =>
      EndsS s t c .ok (fun r i => RdReg c rd r i ∨ txnRegs r i) ∧ ∃ x, x < 16 ∧ s.hub.txnLive x = false ∧
        t.hub.gpr c rd = (if rd = 0 then 0 else BitVec.ofNat 64 x) ∧ t.hub.openTxn (.core c) = some x ∧
        t.hub.cget F.STK_TXN_open c = 1 ∧ t.hub.cget F.STK_TXN_id c = x) ∧
    (15 < a → (Completes (.txc c rd rs1 rs2) s fun t => EndsS s t c .reserved fun _ _ => False) ∧
      Completes (.txa c rs1) s fun t => EndsS s t c .reserved fun _ _ => False) ∧
    (∀ x, s.hub.openTxn (.core c) = some x →
      (Completes (.txb c rd) s fun t => EndsS s t c .busy fun _ _ => False) ∧
      (a = x → (s.hub.gpr c rs2).toNat < s.clk.chipTime + us 2 → Completes (.txc c rd rs1 rs2) s fun t =>
        EndsS s t c .txnLead fun _ _ => False) ∧
      (a = x → s.clk.chipTime + us 2 ≤ (s.hub.gpr c rs2).toNat → (s.hub.txn x).acts ≠ [] →
        Completes (.txc c rd rs1 rs2) s fun t => Acts s (fun h => (h.core c).wait = .txc rd x ∧ h.txnState x = 2 ∧
          h.reg .TXN_TIME x = s.hub.gpr c rs2) t ∧ Only txnRegs s t) ∧
      (a = x → Completes (.txa c rs1) s fun t => EndsS s t c .ok txnRegs ∧ t.hub.txnState x = 6 ∧
        t.hub.get F.TXN_STATE_abort_cause x = 2 ∧ (t.hub.txn x).acts = []))) ∧
  (∀ (s : State) (m : Master),
    (Admits s m 3 → (∃ x, x < 16 ∧ s.hub.txnLive x = false) → Completes (.txnOpen m) s fun t =>
      Accepts s m (fun h => h.get F.TXN_RESULT_status m.idx = 0 ∧ h.get F.TXN_RESULT_done m.idx = 1 ∧
        h.openTxn m = some (h.get F.TXN_RESULT_id m.idx)) t ∧ SameMemory (fun _ => False) s t) ∧
    (∀ x, m.ok = true → 3 ≤ s.hub.levelOf m → s.hub.openTxn m = some x →
      (s.hub.get F.TXN_AT_commit_time m.idx < s.clk.chipTime + us 2 → Completes (.txnCommit m x) s fun t =>
        Accepts s m (fun h => h.get F.TXN_RESULT_status m.idx = Status.txnLead.code ∧
          h.get F.TXN_RESULT_done m.idx = 1 ∧ h.txnState x = 1) t ∧ Only (fun r i => r = .TXN_RESULT ∧ i = m.idx) s t) ∧
      (s.clk.chipTime + us 2 ≤ s.hub.get F.TXN_AT_commit_time m.idx → (s.hub.txn x).acts ≠ [] →
        Completes (.txnCommit m x) s fun t => Accepts s m (fun h => h.txnState x = 2 ∧
          h.get F.TXN_RESULT_done m.idx = 0 ∧ h.get F.TXN_RESULT_id m.idx = x) t ∧ SameMemory (fun _ => False) s t) ∧
      Completes (.txnAbort m x) s fun t => Accepts s m (fun h => h.txnState x = 6 ∧
        h.get F.TXN_STATE_abort_cause x = 2 ∧ h.get F.TXN_RESULT_status m.idx = 0) t ∧ SameMemory (fun _ => False) s t))

/-- O32. The prepare of a PREPARING transaction whose instant lies ahead ends PREPARED when no action fails, and
aborts with the first failing action's index and status when one does; at or past its instant it aborts LATE. In any
other state it changes nothing. At the commit instant a PREPARING transaction aborts LATE, and a PREPARED one of
aligned writes to Hearth scratch outside any plan has written them all in the order they were staged and is DONE. Ten
milliseconds after its end an ID is FREE. An ARM that waits takes effect at its instant and waits no more: for the
groups WFG, RCV and LDG the values it latched are then in force. With none waiting nothing changes.
(spec/13_transactions_and_live_update.md: prepare and the commit instant) -/
def Obligations.TransactionsPrepareAndTakeEffect : Prop :=
  (∀ (s : State) (x : Nat), x < 16 →
    (s.hub.txnState x ≠ 2 → Completes (.prepareDone x) s fun t => t = s) ∧
    (s.hub.txnState x = 2 → s.hub.get F.TXN_TIME_commit_time x ≤ s.clk.chipTime → Completes (.prepareDone x) s fun t =>
      Acts s (fun h => h.txnState x = 6 ∧ h.get F.TXN_STATE_abort_cause x = 3) t ∧ SameMemory (fun _ => False) s t) ∧
    (s.hub.txnState x = 2 → s.clk.chipTime < s.hub.get F.TXN_TIME_commit_time x →
      (s.hub.prepareFails s.clk.chipTime x = none → Completes (.prepareDone x) s fun t =>
        Acts s (fun h => h.txnState x = 3) t ∧ SameMemory (fun _ => False) s t) ∧
      (∀ i a st, s.hub.prepareFails s.clk.chipTime x = some (i, a, st) → Completes (.prepareDone x) s fun t =>
        Acts s (fun h => h.txnState x = 6 ∧ h.get F.TXN_STATE_abort_cause x = 1 ∧
          h.get F.TXN_STATE_first_fail x = i % 4096 ∧ h.get F.TXN_STATE_fail_status x = st.code) t ∧
        SameMemory (fun _ => False) s t)) ∧
    (s.hub.txnState x = 2 → Completes (.commitInstant x) s fun t =>
      ActsAt s (s.hub.get F.TXN_TIME_commit_time x) (fun h => h.txnState x = 6 ∧
        h.get F.TXN_STATE_abort_cause x = 3) t ∧ SameMemory (fun _ => False) s t) ∧
    (∀ ws : List (Nat × Word), s.hub.txnState x = 3 → ws ≠ [] →
      (s.hub.txn x).acts = ws.map (fun e => .write e.1 e.2) → (s.hub.txn x).rptCap = 0 →
      (∀ e, e ∈ ws → inScratch e.1 8 = true ∧ e.1 % 8 = 0 ∧ s.hub.planReadOnly e.1 8 = false) →
      Completes (.commitInstant x) s fun t => ActsAt s (s.hub.get F.TXN_TIME_commit_time x) (fun h =>
        h.txnState x = 5 ∧ h.mem = (ws.foldl (fun h e => h.wr e.1 8 e.2.toNat) s.hub).mem) t ∧
        SameRegs (fun r i => r = .TXN_STATE ∧ i = x) s t) ∧
    (5 ≤ s.hub.txnState x → Completes (.txnIdTimeout x) s fun t => ActsAt s ((s.hub.txn x).endedAt + ms 10)
      (fun h => h.txnState x = 0) t ∧ Only (fun r i => (r = .TXN_STATE ∨ r = .TXN_TIME ∨ r = .TXN_OWNER) ∧ i = x) s t) ∧
    (s.hub.txnState x < 5 → Completes (.txnIdTimeout x) s fun t => t = s)) ∧
  (∀ (s : State) (g : CfgGroup), s.hub.arm g = none → Completes (.groupTakesEffect g) s fun t => t = s) ∧
  (∀ (s : State) (g : CfgGroup) (a : ArmX) (d : Nat), s.hub.arm g = some a → a.due = some d →
    g = .wfg ∨ g = .rcv ∨ g = .ldg → (a.vals.map Prod.fst).Nodup → Completes (.groupTakesEffect g) s fun t =>
      ActsAt s d (fun h => h.arm g = none ∧
        ∀ r i v, (r.key i, some v) ∈ a.vals → h.reg r i = v) t ∧
      Only (fun r i => ∃ v, (r.key i, some v) ∈ a.vals) s t)

/-- O33. For a core that carries out its instruction, outside FAILOVER: CAPT of a plan that passes its checks, which
nothing of the machine's state refuses, starts a capture of it and returns its handle with OK, and otherwise ends with
the refusal. CWAIT of a handle with an outcome returns its status, and its result where the status says so; with none
it waits, or ends PENDING past its deadline; a handle beyond 16 bits ends RESERVED. A master of level 3 registers a
plan that passes its checks, and one that fails them leaves the slot empty and INVALID; a clear empties the slot.
CRU_START of a slot with no plan shows NOT_HELD, of one that the machine's state refuses that status, and of a sized
one whose space is there starts its capture and shows its handle with OK. (spec/07_snapshot_capture.md: capture plans
and the start of a capture) -/
def Obligations.CapturesStart : Prop :=
  (∀ (s : State) (c : Nat) (rd rs1 : RegNo), Runs s c → rd ≠ statusReg → s.hub.failover = false →
    let a := (s.hub.gpr c rs1).toNat
    (∀ p, s.hub.checkPlan a (s.hub.coreLevel c) = .ok p → s.hub.captureRefusal p = none →
      Completes (.capt c rd rs1) s fun t => EndsS s t c .ok (fun r i => RdReg c rd r i ∨ r = .CRU_JOB ∨
          r = .CRU_JOB_MANIFEST ∨ r = .HRT_EMBER_STATUS) ∧
        ∃ k x, t.hub.capture k = some x ∧ x.plan = p ∧ x.state = 1 ∧ x.startedAt = s.clk.chipTime ∧
          t.hub.gpr c rd = if rd = 0 then 0 else BitVec.ofNat 64 k) ∧
    (∀ p st, s.hub.checkPlan a (s.hub.coreLevel c) = .ok p → s.hub.captureRefusal p = some st →
      Completes (.capt c rd rs1) s fun t => EndsS s t c st fun _ _ => False) ∧
    (∀ st, s.hub.checkPlan a (s.hub.coreLevel c) = .error st → Completes (.capt c rd rs1) s fun t =>
      EndsS s t c st fun r _ => st = .auth ∧ r = .AUT_STATUS)) ∧
  (∀ (s : State) (c : Nat) (rd rs1 rs2 : RegNo), Runs s c → rd ≠ statusReg →
    let a := (s.hub.gpr c rs1).toNat
    let d := (s.hub.gpr c rs2).toNat
    (∀ st v, a < 65536 → s.hub.jobOutcome a = some (st, v, true) → Completes (.cwait c rd rs1 rs2) s
      (ResultS s c rd (BitVec.ofNat 64 v) st)) ∧
    (∀ st v, a < 65536 → s.hub.jobOutcome a = some (st, v, false) → Completes (.cwait c rd rs1 rs2) s fun t =>
      EndsS s t c st fun _ _ => False) ∧
    (a < 65536 → s.hub.jobOutcome a = none → d = 0 ∨ s.clk.chipTime ≤ d → Completes (.cwait c rd rs1 rs2) s fun t =>
      Waits s t c (.cwait rd a d)) ∧
    (a < 65536 → s.hub.jobOutcome a = none → 0 < d → d < s.clk.chipTime → Completes (.cwait c rd rs1 rs2) s fun t =>
      EndsS s t c .pending fun _ _ => False) ∧
    (65536 ≤ a → Completes (.cwait c rd rs1 rs2) s fun t => EndsS s t c .reserved fun _ _ => False)) ∧
  (∀ (s : State) (m : Master) (n a : Nat), n < 64 → a < 2 ^ 48 → Admits s m 3 → inScratch a 64 = true → a % 8 = 0 →
    (∀ p, s.hub.checkPlan a (s.hub.levelOf m) = .ok p → Completes (.planRegister m n a) s fun t =>
      Accepts s m (fun h => aFind n h.plans = some p ∧ h.get F.CRU_PLAN_valid n = 1 ∧ h.get F.CRU_PLAN_addr n = a ∧
        h.get F.CRU_RESULT_status m.idx = 0) t ∧
      Only (fun r i => r = .CRU_PLAN ∨ (r = .CRU_RESULT ∧ i = m.idx)) s t) ∧
    (∀ st, s.hub.checkPlan a (s.hub.levelOf m) = .error st → Completes (.planRegister m n a) s fun t =>
      Accepts s m (fun h => aFind n h.plans = none ∧ h.get F.CRU_PLAN_state n = 3 ∧
        h.get F.CRU_RESULT_status m.idx = st.code) t ∧
      Only (fun r i => (r = .CRU_PLAN ∧ i = n) ∨ (r = .CRU_RESULT ∧ i = m.idx)) s t)) ∧
  (∀ (s : State) (m : Master) (n : Nat), n < 64 → Admits s m 3 → Completes (.planClear m n) s fun t =>
    Accepts s m (fun h => aFind n h.plans = none ∧ h.get F.CRU_PLAN_valid n = 0 ∧ h.get F.CRU_PLAN_state n = 0) t ∧
    Only (fun r i => r = .CRU_PLAN ∧ i = n) s t) ∧
  (∀ (s : State) (m : Master) (n : Nat), n < 64 → Admits s m 3 →
    (aFind n s.hub.plans = none → Completes (.captureStartReg m n) s fun t =>
      Accepts s m (fun h => h.get F.CRU_RESULT_status m.idx = Status.notHeld.code ∧ h.captures = s.hub.captures) t ∧
      Only (fun r i => r = .CRU_RESULT ∧ i = m.idx) s t) ∧
    (∀ p st, aFind n s.hub.plans = some p → s.hub.captureRefusal p = some st → Completes (.captureStartReg m n) s fun t =>
      Accepts s m (fun h => h.get F.CRU_RESULT_status m.idx = st.code ∧ h.captures = s.hub.captures) t ∧
      Only (fun r i => r = .CRU_RESULT ∧ i = m.idx) s t) ∧
    (∀ p, aFind n s.hub.plans = some p → s.hub.captureRefusal p = none → s.hub.get F.CRU_PLAN_state n = 1 →
      (s.hub.sizePlan p).isSome = true → s.hub.get F.HRT_EMBER_STATUS_phase = 0 →
      let o := s.hub.openCapture s.clk.chipTime p n 2 none
      ∀ g, o.2.placeCapture o.1 = some g → Completes (.captureStartReg m n) s fun t =>
        Accepts s m (fun h => h.get F.CRU_RESULT_status m.idx = 0 ∧ h.get F.CRU_RESULT_handle m.idx = o.1 ∧
          h.captures = g.captures ∧ (h.capture o.1).map CaptureX.state = some 2) t ∧ SameMemory (fun _ => False) s t))

/-- O34. With no region of a running capture named, a block, a scan's end, a silence or an uncorrectable error changes
nothing but the SIBs a capture closes. The end of the sizing gives the capture its space, or ends it NO_SPACE. A block
that an SRAM region stores raw has its 4 KiB in the region's area and status RAW; any block of an open region that its
source may read now has a status then. A valid scan is kept; a first invalid one is counted and tried once more; a
silent one loses the region's blocks and is counted. A silent port is counted and marked. An uncorrectable block is
lost, or queued for scan where the plan has a fallback. A fallback deadline that passes loses every block that still
waits for scan, and ends no capture. (spec/07_snapshot_capture.md: reading the regions) -/
def Obligations.CapturesRead : Prop :=
  (∀ (s : State) (n i b : Nat) (data : List Byte) (ok : Bool), n < 4 → s.hub.openRegion n i = none →
    (data.length = 4096 → Completes (.blockCommit n i b data) s fun t => t = s) ∧
    (∀ bank, bank < 8 → (Completes (.scanReadDone n ⟨i, bank⟩ ok) s fun t => t = s) ∧
      Completes (.scanSilence n ⟨i, bank⟩) s fun t => t = s) ∧
    Completes (.sramUncorrectable n i b) s fun t => Acts s (fun h => h.captures = s.hub.captures) t ∧
      Only (fun _ _ => False) s t) ∧
  (∀ (s : State) (n k : Nat) (x : CaptureX), n < 4 → s.hub.slotCapture n = some (k, x) → x.state = 1 →
    s.hub.get F.HRT_EMBER_STATUS_phase = 0 →
    (∀ h', s.hub.placeCapture k = some h' → Completes (.sizingDone n) s fun t =>
      Acts s (fun h => h.captures = h'.captures) t ∧
      Only (fun r _ => r = .CRU_JOB ∨ r = .CRU_JOB_MANIFEST ∨ r = .CRU_PLAN) s t) ∧
    (s.hub.placeCapture k = none → (∀ p, p < 8 → s.hub.step p ≠ 3) → s.hub.mapOp = none → s.hub.capture k = some x →
      Completes (.sizingDone n) s fun t => Acts s (fun h => ∃ y, h.capture k = some y ∧ y.state = 4 ∧
        y.status = Status.noSpace.code ∧ y.closedAt = s.clk.chipTime) t ∧ SameMemory (fun _ => False) s t)) ∧
  (∀ (s : State) (n k i b : Nat) (x : CaptureX) (r : RegionX) (data : List Byte), n < 4 →
    s.hub.openRegion n i = some (k, x, r) → s.hub.capture k = some x →
    let mayGo := b < r.blocks ∧ aFind b r.blk = none ∧ s.hub.mayRead k r.spoke (x.scans r b) r = true ∧
      s.hub.baseWaits k r = false ∧ x.scanWaits r b = false
    (mayGo → (2 ≤ r.kind ∨ data.length = 4096) →
      Completes (.blockCommit n i b data) s fun t => Acts s (fun h => ∃ y z, h.capture k = some y ∧
        y.plan.regions[i]? = some z ∧ (aFind b z.blk).isSome = true) t) ∧
    (∀ a size, mayGo → data.length = 4096 → r.kind = 0 → r.predictive = false →
      r.target = 0 → r.area = [(a, size)] → 4096 * (b + 1) ≤ size → s.hub.spokeOn (dieOf r.unit) = true →
      Completes (.blockCommit n i b data) s fun t => Acts s (fun h => h.bytes (a + 4096 * b) 4096 = data ∧
        ∃ y z w, h.capture k = some y ∧ y.plan.regions[i]? = some z ∧ aFind b z.blk = some w ∧ w.status = 0 ∧
          w.size = 4) t ∧
        SameMemory (fun q => a + 4096 * b ≤ q ∧ q < a + 4096 * (b + 1)) s t ∧
        SameRegs (fun q j => (q = .SPK_CAP_STATUS ∧ j = spokeInst .SPK_CAP_STATUS r.spoke 0) ∨ q = .CRU_JOB ∨
          q = .CRU_JOB_MANIFEST) s t) ∧
    (∀ bank, bank < 8 → r.kind = 1 → r.scanOk = false → s.hub.regionBarred r = none →
      (Completes (.scanReadDone n ⟨i, bank⟩ true) s fun t => Acts s (fun h => ∃ y z, h.capture k = some y ∧
        y.plan.regions[i]? = some z ∧ z.scanOk = true ∧ z.blk = r.blk) t ∧
        Only (fun q _ => q = .CRU_JOB ∨ q = .CRU_JOB_MANIFEST) s t) ∧
      (r.retried.contains 0 = false → Completes (.scanReadDone n ⟨i, bank⟩ false) s fun t => Acts s (fun h => ∃ y z,
        h.capture k = some y ∧ y.plan.regions[i]? = some z ∧ z.retried.contains 0 = true ∧ z.blk = [] ∧
        h.sget F.SPK_CAP_ERR_scan_retries r.spoke = min 65535 (s.hub.sget F.SPK_CAP_ERR_scan_retries r.spoke + 1)) t ∧
        Only (fun q _ => q = .CRU_JOB ∨ q = .CRU_JOB_MANIFEST ∨ q = .SPK_CAP_ERR) s t) ∧
      (Completes (.scanSilence n ⟨i, bank⟩) s fun t => Acts s (fun h => (∃ y z, h.capture k = some y ∧
        y.plan.regions[i]? = some z ∧ ∀ j, j < r.blocks → (aFind j z.blk).map BlockX.status = some 3) ∧
        h.sget F.SPK_CAP_ERR_scan_failures r.spoke = min 65535 (s.hub.sget F.SPK_CAP_ERR_scan_failures r.spoke + 1)) t ∧
        Only (fun q _ => q = .CRU_JOB ∨ q = .CRU_JOB_MANIFEST ∨ q = .SPK_CAP_ERR) s t)) ∧
    (r.kind = 0 → b < r.blocks → aFind b r.blk = none → Completes (.sramUncorrectable n i b) s fun t =>
      Acts s (fun h => ∃ y z, h.capture k = some y ∧ y.plan.regions[i]? = some z ∧
        (x.plan.fallbackMs = 0 → (aFind b z.blk).map BlockX.status = some 3) ∧
        (x.plan.fallbackMs ≠ 0 → z.queued = r.queued ++ [b])) t ∧ SameMemory (fun _ => False) s t)) ∧
  (∀ (s : State) (d bank : Nat) (k : Nat) (x : CaptureX) (r : RegionX) (b : Nat), d < 32 → bank < 8 →
    (k, x) ∈ s.hub.captures → x.state = 2 → r ∈ x.plan.regions → r.kind = 0 → b ∈ r.unread → r.bank b = (d, bank) →
    Completes (.sramPortSilence d bank) s fun t => Acts s (fun h =>
      h.sget F.SPK_CAP_ERR_port_silence d = min 65535 (s.hub.sget F.SPK_CAP_ERR_port_silence d + 1)) t ∧
      Only (fun q _ => q = .CRU_JOB ∨ q = .CRU_JOB_MANIFEST ∨ q = .SPK_CAP_ERR) s t) ∧
  (∀ (s : State) (n d : Nat), n < 4 → s.hub.fallbackDue n = some d → Completes (.sramFallbackDeadline n) s fun t =>
    ActsAt s d (fun h => (∀ k, (h.capture k).map CaptureX.state = (s.hub.capture k).map CaptureX.state) ∧
      ∀ (k : Nat) (x : CaptureX), s.hub.slotCapture n = some (k, x) → s.hub.capture k = some x →
        ∀ (i : Nat) (r : RegionX), x.plan.regions[i]? = some r → r.kind = 0 → r.omitted = none →
          ∀ b, b < r.blocks → aFind b r.blk = none → x.byScan r b = true →
          ∃ (y : CaptureX) (z : RegionX), h.capture k = some y ∧ y.plan.regions[i]? = some z ∧
            (aFind b z.blk).map BlockX.status = some 3) t ∧
    Only (fun q _ => q = .CRU_JOB ∨ q = .CRU_JOB_MANIFEST ∨ q = .SPK_CAP_ERR) s t)

/-- O35. A running capture that is not cancelled, whose regions are all finished with no original in need of space,
closes with OK, or PARTIAL_RESULT where a region is not whole, stamped. A cancel by a master of level 3 marks a
capture that has not closed, is NOT_HELD on a closed one, and NO_UNIT on none. A release of a closed capture with no
export ends it, with exports waits for them, is BUSY on one that has not closed, and NO_UNIT on none. The loss of the
host path marks it. (spec/07_snapshot_capture.md: the close, the cancel and the release of a capture) -/
def Obligations.CapturesEnd : Prop :=
  (∀ (s : State) (n k : Nat) (x : CaptureX), n < 4 → s.hub.slotCapture n = some (k, x) → s.hub.capture k = some x →
    x.state = 2 → x.cancelled = false → (∀ r, r ∈ x.plan.regions → r.finished = true ∧ r.keptBlocks = []) →
    (∀ p, p < 8 → s.hub.step p ≠ 3) → s.hub.mapOp = none → Completes (.captureClose n) s fun t =>
      Acts s (fun h => ∃ y, h.capture k = some y ∧ y.state = 4 ∧ y.closedAt = s.clk.chipTime ∧
        y.status = (if x.plan.regions.any (fun r => decide (3 ≤ r.status)) then Status.partialResult else .ok).code) t) ∧
  (∀ (s : State) (n : Nat), n < 4 → s.hub.slotCapture n = none → Completes (.captureClose n) s fun t => t = s) ∧
  (∀ (s : State) (m : Master) (k : Nat), Admits s m 3 → k < 65536 →
    (s.hub.capture k = none → (Completes (.captureCancel m k) s (TurnedAway s m .noUnit)) ∧
      Completes (.captureRelease m k) s (TurnedAway s m .noUnit)) ∧
    (∀ x, s.hub.capture k = some x →
      (x.state = 4 → Completes (.captureCancel m k) s (TurnedAway s m .notHeld)) ∧
      (x.state ≠ 4 → (Completes (.captureCancel m k) s fun t =>
          Accepts s m (fun h => h.capture k = some { x with cancelled := true }) t ∧ Only (fun _ _ => False) s t) ∧
        Completes (.captureRelease m k) s (TurnedAway s m .busy)) ∧
      (x.state = 4 → x.exports = 0 → Completes (.captureRelease m k) s fun t =>
        Accepts s m (fun h => h.capture k = none) t ∧ Only (fun r _ => r = .CRU_PLAN) s t) ∧
      (x.state = 4 → x.exports ≠ 0 → Completes (.captureRelease m k) s fun t =>
        Accepts s m (fun h => h.capture k = some { x with releaseAsked := true }) t ∧ Only (fun _ _ => False) s t))) ∧
  (∀ s : State, Completes .hostPathLoss s fun t => Acts s (fun h => h.hostPath = false) t)

/-- O36. For a core that carries out its instruction: SWG of a descriptor that passes its checks takes a slot that was
not open, holds the descriptor with its issuer, and returns its handle with OK; one that fails ends with its status.
An engine's block with no job running changes nothing; while no capture block waits at the engine and it is the job's
turn, a cancelled job ends CANCELLED; a fixed-ratio block that fits its buffer is stored there padded to its slot and
counted; a CHECK block that decodes is counted and stores nothing. A descriptor appended by the issuer joins the job's
queue, and a suspended job runs on; with eight waiting it is refused with BUSY. A cancel marks a running job.
(spec/08_swage_compression.md: Swage jobs) -/
def Obligations.SwageJobs : Prop :=
  (∀ (s : State) (c : Nat) (rd rs1 : RegNo), Runs s c → rd ≠ statusReg →
    let a := (s.hub.gpr c rs1).toNat
    (∀ d p, s.hub.checkJob c a = .ok (d, p) → Completes (.swg c rd rs1) s fun t =>
      EndsS s t c .ok (fun r i => RdReg c rd r i ∨ r = .SWG_JOB ∨ r = .SWG_JOB_DESC ∨ r = .SWG_JOB_PROG ∨ r = .SWG_ENG ∨
        r = .HRT_EMBER_STATUS) ∧
      ∃ k j, s.hub.jobOpen k = false ∧ t.hub.jobOpen k = true ∧ t.hub.job k = some j ∧ j.desc = d ∧ j.issuer = c ∧
        t.hub.gpr c rd = if rd = 0 then 0 else BitVec.ofNat 64 j.handle) ∧
    (∀ st, s.hub.checkJob c a = .error st → Completes (.swg c rd rs1) s fun t =>
      EndsS s t c st fun r _ => st = .auth ∧ r = .AUT_STATUS)) ∧
  (∀ (s : State) (p q : Nat), p < 8 → q < 4 →
    let k := jobSlot p q
    (s.hub.job k = none → Completes (.swageBlock p q) s fun t => t = s) ∧
    (∀ j, s.hub.job k = some j → s.hub.get F.SWG_JOB_state k ≠ 1 → Completes (.swageBlock p q) s fun t => t = s) ∧
    (∀ j, s.hub.job k = some j → s.hub.get F.SWG_JOB_state k = 1 → s.hub.domainOn (96 + k / 4) = true →
      s.hub.captureWaits p = false → s.hub.swageTurn p = some q →
      (j.cancelled = true → Completes (.swageBlock p q) s fun t => Acts s (fun h =>
        h.get F.SWG_JOB_state k = 3 ∧ h.get F.SWG_JOB_status k = Status.cancelled.code) t) ∧
      (∀ b, j.cancelled = false → j.desc.op = 0 → j.desc.predictive = false → j.current = some b →
        j.pos + 4096 < j.desc.length → b.used + slotBytes j.desc.target ≤ b.size →
        s.hub.mappedOut (b.addr + b.used) (slotBytes j.desc.target) = false → Completes (.swageBlock p q) s fun t =>
          ∀ code, fixedCode j.desc.lane16 j.desc.target j.desc.policy (s.hub.bytes (j.desc.source + j.pos) 4096) = some code →
            code.length ≤ slotBytes j.desc.target → Acts s (fun h =>
              h.mem = (s.hub.setBytes (b.addr + b.used) (code ++ List.replicate (slotBytes j.desc.target - code.length) 0)).mem ∧
              h.job k = some { j.setCurrent { b with
                  used := b.used + slotBytes j.desc.target, blocks := b.blocks + 1 } with
                pos := j.pos + 4096, blocks := j.blocks + 1, out := j.out + slotBytes j.desc.target }) t ∧
            SameRegs (fun r _ => r = .SWG_JOB_PROG ∨ r = .SWG_ENG ∨ r = .SWG_COUNT) s t) ∧
      (∀ d, j.cancelled = false → j.desc.op = 2 →
        decodeBlock (s.hub.bytes (j.desc.source + j.pos) (min 4160 (j.desc.length - j.pos))) = .ok d →
        j.pos + d.advance < j.desc.length → Completes (.swageBlock p q) s fun t => Acts s (fun h =>
          h.job k = some { j with pos := j.pos + d.advance, blocks := j.blocks + 1, out := j.out + d.data.length }) t ∧
          Only (fun r _ => r = .SWG_JOB_PROG ∨ r = .SWG_ENG ∨ r = .SWG_COUNT) s t))) ∧
  (∀ (s : State) (c hd d k : Nat) (j : SwgJob), Admits s (.core c) 3 → hd < 65536 → d < 2 ^ 48 →
    s.hub.swageSlot hd = some k → s.hub.job k = some j → j.issuer = c → s.hub.jobOpen k = true →
    (inHubMem d 32 = true → d % 8 = 0 → j.queue.length < 8 → Completes (.swgChainAppend (.core c) hd d) s fun t =>
      Accepts s (.core c) (fun h => h.job k = some { j with queue := j.queue ++ [d] } ∧ h.get F.SWG_JOB_state k = 1) t ∧
      Only (fun r i => r = .SWG_JOB ∧ i = k) s t) ∧
    (inHubMem d 32 = true → d % 8 = 0 → 8 ≤ j.queue.length →
      Completes (.swgChainAppend (.core c) hd d) s (TurnedAway s (.core c) .busy)) ∧
    (inHubMem d 32 = false → Completes (.swgChainAppend (.core c) hd d) s (TurnedAway s (.core c) .unmapped)) ∧
    (s.hub.get F.SWG_JOB_state k = 1 → Completes (.swgCancel (.core c) hd) s fun t =>
      Accepts s (.core c) (fun h => h.job k = some { j with cancelled := true }) t ∧ Only (fun _ _ => False) s t)) ∧
  (∀ (s : State) (m : Master) (hd : Nat), Admits s m 3 → hd < 65536 → s.hub.swageSlot hd = none →
    Completes (.swgCancel m hd) s (TurnedAway s m .noUnit))

/-- O37. At an output of the spine, or an uplink of a Tongs, with nothing waiting and nothing arriving, the holder is
none. A lone transfer of a requester present and requesting on the node, at the output of its route (the ring
direction with fewer hops, the increasing one at four), with credit and a rank, in a window that has not ended, is
granted: its requester holds the output, the output's beats go up by 16 or by the transfer's beats if fewer, and what
is left of it waits. The end of a quota window falls due at its Chip Time and clears the arbiter's counts of urgent
and allocated beats. A read of SPN_MAXWAIT by a master of level 1 returns the longest wait and clears it. No byte of
memory changes. (spec/09_spine_arbitration.md: arbitration, quota windows, the longest wait) -/
def Obligations.TheSpineArbitrates : Prop :=
  (∀ (s : State) (p o : Nat) (nc : List Nat), p < 8 → o < 11 → (s.hub.outX (arbNo p o)).waiting = [] →
    Completes (.arbiterDecision p o [] nc) s fun t => Acts s (fun h => h.holder (arbNo p o) = none ∧
        (h.outX (arbNo p o)).waiting = [] ∧ (h.outX (arbNo p o)).grantLeft = 0) t ∧
      Only (fun r i => r = .SPN_OUT ∧ i = arbNo p o) s t) ∧
  (∀ (s : State) (p : Nat) (nc : List Nat) (x : Transfer) (c : Nat), p < 8 →
    let o := route p x.dest
    let k := outNo p o
    transferOk p o x = true → s.hub.requests p x.req = true → nc.contains x.req = false → x.resp = 0 →
    (s.hub.outX k).waiting = [] → (s.hub.outX k).skip = none → (s.hub.outX k).grantLeft = 0 →
    windowOf k s.clk.chipTime ≤ (s.hub.outX k).window →
    s.hub.rank k { tr := x, req := x.req, src := .here p, left := x.beats, stamp := some s.clk.chipTime } = some c →
    Completes (.arbiterDecision p o [x] nc) s fun t =>
      Acts s (fun h => h.holder k = some x.req ∧
        (h.reg .SPN_OUT_BEATS k).toNat = min (2 ^ 64 - 1) ((s.hub.reg .SPN_OUT_BEATS k).toNat + min 16 x.beats) ∧
        (h.outX k).waiting.map Waiting.left = if x.beats ≤ 16 then [] else [x.beats - 16]) t ∧
      Only (fun r _ => r = .SPN_OUT ∨ r = .SPN_OUT_BEATS ∨ r = .SPN_MAXWAIT ∨ r = .SPN_HOG) s t) ∧
  (∀ (p : Nat) (d : SpinePort), p < 8 →
    let up := (portNode d + 8 - p) % 8
    let down := (p + 8 - portNode d) % 8
    portNode d < 8 → portNode d ≠ p → route p d = if up ≤ down then 0 else 1) ∧
  (∀ (s : State) (p o : Nat), p < 8 → o < 11 → s.clk.chipTime < 2 ^ 64 → s.hub.windowDue (arbNo p o) < 2 ^ 64 →
    Completes (.quotaWindowEnd p o) s fun t =>
      ActsAt s (s.hub.windowDue (arbNo p o)) (fun h => h.urgentUsed (arbNo p o) = 0 ∧
        (h.outX (arbNo p o)).allocUsed = []) t ∧ Only (fun r i => r = .SPN_OUT ∧ i = arbNo p o) s t) ∧
  (∀ (s : State) (m : Master) (p r : Nat), p < 8 → r < 48 → m.ok = true → 1 ≤ s.hub.levelOf m → s.hub.spokeOn p = true →
    Completes (.maxwaitRead m p r) s fun t =>
      Accepts s m (fun h => (h.master m).rdata = s.hub.reg .SPN_MAXWAIT (spokeInst .SPN_MAXWAIT p r) ∧
        h.sget F.SPN_MAXWAIT_max_wait p r = 0) t ∧
      Only (fun q i => q = .SPN_MAXWAIT ∧ i = spokeInst .SPN_MAXWAIT p r) s t)

/-- O38. With no notice waiting and no entry past its budget: a dispatch with room makes an entry of its context,
stamped, with the budget of the context's mode, and one with no room waits; a completion or an abort removes its
entry, a late completion is counted. A step mark shows its state, and one out of order its error. A tick of a wheel
counts the unheld time of its contexts with entries. An expiry that a wheel carries out marks its entry and is
counted. A write of HWT_EST_SEL by a master of level 3 selects an estimator, with reset zeroes it, and with a class
above 8 is RESERVED. No byte of memory changes. (spec/10_hang_watch.md: entries, the wheel's tick, expiry, step marks,
estimators) -/
def Obligations.HangWatchTracksCommands : Prop :=
  (∀ (s : State) (c : Nat), c < 2048 → s.hub.wheelNotes = [] →
    (∀ e, e ∈ s.hub.ctxs → ∀ k, k ∈ e.2.inflight → k.due = none) →
    let wheelRegs := fun (r : Reg) (i : Nat) => r = .HWT_WHEEL ∧ i = spokeInst .HWT_WHEEL (s.hub.homeOf c) 0
    (∀ q cls queue u, q < 2 ^ 32 → cls < 16 → queue < 256 → unitOk u = true →
      (s.hub.hasRoom c = true → Completes (.cmdDispatchNotice c q cls queue u) s fun t => Acts s (fun h =>
        (h.ctx c).inflight = (s.hub.ctx c).inflight ++ [Inflight.mk q cls queue u s.clk.chipTime (s.hub.budgetOf c cls)
          none none false] ∧ (h.ctx c).u = (s.hub.ctx c).u) t ∧ Only wheelRegs s t) ∧
      (s.hub.hasRoom c = false → Completes (.cmdDispatchNotice c q cls queue u) s fun t => Acts s (fun h =>
        h.wheelNotes = [(c, .dispatch q cls queue u)] ∧ h.ctxs = s.hub.ctxs) t ∧ Only (fun _ _ => False) s t)) ∧
    (∀ q k, q < 2 ^ 32 → (s.hub.ctx c).inflight.find? (fun y => y.seq = q) = some k →
      (Completes (.cmdCompleteNotice c q) s fun t => Acts s (fun h =>
        (h.ctx c).inflight = (s.hub.ctx c).inflight.erase k ∧ (h.ctx c).faulted = false ∧
        h.sget F.HWT_WHEEL_late (s.hub.homeOf c) = min 65535 (s.hub.sget F.HWT_WHEEL_late (s.hub.homeOf c) +
          (if k.expired then 1 else 0))) t ∧ Only wheelRegs s t) ∧
      (Completes (.cmdAbortNotice c q) s fun t => Acts s (fun h =>
        (h.ctx c).inflight = (s.hub.ctx c).inflight.erase k ∧ (h.ctx c).ests = (s.hub.ctx c).ests) t ∧
        Only wheelRegs s t)) ∧
    (∀ n, n < 2 ^ 32 →
      (Completes (.stepBegin c n) s fun t => Acts s (fun h => h.get F.RCV_MARK_state c = 2 ∧
        h.get F.RCV_MARK_step c = n ∧ h.get F.RCV_MARK_mark_error c = s.hub.get F.RCV_MARK_mark_error c) t ∧
        Only (fun r i => r = .RCV_MARK ∧ i = c) s t) ∧
      (Completes (.updateBegin c n) s fun t => Acts s (fun h => h.get F.RCV_MARK_state c = 3 ∧
        h.get F.RCV_MARK_step c = n ∧ (s.hub.get F.RCV_MARK_state c ≠ 2 ∨ s.hub.get F.RCV_MARK_step c ≠ n →
          h.get F.RCV_MARK_mark_error c = 1)) t ∧ Only (fun r i => r = .RCV_MARK ∧ i = c) s t) ∧
      (Completes (.stepEnd c n) s fun t => Acts s (fun h => h.get F.RCV_MARK_state c = 1 ∧
        h.get F.RCV_MARK_step c = n ∧ (s.hub.get F.RCV_MARK_state c < 2 ∨ s.hub.get F.RCV_MARK_step c ≠ n →
          h.get F.RCV_MARK_mark_error c = 1)) t ∧ Only (fun r i => r = .RCV_MARK ∧ i = c) s t))) ∧
  (∀ (s : State) (p : Nat), p < 8 → (∀ e, e ∈ s.hub.ctxs → ∀ k, k ∈ e.2.inflight → k.due = none) →
    Completes (.wheelTick p) s fun t => ActsAt s ((s.hub.node p).tickAt + us 1) (fun h =>
      (h.node p).tickAt = (s.clk.reach ((s.hub.node p).tickAt + us 1)).chipTime ∧
      ∀ c, s.hub.homeOf c = p → (s.hub.ctx c).inflight ≠ [] → (h.ctx c).u = (s.hub.ctx c).u +
        (if (s.hub.ctx c).held || s.hub.heldNow c then 0 else 1)) t ∧ Only (fun _ _ => False) s t) ∧
  (∀ (s : State) (p c q d : Nat) (k : Inflight), p < 8 → c < 2048 → s.hub.homeOf c = p →
    (s.hub.ctx c).inflight.find? (fun y => y.seq = q && y.due.isSome && !y.expired) = some k → k.due = some d →
    Completes (.commandExpiry p c q) s fun t => Acts s (fun h =>
      (h.ctx c).inflight = (s.hub.ctx c).inflight.map (fun y => if y = k then { y with expired := true } else y) ∧
      h.sget F.HWT_EXP_HEAD_expiries p = min (2 ^ 32 - 1) (s.hub.sget F.HWT_EXP_HEAD_expiries p + 1)) t ∧
      Only (fun r _ => TraceReg r ∨ r = .HWT_EXP ∨ r = .HWT_EXP_HEAD) s t) ∧
  (∀ (s : State) (m : Master) (c cls : Nat), c < 2048 → Admits s m 3 →
    (cls ≤ 8 → (Completes (.estSelect m c cls) s fun t => Accepts s m (fun h => (h.master m).estSel = some (c, cls) ∧
        h.ctxs = s.hub.ctxs) t ∧ Only (fun _ _ => False) s t) ∧
      Completes (.estReset m c cls) s fun t => Accepts s m (fun h => (h.master m).estSel = some (c, cls) ∧
        (h.ctx c).est cls = (0, 0)) t ∧ Only (fun _ _ => False) s t) ∧
    (8 < cls → cls < 16 → (Completes (.estSelect m c cls) s (TurnedAway s m .reserved)) ∧
      Completes (.estReset m c cls) s (TurnedAway s m .reserved)))

/-- O39. A report that was lost makes its object STALE. A signal gives the object its value, its producer and its
instant, and ends the fence waits it reaches (at or above the awaited value, assumption 26); the begin of a wait that
is not reached joins the waits, stamped, or past 8,192 shows the overflow, and of one that is reached tracks none; an
end removes its wait. A re-read of a STALE object, after a partition reset once its partition is unfenced, gives it
its value and clears the mark, and leaves it no wait that was not read. A master of level 3 declares an object's kind
and producer and forgets it; of level 2 it reads an object, starts an analysis, or asks for a dump into Hearth
scratch, one further where one is under way. The end of an analysis writes a valid root with its trigger and time, and
counts it; with none wanted nothing changes. (spec/10_hang_watch.md: objects, waits, declarations, analyses) -/
def Obligations.TheWaitForEngineKeepsItsObjects : Prop :=
  (∀ (s : State) (o v eng : Nat), o < 65536 → v < 2 ^ 32 → unitOk eng = true →
    (∀ chip src, src < (if chip = true then 65536 else 2048) →
      (Completes (.syncSignalReport o v chip src eng true) s fun t => Acts s (fun h => (h.obj o).stale = true) t ∧
        Only (fun r _ => r = .WFG_STATUS) s t) ∧
      Completes (.syncSignalReport o v chip src eng false) s fun t => Acts s (fun h => (h.obj o).value = v ∧
        (h.obj o).lastSig = some s.clk.chipTime ∧ (h.obj o).lastBy = some (chip, src) ∧
        ((s.hub.obj o).semaphore = false → ∀ w, w ∈ (h.obj o).waiters → v < w.value)) t) ∧
    (∀ c u, c < 2048 → unitOk u = true →
      (Completes (.waitBeginReport o v c u eng true) s fun t => Acts s (fun h => (h.obj o).stale = true) t ∧
        Only (fun r _ => r = .WFG_STATUS) s t) ∧
      ((s.hub.obj o).semaphore = false → (s.hub.obj o).live = s.hub.obj o → v ≤ (s.hub.obj o).value →
        Completes (.waitBeginReport o v c u eng false) s fun t => Acts s (fun h =>
          (h.obj o).waiters.length = (s.hub.obj o).waiters.length) t) ∧
      (((s.hub.obj o).semaphore = true ∨ (s.hub.obj o).value < v) → (s.hub.obj o).live = s.hub.obj o →
        ((s.hub.modObj o fun x => { x with engine := some eng }).waits.length < 8192 → Completes (.waitBeginReport o v c u eng false) s fun t => Acts s (fun h =>
          (h.obj o).waiters.length = (s.hub.obj o).waiters.length + 1 ∧ ∃ w, w ∈ (h.obj o).waiters ∧ w.ctx = c ∧
            w.unit = u ∧ w.value = v ∧ w.began = s.clk.chipTime) t) ∧
        (8192 ≤ (s.hub.modObj o fun x => { x with engine := some eng }).waits.length →
          Completes (.waitBeginReport o v c u eng false) s fun t => Acts s (fun h =>
          h.get F.WFG_STATUS_overflow = 1 ∧ (h.obj o).waiters.length = (s.hub.obj o).waiters.length) t)) ∧
      (Completes (.waitEndReport o v c u eng true) s fun t => Acts s (fun h => (h.obj o).stale = true) t ∧
        Only (fun r _ => r = .WFG_STATUS) s t) ∧
      Completes (.waitEndReport o v c u eng false) s fun t => Acts s (fun h =>
        ∀ w, w ∈ (h.obj o).waiters → ¬ (w.ctx = c ∧ w.unit = u ∧ w.value = v)) t) ∧
    (∀ ws : List (Nat × Nat × Nat), (∀ e, e ∈ ws → e.1 < 2048 ∧ unitOk e.2.1 = true ∧ e.2.2 < 2 ^ 32) →
      ((s.hub.obj o).stale = true → s.hub.rereadBarred (s.hub.obj o) = false → Completes (.staleReread o v ws) s fun t =>
        Acts s (fun h => (h.obj o).stale = false ∧ (h.obj o).value = v ∧
          ∀ w, w ∈ (h.obj o).waiters → (w.ctx, w.unit, w.value) ∈ ws) t) ∧
      ((s.hub.obj o).stale = false ∨ s.hub.rereadBarred (s.hub.obj o) = true → (s.hub.obj o).live = s.hub.obj o →
        Completes (.staleReread o v ws) s fun t => Acts s (fun h => (h.obj o).value = (s.hub.obj o).value ∧
          (h.obj o).stale = (s.hub.obj o).stale ∧ (h.obj o).waiters.length = (s.hub.obj o).waiters.length) t))) ∧
  (∀ (s : State) (m : Master) (o : Nat), o < 65536 →
    (Admits s m 3 →
      (∀ kind remote n, kind < 4 → n < 65536 →
        (kind ≤ 1 → (remote = true ∨ n < 2048) → Completes (.objDeclare m o kind remote n) s fun t =>
          Accepts s m (fun h => (h.obj o).declared = some (remote, n) ∧ (h.obj o).semaphore = (kind == 1)) t) ∧
        (1 < kind ∨ (remote = false ∧ 2048 ≤ n) →
          Completes (.objDeclare m o kind remote n) s (TurnedAway s m .reserved))) ∧
      Completes (.objForget m o) s fun t => Accepts s m (fun h => (h.obj o).declared = none ∧
        (h.obj o).semaphore = false) t) ∧
    (Admits s m 2 →
      (Completes (.objRead m o) s fun t => Accepts s m (fun h => h.get F.WFG_OBJ_object m.idx = o ∧
        h.get F.WFG_OBJ_VAL_value m.idx = (s.hub.obj o).value % 2 ^ 32 ∧
        h.get F.WFG_OBJ_stale m.idx = b2n (s.hub.obj o).stale ∧
        h.get F.WFG_OBJ_declared m.idx = b2n (s.hub.obj o).declared.isSome) t ∧
        Only (fun r i => (r = .WFG_OBJ ∨ r = .WFG_OBJ_VAL ∨ r = .WFG_OBJ_SIG) ∧ i = m.idx) s t) ∧
      (Completes (.wfgAnalyze m) s fun t => Accepts s m (fun h => h.wfg.wanted.isSome = true ∧
          (s.hub.wfg.wanted = none → h.wfg.wanted = some {}) ∧
          (s.hub.wfg.wanted ≠ none → h.wfg.wanted = s.hub.wfg.wanted ∧ h.wfg.further.isSome = true)) t ∧
        Only (fun _ _ => False) s t) ∧
      (∀ a n, a % 8 = 0 → a < 2 ^ 48 → n < 65536 →
        (inScratch a (32 + 24 * n) = true → Completes (.wfgDump m a n) s fun t =>
          Accepts s m (fun h => (s.hub.wfg.wanted = none → h.wfg.wanted.map Analysis.dumps = some [(a, n)]) ∧
            (s.hub.wfg.wanted ≠ none → h.wfg.wanted = s.hub.wfg.wanted ∧
              h.wfg.further.map Analysis.dumps = some ((s.hub.wfg.further.getD {}).dumps ++ [(a, n)]))) t ∧
          Only (fun _ _ => False) s t) ∧
        (inScratch a (32 + 24 * n) = false → Completes (.wfgDump m a n) s (TurnedAway s m .unmapped))))) ∧
  (∀ s : State, (s.hub.wfg.wanted = none → Completes .wfgAnalysis s fun t => t = s) ∧
    (∀ a, s.hub.wfg.wanted = some a → Completes .wfgAnalysis s fun t => Acts s (fun h => h.wfg.further = none ∧
      h.get F.WFG_ROOT_valid = 1 ∧ h.get F.WFG_ROOT_trigger = a.trigger % 2048 ∧
      h.reg .WFG_ROOT_TIME 0 = BitVec.ofNat 64 s.clk.chipTime ∧
      h.get F.WFG_STATUS_analyses = min 65535 (s.hub.get F.WFG_STATUS_analyses + 1)) t))

/-- O40. For every state, at WAIT_AGE_THRESHOLD each object keeps its value and its waits that are not reached with
their contexts, units, awaited values and begins. A wait no older than orphan_after then is no orphan; an older one of
an object that no context holds has reason SILENT_CHIP when its producer is a remote chip silent for silence_ms, and
none when it has no producer. (spec/10_hang_watch.md: orphans) -/
def Obligations.OrphanWaitsAreJudged : Prop :=
  ∀ (s : State) (o c u : Nat), o < 65536 → c < 2048 → unitOk u = true → Completes (.waitAgeThreshold o c u) s fun t =>
    Acts s (fun h => ∀ k, (h.obj k).value = (s.hub.obj k).value ∧
      ((h.obj k).waiters.map fun w => { w with orphan := 0 }) = ((s.hub.obj k).live.waiters.map fun w => { w with orphan := 0 }) ∧
      ∀ w, w ∈ (h.obj k).waiters →
        let old := decide (us (s.hub.get F.WFG_CFG_orphan_after_us) < s.clk.chipTime - w.began)
        (old = false → w.orphan = 0) ∧
        (old = true → s.hub.holderOf k = none →
          ((s.hub.obj k).producer = none → w.orphan = 0) ∧
          (∀ n, (s.hub.obj k).producer = some (true, n) → ms (s.hub.get F.WFG_CFG_silence_ms) ≤
            s.clk.chipTime - max ((aFind n (s.hub.obj k).chipSig).getD 0) w.began → w.orphan = 6))) t

/-- O41. A write of RCV_CMD by a master of level 3. What bars every operation (RETIRED, or BUSY in a warm reset) ends
in RCV_RESULT; a reserved reason refuses the write. RECOVER and FENCE_ONLY of a lane not IDLE, or whose fence already
waits, end BUSY, CONTINUE and UNFENCE of a lane not HELD end NOT_HELD. In FAILOVER each that its lane admits waits for
the handover. Outside it, with no command, step, halt or tracked wait about and outside Ember: a fence of an IDLE lane
puts it in DRAIN, closes the partition's boundary and fences its RUNNING units; UNFENCE of a HELD lane opens the
boundary again and leaves it IDLE; CONTINUE with no incident capture leads it to HOLD; RETIRE escalates the chip. A
unit reset of a QUENCHED, GATED or RESETTING unit ends HELD, GATED or BUSY; of a RUNNING one it begins, with 100 µs to
end. A retraining starts on a DOWN or FAILED link of a running engine and an IDLE lane, and else ends BUSY or
NOT_HELD. (spec/11_fencing_and_recovery.md: RCV_CMD and its operations) -/
def Obligations.RecoveryCommands : Prop :=
  (∀ (s : State) (m : Master) (p : Nat), Admits s m 3 → p < 8 →
    let ends := fun (i : Instr) (st : Status) => Completes i s fun t =>
      Accepts s m (RcvEnds m st) t ∧ Only (fun r k => r = .RCV_RESULT ∧ k = m.idx) s t
    (∀ reason, 4 < reason → reason < 16 → Completes (.rcvRecover m p reason) s (TurnedAway s m .reserved) ∧
      Completes (.rcvFenceOnly m p reason) s (TurnedAway s m .reserved)) ∧
    (∀ st reason, s.hub.rcvBarred = some st → reason ≤ 4 → ends (.rcvRecover m p reason) st ∧
      ends (.rcvFenceOnly m p reason) st ∧ ends (.rcvContinue m p) st ∧ ends (.rcvUnfence m p) st ∧
      ends (.rcvRetire m) st) ∧
    (∀ reason, s.hub.rcvBarred = none → reason ≤ 4 → s.hub.step p ≠ 0 ∨ s.hub.fenceWaits p = true → ends (.rcvRecover m p reason) .busy ∧
      ends (.rcvFenceOnly m p reason) .busy) ∧
    (s.hub.rcvBarred = none → s.hub.step p ≠ 9 → ends (.rcvContinue m p) .notHeld ∧ ends (.rcvUnfence m p) .notHeld) ∧
    (s.hub.rcvBarred = none → s.hub.Quiet → s.hub.failover = false →
      (∀ reason, reason ≤ 4 → s.hub.step p = 0 → s.hub.get F.HRT_EMBER_STATUS_phase = 0 → s.hub.fenceWaits p = false →
        let fenced := fun (only : Bool) => Accepts s m fun h => RcvEnds m .ok h ∧ h.step p = 2 ∧ h.fenced p = true ∧
          h.sget F.ANV_RCV_STATUS_reason p = reason ∧ (h.lane p).fenceOnly = only ∧
          ∀ u, u ∈ partitionUnits p → s.hub.runState u = .running → h.runState u = .fenced
        Completes (.rcvRecover m p reason) s (fenced false) ∧ Completes (.rcvFenceOnly m p reason) s (fenced true)) ∧
      (s.hub.step p = 9 → Completes (.rcvUnfence m p) s (Accepts s m fun h => RcvEnds m .ok h ∧ h.step p = 0 ∧
        h.fenced p = false ∧ ∀ u, u ∈ partitionUnits p → s.hub.runState u = .fenced → h.runState u = .running)) ∧
      (s.hub.step p = 9 → s.hub.flag F.RCV_CFG_incident_en = false →
        (s.hub.lane p).escalate = none → Completes (.rcvContinue m p) s (Accepts s m fun h =>
          RcvEnds m .ok h ∧ h.step p = 4)) ∧
      Completes (.rcvRetire m) s (Accepts s m fun h => RcvEnds m .ok h ∧ h.retired = true ∧
        h.get F.RCV_STATUS_retire_cause = 5 ∧ ∀ q, q < 8 → h.step q = 10)) ∧
    (s.hub.rcvBarred = none → s.hub.failover = true →
      let waits := fun (i : Instr) (x : LaneMove) => Completes i s fun t =>
        Accepts s m (fun h => RcvEnds m .ok h ∧ h.laneMoves = s.hub.laneMoves ++ [x]) t ∧
        Only (fun r k => r = .RCV_RESULT ∧ k = m.idx) s t
      (∀ reason, reason ≤ 4 → s.hub.step p = 0 → s.hub.fenceWaits p = false →
        waits (.rcvRecover m p reason) (.fence p reason false) ∧ waits (.rcvFenceOnly m p reason) (.fence p reason true)) ∧
      (s.hub.step p = 9 → waits (.rcvContinue m p) (.resume p) ∧ waits (.rcvUnfence m p) (.unfence p)) ∧
      waits (.rcvRetire m) .retire)) ∧
  (∀ (s : State) (m : Master) (u : Nat), Admits s m 3 → u < 65536 → s.hub.Quiet →
    let ends := fun (st : Status) => Completes (.rcvUnitReset m u) s (Accepts s m (RcvEnds m st))
    (unitOk u = false → ends .noUnit) ∧
    (unitOk u = true → s.hub.spokeOn (dieOf u) = true → s.hub.rcvBarred = none →
      (s.hub.runState u = .quenched → ends .held) ∧ (s.hub.runState u = .gated → ends .gated) ∧
      (s.hub.runState u = .resetting → ends .busy) ∧
      (s.hub.runState u = .running → linkOfUnit u = none → Completes (.rcvUnitReset m u) s
        (Accepts s m fun h => h.runState u = .resetting ∧ (h.unit u).resetDue = some (s.clk.chipTime + us 100) ∧
          h.get F.RCV_RESULT_done m.idx = 0 ∧ (h.master m).rcv = some (.unit u))))) ∧
  (∀ (s : State) (m : Master) (l : Nat), Admits s m 3 → l < 65536 →
    (48 ≤ l → Completes (.rcvLinkRetrain m l) s (TurnedAway s m .reserved)) ∧
    (l < 48 → s.hub.rcvBarred = none →
      let down := s.hub.linkState l = 0 ∨ s.hub.linkState l = 5
      let ends := fun (st : Status) => Completes (.rcvLinkRetrain m l) s (Accepts s m (RcvEnds m st))
      (¬ down ∨ s.hub.step (l / 6) ≠ 0 → ends .busy) ∧
      (down → s.hub.step (l / 6) = 0 →
        (s.hub.runState (unitOfLink l) ≠ .running → ends .notHeld) ∧
        (s.hub.runState (unitOfLink l) = .running → Completes (.rcvLinkRetrain m l) s (Accepts s m fun h =>
          h.linkState l = 1 ∧ aFind l h.retrains = some 0 ∧ h.get F.RCV_RESULT_done m.idx = 0 ∧
          (h.master m).rcv = some (.link l))))))

/-- O42. For a partition's lane, with no command, step, halt or tracked wait about and no handover: the end of the
drain shows its two counts and leaves a FENCE_ONLY lane HELD; a stack's confirmation in HOLD is shown, and the second
one, or the limit of HOLD, starts the reset; its release gives 100 µs to the check, and a check that finds every unit
out of reset starts the retraining of four channel groups and six links, each with its first attempt; a first failed
memory training and the first two failed link trainings are retried, and a trained link with nothing to hold it banked
is ACTIVE; a unit that comes out of its reset runs, or is FENCED behind a closed boundary, and one that does not is
UNRESPONSIVE; the end of RESUME opens the boundary and leaves the lane IDLE; the limit over RESET, RETRAIN and RESUME
escalates the chip. An event that its lane does not wait for changes nothing. New work that the lane refuses is
counted and answered FENCED. (spec/11_fencing_and_recovery.md: the steps of a lane) -/
def Obligations.RecoveryLanesAdvance : Prop :=
  (∀ (s : State) (p d : Nat), p < 8 → s.hub.Quiet → s.hub.failover = false → (s.hub.lane p).escalate = none →
    (∀ n (l : List NewWork), s.hub.laneDrainDue p = some d → (s.hub.lane p).fenceOnly = true →
      Completes (.drainEnd p n l) s fun t =>
        ActsAt s d (fun h => h.step p = 9 ∧ h.sget F.ANV_RCV_COUNT_drained_ok p = min 65535 n ∧
          h.sget F.ANV_RCV_COUNT_answered_err p = min 65535 l.length ∧ (h.lane p).drained = true ∧
          h.out = s.hub.out ++ l.map (.fenced p)) t) ∧
    (s.hub.laneHoldDue p = some d → s.hub.partitionQuenched p = false → (s.hub.lane p).asked = true →
      s.hub.resetStarts = [] → 1 < s.hub.get F.RCV_CFG_esc_limit → Completes (.holdTimeout p) s fun t =>
        ActsAt s d (fun h => h.step p = 5 ∧ (h.lane p).release = some ((s.clk.reach d).chipTime + ms 1) ∧
          h.get F.RCV_ESC_in_window = 1 ∧ ∀ u, u ∈ partitionUnits p → s.hub.runState u = .fenced →
            h.runState u = .resetting) t) ∧
    ((s.hub.lane p).release = some d → Completes (.partitionResetRelease p) s fun t =>
      ActsAt s d (fun h => (h.lane p).release = none ∧ (h.lane p).check = some ((s.clk.reach d).chipTime + us 100)) t ∧
      Only (fun _ _ => False) s t) ∧
    ((s.hub.lane p).check = some d → (∀ u, u ∈ partitionUnits p →
        s.hub.runState u ≠ .resetting ∧ s.hub.runState u ≠ .unresponsive) →
      Completes (.partitionResetCheck p) s fun t => ActsAt s d (fun h => h.step p = 6 ∧ (h.lane p).check = none ∧
        (h.lane p).mem = (List.range 4).map (fun k => (4 * p + k, 0)) ∧
        (h.lane p).links = (List.range 6).map (fun k => (6 * p + k, 0)) ∧
        ∀ k, k < 6 → h.linkState (6 * p + k) = 1) t) ∧
    (∀ a b, s.hub.step p = 7 → Completes (.resumeDone p a b) s fun t =>
      Acts s (fun h => h.step p = 0 ∧ h.fenced p = false) t) ∧
    (s.hub.laneLimitDue p = some d → s.hub.retired = false → Completes (.partitionLimitExpiry p) s fun t =>
      ActsAt s d (fun h => h.retired = true ∧ h.get F.RCV_STATUS_retire_cause = 2) t)) ∧
  (∀ (s : State) (p : Nat), p < 8 →
    (∀ n l, s.hub.laneDrainDue p = none → Completes (.drainEnd p n l) s fun t => t = s) ∧
    (s.hub.laneHoldDue p = none → Completes (.holdTimeout p) s fun t => t = s) ∧
    ((s.hub.lane p).release = none → Completes (.partitionResetRelease p) s fun t => t = s) ∧
    (s.hub.laneCheckDue p = none → Completes (.partitionResetCheck p) s fun t => t = s) ∧
    (∀ a b, s.hub.step p ≠ 7 → Completes (.resumeDone p a b) s fun t => t = s) ∧
    (s.hub.laneLimitDue p = none → Completes (.partitionLimitExpiry p) s fun t => t = s) ∧
    (∀ k, (s.hub.refusesWork p k = true → Completes (.fencedNewRequest p k) s fun t =>
        Acts s (fun h => h.out = s.hub.out ++ [.fenced p k] ∧ h.sget F.ANV_RCV_COUNT_refused_new p =
          min 65535 (s.hub.sget F.ANV_RCV_COUNT_refused_new p + 1)) t ∧
        Only (fun r i => r = .ANV_RCV_COUNT ∧ i = spokeInst .ANV_RCV_COUNT p 0) s t) ∧
      (s.hub.refusesWork p k = false → Completes (.fencedNewRequest p k) s fun t => t = s))) ∧
  (∀ (s : State) (x : Nat), x < 16 →
    (s.hub.step (x / 2) ≠ 4 ∨ (s.hub.lane (x / 2)).asked = false → Completes (.selfRefreshConfirm x) s fun t => t = s) ∧
    (s.hub.step (x / 2) = 4 → (s.hub.lane (x / 2)).asked = true →
      let mine := if x % 2 = 0 then F.ANV_RCV_STATUS_sr_a else F.ANV_RCV_STATUS_sr_b
      let other := if x % 2 = 0 then F.ANV_RCV_STATUS_sr_b else F.ANV_RCV_STATUS_sr_a
      (s.hub.failover = true ∨ s.hub.partitionQuenched (x / 2) = true ∨
          (s.hub.sget other (x / 2) = 0 ∧ (s.hub.lane (x / 2)).holdOver = false) →
        s.hub.failover = true ∨ (s.hub.lane (x / 2)).escalate = none → Completes (.selfRefreshConfirm x) s fun t =>
          Acts s (fun h => h.sget mine (x / 2) = 1 ∧ h.step (x / 2) = 4) t ∧
          Only (fun r i => r = .ANV_RCV_STATUS ∧ i = spokeInst .ANV_RCV_STATUS (x / 2) 0) s t) ∧
      (s.hub.failover = false → s.hub.partitionQuenched (x / 2) = false → s.hub.sget other (x / 2) = 1 →
        (s.hub.lane (x / 2)).escalate = none → s.hub.Quiet → s.hub.resetStarts = [] → 1 < s.hub.get F.RCV_CFG_esc_limit →
        Completes (.selfRefreshConfirm x) s fun t => Acts s (fun h => h.step (x / 2) = 5 ∧
          (h.lane (x / 2)).release = some (s.clk.chipTime + ms 1)) t))) ∧
  (∀ (s : State) (g : Nat) (bs : List Byte), g < 32 → s.hub.seq = none → s.hub.step (g / 4) = 6 →
    aFind g (s.hub.lane (g / 4)).mem = some 0 →
    (Completes (.memoryTrainDone g false bs) s fun t =>
      Acts s (fun h => h.step (g / 4) = 6 ∧ (h.lane (g / 4)).mem =
        (s.hub.lane (g / 4)).mem.map fun e => if e.1 = g then (g, 1) else e) t ∧ Only (fun _ _ => False) s t) ∧
    ((s.hub.lane (g / 4)).links ≠ [] → (s.hub.lane (g / 4)).escalate = none →
      Completes (.memoryTrainDone g true bs) s fun t =>
        Acts s (fun h => h.step (g / 4) = 6 ∧ (h.lane (g / 4)).mem =
          (s.hub.lane (g / 4)).mem.filter (fun e => e.1 ≠ g) ∧
          aGet (fun _ => []) h.seeds g = codeSeed bs) t ∧ Only (fun _ _ => False) s t)) ∧
  (∀ (s : State) (l n : Nat), l < 48 → s.hub.seq = none → s.hub.step (l / 6) = 6 →
    aFind l (s.hub.lane (l / 6)).links = some n → n < 2 → (s.hub.lane (l / 6)).escalate = none →
    Completes (.linkTrainDone l false) s fun t =>
      Acts s (fun h => h.step (l / 6) = 6 ∧ (h.lane (l / 6)).links =
        (s.hub.lane (l / 6)).links.map fun e => if e.1 = l then (l, n + 1) else e) t ∧ Only (fun _ _ => False) s t) ∧
  (∀ (s : State) (l n : Nat), l < 48 → s.hub.seq = none → s.hub.step (l / 6) = 6 → s.hub.failover = false →
    aFind l (s.hub.lane (l / 6)).links = some n → (s.hub.lane (l / 6)).escalate = none → s.hub.bankCause l = 0 →
    Completes (.linkTrainDone l true) s fun t => Acts s (fun h => h.linkState l = 2 ∧
      h.step (l / 6) = (if (s.hub.lane (l / 6)).mem = [] ∧ (s.hub.lane (l / 6)).links.filter (fun e => e.1 ≠ l) = []
        then 7 else 6)) t) ∧
  (∀ (s : State) (u d : Nat), unitOk u = true →
    (s.hub.runState u = .resetting → (s.hub.unit u).resetDue = some d →
      (Completes (.unitResetDone u) s fun t => Acts s (fun h => (h.unit u).resetDue = none ∧
        h.runState u = (if s.hub.fenced (nodeOf (dieOf u)) then .fenced else .running)) t) ∧
      Completes (.unitResetTimeout u) s fun t =>
        ActsAt s d (fun h => (h.unit u).resetDue = none ∧ h.runState u = .unresponsive) t) ∧
    ((s.hub.unit u).resetDue = none → (Completes (.unitResetDone u) s fun t => t = s) ∧
      Completes (.unitResetTimeout u) s fun t => t = s))

/-- O43. LGR READ returns an account's total, or ends RESERVED above the last account; OVERHEAD_OPEN opens a commanded
interval on dies without one, CLOSE closes the core's own or ends NOT_HELD, and SEAL closes the open batch and returns
its last sequence, or ends EMPTY or BUSY. A sample boundary shows each sensor's current and voltage. The end of an
interval starts the node's next one with nothing in it; a regulator check starts the next millisecond; an abandoned
transaction of a regulator is counted once. An epoch's close counts it. The signing engine signs the oldest batch into
its slots. The calibration window closes into the solve, and its end gives the solved set. Commanded intervals of 60 s
close. A tag change with a reserved bit set is refused with RESERVED; another waits for its delay, or ends BUSY;
LDG_ACK moves forward only, and LDG_COEF_LOAD loads one set at a time; a read of LDG_ATTR returns its peak and starts
it again. (spec/12_energy_ledger.md: samples, attribution, tags, records, batches, calibration,
spec/03_striker_instruction_set.md: LGR) -/
def Obligations.TheLedgerKeepsItsAccounts : Prop :=
  (∀ (s : State) (c : Nat) (rd rs1 : RegNo), Runs s c → rd ≠ statusReg → s.hub.failover = false →
    let a := (s.hub.gpr c rs1).toNat
    let ovhRegs := fun (r : Reg) (_ : Nat) => r = .LDG_OVH ∨ r = .LDG_OVH_REASON
    (a ≤ 0x802 → 1 ≤ s.hub.coreLevel c → Completes (.lgrRead c rd rs1) s
      (ResultS s c rd (BitVec.ofNat 64 (s.hub.get F.LDG_ACCT_total_mj a)) .ok)) ∧
    (0x802 < a → Completes (.lgrRead c rd rs1) s fun t => EndsS s t c .reserved fun _ _ => False) ∧
    (3 ≤ s.hub.coreLevel c → bits a 0 8 < 16 ∨ bits a 8 24 ≠ 0 ∨ bits a 32 32 = 0 →
      Completes (.lgrOverheadOpen c rs1) s fun t => EndsS s t c .reserved fun _ _ => False) ∧
    (3 ≤ s.hub.coreLevel c → 16 ≤ bits a 0 8 → bits a 8 24 = 0 → bits a 32 32 ≠ 0 →
      (∀ d, d < 32 → bitAt (bits a 32 32) d = true → s.hub.commanded d = false) →
      Completes (.lgrOverheadOpen c rs1) s fun t => EndsS s t c .ok ovhRegs ∧
        ∀ d, d < 32 → bitAt (bits a 32 32) d = true → t.hub.commanded d = true) ∧
    (3 ≤ s.hub.coreLevel c → bits a 0 32 = 0 →
      ((∀ d, d < 32 → bitAt (bits a 32 32) d = true → (s.hub.ovhOf d).any (ownedBy c) = false) →
        Completes (.lgrOverheadClose c rs1) s fun t => EndsS s t c .notHeld fun _ _ => False) ∧
      ((∃ d, d < 32 ∧ bitAt (bits a 32 32) d = true ∧ (s.hub.ovhOf d).any (ownedBy c) = true) →
        Completes (.lgrOverheadClose c rs1) s fun t => EndsS s t c .ok ovhRegs ∧
          ∀ d, d < 32 → bitAt (bits a 32 32) d = true → (t.hub.ovhOf d).any (ownedBy c) = false)) ∧
    (3 ≤ s.hub.coreLevel c →
      (s.hub.ledger.openCount = 0 → Completes (.lgrSeal c rd) s fun t => EndsS s t c .empty fun _ _ => False) ∧
      (s.hub.ledger.openCount ≠ 0 → 64 ≤ s.hub.ledger.pendingBatches.length → Completes (.lgrSeal c rd) s fun t =>
        EndsS s t c .busy fun _ _ => False) ∧
      (s.hub.ledger.openCount ≠ 0 → s.hub.ledger.pendingBatches.length < 64 → s.hub.ledger.rests = false →
        s.hub.wpos + 3 ≤ s.hub.get F.LDG_ACK_apos + 524288 → Completes (.lgrSeal c rd) s fun t =>
          t.hub.gpr c rd = (if rd = 0 then 0 else BitVec.ofNat 64 (s.hub.get F.LDG_SEQ_next_seq - 1)) ∧
          t.hub.gpr c statusReg = 0 ∧ t.hub.ledger.openCount = 0))) ∧
  (∀ (s : State) (ss : List Sample) (rs : List Activity), ss.length = 32 → (∀ r, r ∈ rs → activityOk r = true) →
    let now := (s.clk.reach s.hub.sampleDue).chipTime
    Completes (.sampleBoundary ss rs) s fun t => ActsAt s s.hub.sampleDue (fun h => h.ledger.sampleAt = now ∧
        (∀ n x, ss[n]? = some x →
          h.sget F.LDG_RAIL_SMP_current (sensorRail n).1 (sensorRail n).2 = min 65535 x.charge ∧
          h.sget F.LDG_RAIL_SMP_voltage (sensorRail n).1 (sensorRail n).2 = min 65535 x.volt) ∧
        ∀ ctx tag due, ctx < 2048 → s.hub.ledger.tagDue = [(ctx, (tag, due))] →
          (due ≤ now → h.reg .LDG_CTX_TAG ctx = BitVec.ofNat 64 tag ∧ h.ledger.tagDue = []) ∧
          (now < due → h.reg .LDG_CTX_TAG ctx = s.hub.reg .LDG_CTX_TAG ctx ∧ h.ledger.tagDue = s.hub.ledger.tagDue)) t ∧
      Only (fun r i => r = .LDG_RAIL ∨ r = .LDG_RAIL_SMP ∨ (r = .LDG_ATTR ∧ rs ≠ []) ∨
        (r = .LDG_CTX_TAG ∧ (aFind i s.hub.ledger.tagDue).isSome = true)) s t) ∧
  (∀ (s : State) (p : Nat), p < 8 → Completes (.intervalEnd p) s fun t =>
    ActsAt s (aGet (fun _ => 0) s.hub.ledger.intervalAt p + ms 1) (fun h =>
      (∀ n, nodeOf n = p → h.ledger.rail n = {}) ∧ ∀ k, nodeOf (k / 4096) = p → aFind k h.ledger.rows = none) t ∧
    Only (fun _ _ => False) s t) ∧
  (∀ (s : State) (rs : List PmbReading), rs.length = 8 → (∀ r, r ∈ rs → PmbReading.ok r = true) →
    Completes (.pmbusCheck rs) s fun t => ActsAt s (s.hub.ledger.checkAt + ms 1) (fun h => h.ledger.msEnergy = [] ∧
      h.ledger.checkAt = (s.clk.reach (s.hub.ledger.checkAt + ms 1)).chipTime ∧
      ∀ i, i < 8 → s.hub.flag F.LDG_PMB_MAP_valid i = true →
        Msg.pmbusRead (s.hub.get F.LDG_PMB_MAP_address i) (s.hub.get F.LDG_PMB_MAP_page i)
          (s.hub.flag F.LDG_PMB_MAP_eout i) ∈ h.out) t ∧
    Only (fun r _ => r = .LDG_PMB_STATUS ∨ r = .LDG_PMB_GAIN ∨ r = .LDG_STATUS ∨ r = .HRT_ALERT) s t) ∧
  (∀ (s : State) (i : Nat), i < 8 →
    (s.hub.flag F.LDG_PMB_MAP_valid i = true → (s.hub.pmb i).abandoned = false →
      Completes (.pmbusStretchTimeout i) s fun t => Acts s (fun h => (h.pmb i).abandoned = true ∧
        h.get F.LDG_PMB_STATUS_read_fail = min 65535 (s.hub.get F.LDG_PMB_STATUS_read_fail + 1)) t ∧
        Only (fun r _ => r = .LDG_PMB_STATUS) s t) ∧
    (s.hub.flag F.LDG_PMB_MAP_valid i = false ∨ (s.hub.pmb i).abandoned = true →
      Completes (.pmbusStretchTimeout i) s fun t => t = s)) ∧
  (∀ s : State, Completes .pmbAlert s fun t =>
    Acts s (fun h => h.out = s.hub.out ++ [.alertAddress]) t ∧ Only (fun _ _ => False) s t) ∧
  (∀ s : State, (s.hub.epochDue = none → Completes .epochClose s fun t => t = s) ∧
    ∀ d, s.hub.epochDue = some d → Completes .epochClose s fun t => ActsAt s d (fun h =>
      h.get F.LDG_STATUS_epoch = (s.hub.get F.LDG_STATUS_epoch + 1) % 2 ^ 32) t) ∧
  (∀ s : State, (s.hub.ledgerRests = true → Completes .batchSigned s fun t => t = s) ∧
    (s.hub.ledgerRests = false → s.hub.ledger.owed = [] → (s.hub.ledger.pendingBatches = [] → Completes .batchSigned s fun t => t = s) ∧
      ∀ b rest, s.hub.ledger.pendingBatches = b :: rest → Completes .batchSigned s fun t => Acts s (fun h =>
        h.ledger.lastSigned = b.lastSeq ∧ h.ledger.lastHash = b.lastHash) t ∧
      SameRegs (fun r _ => r = .LDG_STATUS) s t ∧
      SameMemory (fun a => s.hub.slotAddr b.entry ≤ a ∧ a < s.hub.slotAddr b.entry + 256) s t)) ∧
  (∀ s : State, (s.hub.windowOver = false → Completes .calWindowEnd s fun t => t = s) ∧
    (s.hub.windowOver = true → Completes .calWindowEnd s fun t => Acts s (fun h => h.ledger.sums = {} ∧
      h.ledger.windowEpochs = 0 ∧ h.ledger.windowFirst = s.hub.get F.LDG_STATUS_epoch ∧
      (s.hub.flag F.LDG_CFG_cal_en = true → h.ledger.solving =
        some (s.hub.ledger.sums, s.hub.ledger.windowFirst, s.hub.get F.LDG_STATUS_epoch - 1))) t ∧
      Only (fun _ _ => False) s t) ∧
    (s.hub.ledger.solving = none → Completes .calSolveDone s fun t => t = s) ∧
    (∀ x a b, s.hub.ledger.solving = some (x, a, b) → Completes .calSolveDone s fun t => Acts s (fun h =>
      h.ledger.solving = none ∧ h.ledger.solved = some (s.hub.solve x a b)) t ∧ Only (fun _ _ => False) s t)) ∧
  (∀ (s : State) (d : Nat), d < 32 → (s.hub.ovhDue d = none → Completes (.overheadLimit d) s fun t => t = s) ∧
    (∀ e, s.hub.ovhDue d = some e → Completes (.overheadLimit d) s fun t => ActsAt s e (fun h =>
      ∀ x, x ∈ h.ovhOf d → x.owner.isSome = true → (s.clk.reach e).chipTime < x.due) t ∧
      Only (fun r _ => r = .LDG_OVH ∨ r = .LDG_OVH_REASON) s t)) ∧
  (∀ (s : State) (m : Master),
    (∀ ctx delay, Admits s m 3 → ctx < 2 ^ 16 → delay < 2 ^ 48 → 2048 ≤ ctx ∨ 2 ^ 32 ≤ delay →
      Completes (.ldgTagCmd m ctx delay) s (TurnedAway s m .reserved)) ∧
    (∀ ctx delay, Admits s m 3 → ctx < 2048 → delay < 2 ^ 32 →
      let full := (aFind ctx s.hub.ledger.tagDue).isSome = true ∨ 4096 ≤ s.hub.ledger.closed.length
      (full → Completes (.ldgTagCmd m ctx delay) s fun t =>
        Accepts s m (fun h => h.get F.LDG_TAG_RESULT_status m.idx = Status.busy.code) t ∧
        Only (fun r k => r = .LDG_TAG_RESULT ∧ k = m.idx) s t) ∧
      (¬ full → Completes (.ldgTagCmd m ctx delay) s fun t => Accepts s m (fun h =>
          h.get F.LDG_TAG_RESULT_status m.idx = 0 ∧ aFind ctx h.ledger.tagDue =
            some (s.hub.get F.LDG_TAG_VAL_tag m.idx, s.clk.chipTime + delay)) t ∧
        Only (fun r k => r = .LDG_TAG_RESULT ∧ k = m.idx) s t)) ∧
    (∀ apos : Word, Admits s m 1 →
      let bad := apos.toNat < s.hub.get F.LDG_ACK_apos ∨ s.hub.wpos < apos.toNat ∨
        ∃ b, b ∈ s.hub.ledger.pendingBatches ∧ b.entry < apos.toNat ∧ apos.toNat < b.stop
      (bad → Completes (.ldgAckWrite m apos) s (TurnedAway s m .reserved)) ∧
      (¬ bad → Completes (.ldgAckWrite m apos) s fun t => Accepts s m (fun h => h.reg .LDG_ACK 0 = apos) t ∧
        Only (fun r _ => r = .LDG_ACK ∨ r = .LDG_STATUS) s t)) ∧
    (∀ (addr : Nat) (seed : Bool), Admits s m 3 → addr < 2 ^ 48 →
      (∀ st, s.hub.coefRefusal addr seed = some st → Completes (.ldgCoefLoad m addr seed) s (TurnedAway s m st)) ∧
      (s.hub.coefRefusal addr seed = none → s.hub.ledger.loaded.isSome = true →
        Completes (.ldgCoefLoad m addr seed) s (TurnedAway s m .busy)) ∧
      (s.hub.coefRefusal addr seed = none → s.hub.ledger.loaded = none → Completes (.ldgCoefLoad m addr seed) s fun t =>
        Accepts s m (fun h => h.get F.LDG_COEF_LOAD_pending = 1 ∧ h.ledger.loaded = some { values :=
          (if seed then s.hub.ledger.seedCoefs else
            (List.range 72).map fun j => s.hub.rd (addr + 8 + 4 * j) 4) }) t ∧
        Only (fun r _ => r = .LDG_COEF_LOAD) s t)) ∧
    (∀ p, m.ok = true → 1 ≤ s.hub.levelOf m → p < 8 → s.hub.spokeOn p = true → Completes (.attrPeakRead m p) s fun t =>
      Accepts s m (fun h => (h.master m).rdata = s.hub.reg .LDG_ATTR (spokeInst .LDG_ATTR p 0) ∧
        h.sget F.LDG_ATTR_rows_peak p = s.hub.ledger.rowsOf p % 2 ^ 14) t ∧
      Only (fun r k => r = .LDG_ATTR ∧ k = spokeInst .LDG_ATTR p 0) s t))

/-- O44. A lost heartbeat with automatic takeover enabled starts a takeover with a ready standby, and raises the alert
without one; disabled, in a takeover, or with the hub unpowered, it changes nothing. FAILOVER and RESTANDBY are
refused without a ready standby, in BOOT or in a takeover, and else start. The mirror's drain fixes H. At H, with no
core waiting for the Hearth, no lane under way and nothing held back, the other Hearth is active, the takeover is
over, H is shown and the old Hearth has 1 s. A synchronised standby is ready; a peer that is not ready at its limit
has failed, with the alert. (spec/13_transactions_and_live_update.md: failover, the standby's return) -/
def Obligations.TheHearthIsHandedOver : Prop :=
  (∀ s : State, (s.hub.powered = false ∨ s.hub.get F.HRT_FO_CFG_auto_en = 0 ∨ s.hub.failover = true →
      Completes .heartbeatLoss s fun t => t = s) ∧
    (s.hub.powered = true → s.hub.get F.HRT_FO_CFG_auto_en = 1 → s.hub.failover = false →
      (s.hub.flag F.HRT_STATE_standby_ready = false → Completes .heartbeatLoss s fun t =>
        Acts s (fun h => bitAt (h.get F.HRT_ALERT_cause) 3 = true) t ∧ Only (fun r _ => r = .HRT_ALERT) s t) ∧
      (s.hub.flag F.HRT_STATE_standby_ready = true → Completes .heartbeatLoss s fun t =>
        Acts s (fun h => h.failover = true ∧ h.failoverAt = s.clk.chipTime ∧ h.get F.HRT_FO_STATUS_phase = 1 ∧
          h.get F.HRT_FO_STATUS_last_cause = 1) t))) ∧
  (∀ (s : State) (m : Master), Admits s m 3 →
    (s.hub.flag F.HRT_STATE_standby_ready = false → Completes (.failover m) s (TurnedAway s m .notHeld)) ∧
    (s.hub.flag F.HRT_STATE_standby_ready = true →
      (s.hub.booting = true ∨ s.hub.failover = true → Completes (.failover m) s (TurnedAway s m .busy)) ∧
      (s.hub.booting = false → s.hub.failover = false → Completes (.failover m) s (Accepts s m fun h =>
        h.failover = true ∧ h.failoverAt = s.clk.chipTime ∧ h.get F.HRT_FO_STATUS_phase = 1 ∧
        h.get F.HRT_FO_STATUS_last_cause = 3))) ∧
    (s.hub.failover = true → Completes (.restandby m) s (TurnedAway s m .busy)) ∧
    (s.hub.failover = false → Completes (.restandby m) s (Accepts s m fun h => h.fail.restandby = true ∧
      h.get F.HRT_FO_STATUS_phase = 3 ∧ h.flag F.HRT_STATE_standby_ready = false))) ∧
  (∀ s : State, (s.hub.failover = false ∨ s.hub.get F.HRT_FO_STATUS_phase ≠ 1 →
      Completes .mirrorDrainDone s fun t => t = s) ∧
    (s.hub.failover = true → s.hub.get F.HRT_FO_STATUS_phase = 1 → Completes .mirrorDrainDone s fun t =>
      Acts s (fun h => h.get F.HRT_FO_STATUS_phase = 2 ∧
        h.fail.handover = some (s.clk.chipTime + us (s.hub.get F.HRT_FO_CFG_lead_us))) t ∧
      Only (fun r _ => r = .HRT_FO_STATUS) s t)) ∧
  (∀ s : State, (s.hub.handoverDue = none → Completes .handoverInstant s fun t => t = s) ∧
    ∀ d, s.hub.handoverDue = some d → (∀ c op, (s.hub.core c).wait ≠ .hearth op) → s.hub.lanes = [] →
      (∀ p, p < 8 → s.hub.step p = 0) → s.hub.heldNotices = [] → s.hub.heldEvents = [] → s.hub.heldJobs = [] →
      Completes .handoverInstant s fun t => ActsAt s d (fun h => h.failover = false ∧
        h.hearthDie = s.hub.standbyDie ∧ h.get F.HRT_FO_STATUS_phase = 3 ∧ h.load = none ∧
        h.reg .HRT_FO_TIME 0 = BitVec.ofNat 64 (s.clk.reach d).chipTime ∧
        h.fail.peerDue = some ((s.clk.reach d).chipTime + secs 1)) t) ∧
  (∀ s : State,
    let out := s.hub.failover = true ∨ s.hub.booting = true ∨ s.hub.flag F.HRT_STATE_standby_ready = true ∨
      s.hub.standbyHealthy = false ∨ (s.hub.flag F.HRT_FO_STATUS_peer_failed = true ∧ s.hub.fail.restandby = false)
    (out → Completes .standbySyncDone s fun t => t = s) ∧
    (¬ out → Completes .standbySyncDone s fun t => Acts s (fun h => h.flag F.HRT_STATE_standby_ready = true ∧
      h.get F.HRT_FO_STATUS_phase = 0 ∧ h.flag F.HRT_FO_STATUS_peer_failed = false) t)) ∧
  (∀ s : State, (s.hub.fail.peerDue = none → Completes .peerReadyTimeout s fun t => t = s) ∧
    ∀ d, s.hub.fail.peerDue = some d → Completes .peerReadyTimeout s fun t => ActsAt s d (fun h =>
      h.fail.peerDue = none ∧ h.flag F.HRT_FO_STATUS_peer_failed = true ∧ h.get F.HRT_FO_STATUS_phase = 0 ∧
      bitAt (h.get F.HRT_ALERT_cause) 4 = true) t ∧ Only (fun r _ => r = .HRT_FO_STATUS ∨ r = .HRT_ALERT) s t)

/-- O45. ERASE, WRITE, VERIFY and ACTIVATE: a bad range refuses the write, an operation in progress refuses it BUSY,
the booted slot ends BUSY but for VERIFY, an ACTIVATE of a slot not verified ends NOT_HELD, and else the operation is
in progress. An ERASE ends with its range reading 0xFF and the slot not verified, a WRITE with nothing else of memory
changed, a VERIFY with the slot verified as its checks found it, an ACTIVATE with the slot selected. A map-out or
map-in is refused BUSY while one runs, ends with what stands against it, or is in progress; it ends OK, NO_SPACE or
UNRESPONSIVE. A recalibration needs a locked PLL and none in progress, and each measurement sets its spoke's trim. An
end with nothing in progress changes nothing. (spec/13_transactions_and_live_update.md: the update engine, map-out and
map-in, recalibration) -/
def Obligations.LiveUpdateMapOutAndRecalibration : Prop :=
  (∀ (s : State) (m : Master) (slot off len : Nat), Admits s m 3 → slot < 2 → off < 2 ^ 24 → len < 2 ^ 24 →
    let runs := fun (x : UpdX) (does : (State → Prop) → Prop) =>
      (∀ st, (cmdUpdate x).pre s.hub = some st → does (TurnedAway s m st)) ∧
      ((cmdUpdate x).pre s.hub = none →
        (s.hub.upd.isSome = true → does (TurnedAway s m .busy)) ∧
        (s.hub.upd = none →
          let booted := x.op ≠ 2 ∧ s.hub.boot.slot = some x.slot
          let early := x.op = 3 ∧ s.hub.flag (verifiedFld x.slot) = false
          let ends := fun (st : Status) => does fun t => Accepts s m (fun h =>
            h.get F.HRT_UPD_STATUS_status = st.code ∧ h.get F.HRT_UPD_STATUS_busy = 0) t ∧
            Only (fun r _ => r = .HRT_UPD_STATUS) s t
          (booted → ends .busy) ∧ (¬ booted → early → ends .notHeld) ∧
          (¬ booted → ¬ early → does fun t => Accepts s m (fun h => h.get F.HRT_UPD_STATUS_busy = 1 ∧
            h.upd = some { x with src := s.hub.get F.HRT_UPD_SRC_addr }) t ∧
            Only (fun r _ => r = .HRT_UPD_STATUS) s t)))
    let op := fun (n o l : Nat) => UpdX.mk n slot (o * 256) (l * 256) 0
    runs (op 0 off len) (fun p => Completes (.updErase m slot off len) s p) ∧
    runs (op 1 off len) (fun p => Completes (.updWrite m slot off len) s p) ∧
    runs (op 2 0 0) (fun p => Completes (.updVerify m slot) s p) ∧
    runs (op 3 0 0) (fun p => Completes (.updActivate m slot) s p)) ∧
  (∀ s : State, (s.hub.upd = none → Completes .updOpDone s fun t => t = s) ∧
    ∀ x, s.hub.upd = some x → x.slot < 2 → x.offset + x.length ≤ slotSize →
      let a := slotBase x.slot + x.offset
      let ended := fun (h : Hub) => h.upd = none ∧ h.get F.HRT_UPD_STATUS_busy = 0
      (x.op = 0 → Completes .updOpDone s fun t => Acts s (fun h => ended h ∧ h.get F.HRT_UPD_STATUS_status = 0 ∧
          h.flag (verifiedFld x.slot) = false ∧ ∀ b, a ≤ b → b < a + x.length → h.byte b = 0xFF) t ∧
        SameMemory (fun b => a ≤ b ∧ b < a + x.length) s t) ∧
      (x.op = 1 → Completes .updOpDone s fun t => Acts s (fun h => ended h ∧ h.get F.HRT_UPD_STATUS_status = 0 ∧
          h.flag (verifiedFld x.slot) = false) t ∧ SameMemory (fun b => a ≤ b ∧ b < a + x.length) s t) ∧
      (x.op = 2 → Completes .updOpDone s fun t => Acts s (fun h => ended h ∧
          h.flag (verifiedFld x.slot) = (s.hub.verifySlot x.slot == 0) ∧
          (s.hub.verifySlot x.slot = 0 → h.get F.HRT_UPD_STATUS_status = 0)) t ∧ SameMemory (fun _ => False) s t) ∧
      (x.op = 3 → Completes .updOpDone s fun t => Acts s (fun h => ended h ∧ h.get F.HRT_UPD_STATUS_status = 0 ∧
          h.get F.HRT_UPD_STATUS_next_slot = x.slot) t)) ∧
  (∀ (s : State) (m : Master) (g : Nat), Admits s m 3 → g < 64 →
    (s.hub.mapOp.isSome = true → Completes (.mapOut m g) s (TurnedAway s m .busy) ∧
      Completes (.mapIn m g) s (TurnedAway s m .busy)) ∧
    (s.hub.mapOp = none →
      (∀ st, s.hub.mapOutRefusal (g / 8) (g % 8) = some st → Completes (.mapOut m g) s fun t =>
        Accepts s m (fun h => h.mapOp = none ∧ h.get F.CRU_MAPOUT_STATUS_status = st.code ∧
          h.get F.CRU_MAPOUT_STATUS_busy = 0) t ∧ Only (fun r _ => r = .CRU_MAPOUT_STATUS) s t) ∧
      (s.hub.mapOutRefusal (g / 8) (g % 8) = none → Completes (.mapOut m g) s fun t =>
        Accepts s m (fun h => h.mapOp = some (MapX.mk false g) ∧ h.get F.CRU_MAPOUT_STATUS_busy = 1) t ∧
        Only (fun r _ => r = .CRU_MAPOUT_STATUS ∨ r = .CRU_GROUPS) s t) ∧
      Completes (.mapIn m g) s fun t =>
        Accepts s m (fun h => h.mapOp = some (MapX.mk true g) ∧ h.get F.CRU_MAPOUT_STATUS_busy = 1) t ∧
        Only (fun r _ => r = .CRU_MAPOUT_STATUS) s t)) ∧
  (∀ (s : State) (bs : List (Nat × Nat × Nat)) (ls : List Nat),
    let ended := fun (st : Status) (h : Hub) => h.mapOp = none ∧ h.get F.CRU_MAPOUT_STATUS_status = st.code ∧
      h.get F.CRU_MAPOUT_STATUS_busy = 0
    (s.hub.mapOp = none → (Completes (.mapoutCopyDone bs ls) s fun t => t = s) ∧
      ∀ ok, Completes (.mapInTestDone ok) s fun t => t = s) ∧
    (∀ g, s.hub.mapOp = some (MapX.mk false g) →
      (s.hub.groupInUse g = true → Completes (.mapoutCopyDone bs ls) s fun t => t = s) ∧
      (s.hub.groupInUse g = false → s.hub.mapPlan (g / 8) (g % 8) = none → Completes (.mapoutCopyDone bs ls) s fun t =>
        Acts s (ended .noSpace) t ∧ Only (fun r _ => r = .CRU_MAPOUT_STATUS ∨ r = .CRU_GROUPS) s t) ∧
      (s.hub.groupInUse g = false → s.hub.mapPlan (g / 8) (g % 8) ≠ none → Completes (.mapoutCopyDone bs ls) s fun t =>
        Acts s (fun h => ended .ok h ∧ h.get F.CRU_MAPOUT_STATUS_unreadable = min 65535 bs.length) t)) ∧
    (∀ g, s.hub.mapOp = some (MapX.mk true g) → g < 64 →
      (Completes (.mapInTestDone false) s fun t => Acts s (ended .unresponsive) t ∧
        Only (fun r _ => r = .CRU_MAPOUT_STATUS) s t) ∧
      Completes (.mapInTestDone true) s fun t => Acts s (fun h => ended .ok h ∧
        bitAt (h.get F.CRU_GROUPS_mapped_in) g = true ∧ h.domainOn g = true) t ∧ SameMemory (fun _ => False) s t)) ∧
  (∀ (s : State) (m : Master) (n : Nat) (all : Bool), Admits s m 3 → n < 32 →
    (s.hub.recal ≠ [] → Completes (.timRecal m n all) s (TurnedAway s m .busy)) ∧
    (s.hub.recal = [] → s.hub.flag F.TIM_STATUS_pll_locked = false →
      Completes (.timRecal m n all) s (TurnedAway s m .notHeld)) ∧
    (s.hub.recal = [] → s.hub.flag F.TIM_STATUS_pll_locked = true → Completes (.timRecal m n all) s fun t =>
      Accepts s m (fun h => h.recal = (if all then List.range 32 else [n]) ∧ h.get F.TIM_RECAL_busy = 1) t ∧
      Only (fun r _ => r = .TIM_RECAL) s t)) ∧
  (∀ (s : State) (n : Nat) (half : Int), n < 32 →
    ((∀ rest, s.hub.recal ≠ n :: rest) → Completes (.recalMeasureDone n half) s fun t => t = s) ∧
    ∀ rest, s.hub.recal = n :: rest → Completes (.recalMeasureDone n half) s fun t => Acts s (fun h =>
        h.recal = rest ∧ h.flag F.TIM_RECAL_busy = !rest.isEmpty ∧
        h.get F.TIM_TRIM_measured n = unsignedOf 12 half ∧ h.get F.TIM_TRIM_trim n = unsignedOf 12 half) t ∧
      Only (fun r i => (r = .TIM_TRIM ∧ i = n) ∨ r = .TIM_RECAL) s t)

/-- O46. A master of level 3 that is not the owner of an attached core is refused NOT_OWNER. Attaching to a free core
makes the master its owner; the owner's detach frees it, and a HALTED core then runs. The owner's halt halts a core
that is RUNNING between instructions; its resume and its step let a HALTED core run, past a BREAK or into the handler
of a WATCHDOG that was held off, the step with its count; a core that is not HALTED answers NOT_HELD, and a step of no
instructions is refused. A debugger's LDATA write stores 8 bytes at its address in local memory and a read returns
them, unless the address lies outside, the core's domain is off or the core is in reset. TRST_N detaches every core,
lets the halted run, and resets the TAP. (spec/14_hub_self_debug.md: the debugger, spec/15_external_ports.md: JTAG) -/
def Obligations.DebuggersControlCores : Prop :=
  (∀ (s : State) (m : Master) (c : Nat), Admits s m 3 → coreOk c = true → bits (s.hub.dbgCtl c) 1 3 = 0 →
    (s.hub.attached c = true → s.hub.debugOwner c m = false →
      Completes (.dbgAttach m c) s (TurnedAway s m .notOwner) ∧ Completes (.dbgDetach m c) s (TurnedAway s m .notOwner) ∧
      Completes (.dbgHalt m c) s (TurnedAway s m .notOwner) ∧ Completes (.dbgResume m c) s (TurnedAway s m .notOwner) ∧
      ∀ n, 0 < n → n < 65536 → Completes (.dbgStep m c n) s (TurnedAway s m .notOwner)) ∧
    (s.hub.attached c = false → Completes (.dbgAttach m c) s fun t =>
      Accepts s m (fun h => h.debugOwner c m = true ∧ h.coreState c = s.hub.coreState c) t ∧
      Only (fun r i => (r = .STK_DBG_CTL ∨ r = .STK_DBG_STATUS) ∧ i = coreIdx c) s t) ∧
    Completes (.dbgStep m c 0) s (TurnedAway s m .reserved) ∧
    (s.hub.debugOwner c m = true →
      (Completes (.dbgDetach m c) s fun t => Accepts s m (fun h => h.attached c = false ∧
        h.coreState c = if s.hub.coreState c = 1 then 0 else s.hub.coreState c) t ∧
        Only (fun r _ => CoreReg r ∨ r = .STK_DBG_CTL) s t) ∧
      (s.hub.coreState c = 0 → (s.hub.core c).wait = .idle → Completes (.dbgHalt m c) s (Accepts s m fun h =>
        h.coreState c = 1 ∧ h.cget F.STK_DBG_STATUS_cause c = 1 ∧ h.attached c = true)) ∧
      (s.hub.coreState c ≠ 1 →
        (Completes (.dbgResume m c) s (TurnedAway s m .notHeld)) ∧
        ∀ n, 0 < n → n < 65536 → Completes (.dbgStep m c n) s (TurnedAway s m .notHeld)) ∧
      (s.hub.coreState c = 1 →
        let runs := fun (n : Nat) (h : Hub) => h.coreState c = 0 ∧ h.cget F.STK_DBG_STATUS_steps_left c = n ∧
          h.pc c = if (s.hub.core c).wdogRaised = true ∧ s.hub.cget F.STK_CAUSE_active c = 0 then
            BitVec.ofNat 64 (s.hub.cget F.STK_EVEC_vector c * 4)
          else if s.hub.cget F.STK_DBG_STATUS_cause c = 2 then s.hub.pc c + 4 else s.hub.pc c
        (Completes (.dbgResume m c) s (Accepts s m (runs 0))) ∧
        ∀ n, 0 < n → n < 65536 → Completes (.dbgStep m c n) s (Accepts s m (runs n))))) ∧
  (∀ (s : State) (m : Master) (c : Nat), coreOk c = true →
    let word := fun a => s.hub.ldataAt c ≤ a ∧ a < s.hub.ldataAt c + 8
    (∀ v : Word, Admits s m 3 →
      (∀ st, s.hub.ldataRefusal c = some st ∨ (s.hub.ldataRefusal c = none ∧ s.hub.ldataState c = some st) →
        Completes (.dbgLdataAccess m c (some v)) s (TurnedAway s m st)) ∧
      (s.hub.ldataRefusal c = none → s.hub.ldataState c = none → Completes (.dbgLdataAccess m c (some v)) s fun t =>
        Accepts s m (fun h => h.rd (s.hub.ldataAt c) 8 = v.toNat) t ∧ SameMemory word s t ∧
        SameRegs (fun r i => r = .STK_DBG_LADDR ∧ i = coreIdx c) s t)) ∧
    (m.ok = true → 2 ≤ s.hub.levelOf m → s.hub.ldataRefusal c = none → s.hub.ldataState c = none →
      Completes (.dbgLdataAccess m c none) s fun t =>
        Accepts s m (fun h => (h.master m).rdata = BitVec.ofNat 64 (s.hub.rd (s.hub.ldataAt c) 8)) t ∧
        Only (fun r i => r = .STK_DBG_LADDR ∧ i = coreIdx c) s t)) ∧
  (∀ s : State, Completes .trst s fun t => Acts s (fun h => h.tap = {} ∧ ∀ c, coreOk c = true →
    h.attached c = false ∧ (s.hub.coreState c = 1 → h.coreState c = 0)) t)

/-- O47. In BOOT, MCTP and I3C requests change nothing. Outside it, each MCTP control command is answered with its
code and body, an ID that cannot be assigned or an unknown command with its error, and a message of another type is
discarded; each common command code sets its part of the I3C target or is answered. A mailbox request is submitted, or
answered BUSY while one is out, and a hub that failed to boot takes none; the release of ready clears it. An
unanswered request for a chip warm reset is repeated every 100 ms. The TAP takes its instruction; IDCODE is shifted
out; the mailbox takes its word; a segment opens for a session of level 3 unless a capture needs it. A write of
HRT_ALERT clears the causes written as 1 whose condition has gone. (spec/15_external_ports.md: MCTP, I3C, the host
mailbox, JTAG, HUB_ALERT_N) -/
def Obligations.PortsAnswer : Prop :=
  (∀ (s : State) (tr : McTransport), s.hub.booting = false →
    let keeps := Only (fun _ _ => False) s
    let answers := fun (t : State) (msg : Msg) => Acts s (fun h => h.out = s.hub.out ++ (match msg with
      | .mctp tr _ _ _ => s.hub.interrupts (tr == .i3c)
      | _ => []) ++ [msg]) t ∧ keeps t
    let quiet := fun (t : State) (p : I3cX → Prop) => Acts s (fun h => h.out = s.hub.out ∧ p h.i3c) t ∧ keeps t
    (∀ e, 0 < e → e < 255 → Completes (.setEndpointId tr e) s fun t =>
      answers t (.mctp tr 0x01 0 [0, BitVec.ofNat 8 e, 0]) ∧ (t.hub.endpoint (trIdx tr)).eid = e) ∧
    (∀ e, e = 0 ∨ e = 255 → Completes (.setEndpointId tr e) s fun t => answers t (.mctp tr 0x01 0x02 [])) ∧
    (Completes (.getEndpointId tr) s fun t =>
      answers t (.mctp tr 0x02 0 [BitVec.ofNat 8 (s.hub.endpoint (trIdx tr)).eid, 0, 0])) ∧
    (Completes (.getEndpointUuid tr) s fun t => answers t (.mctp tr 0x03 0 Config.mctpUuid)) ∧
    (Completes (.getMctpVersionSupport tr) s fun t => answers t (.mctp tr 0x04 0 Config.mctpVersions)) ∧
    (Completes (.getMessageTypeSupport tr) s fun t => answers t (.mctp tr 0x05 0 [4, 0x00, 0x05, 0x06, 0x7F])) ∧
    (Completes (.getVendorDefinedMessageSupport tr) s fun t => answers t (.mctp tr 0x06 0 Config.vendorSupport)) ∧
    (Completes .prepareForEndpointDiscovery s fun t => answers t (.mctp .pcie 0x0B 0 []) ∧
      (t.hub.endpoint 1).discovered = false) ∧
    ((s.hub.endpoint 1).discovered = false → Completes .endpointDiscovery s fun t => answers t (.mctp .pcie 0x0C 0 [])) ∧
    ((s.hub.endpoint 1).discovered = true → Completes .endpointDiscovery s fun t => t = s) ∧
    (∀ k, (controlCodes tr).contains k = false → Completes (.mctpUnsupportedCmd tr k) s fun t =>
      answers t (.mctp tr k 5 [])) ∧
    (∀ ty, [0x00, 0x05, 0x06, 0x7F].contains ty = false → Completes (.mctpDiscard tr ty) s fun t => t = s) ∧
    (∀ a, a < 128 → Completes (.entdaa a) s fun t => quiet t fun x => x.addr = some a) ∧
    (Completes .rstdaa s fun t => quiet t fun x => x.addr = none) ∧
    (∀ e : Byte, (Completes (.enec e) s fun t => quiet t fun x => x.events = s.hub.i3c.events ||| e.toNat) ∧
      Completes (.disec e) s fun t => quiet t fun x => x.events = s.hub.i3c.events &&& (255 - e.toNat)) ∧
    (∀ n, n < 65536 → (Completes (.setmrl n) s fun t => quiet t fun x => x.mrl = n) ∧
      Completes (.setmwl n) s fun t => quiet t fun x => x.mwl = n) ∧
    (Completes .getpid s fun t => answers t (.i3c 0x8D (Config.i3cIdentity 0x8D))) ∧
    (Completes .getbcr s fun t => answers t (.i3c 0x8E (Config.i3cIdentity 0x8E))) ∧
    (Completes .getdcr s fun t => answers t (.i3c 0x8F (Config.i3cIdentity 0x8F))) ∧
    (Completes .getstatus s fun t => ∃ n, answers t (.i3c 0x90 (bytesLE 2 n))) ∧
    (Completes .getmrl s fun t => answers t (.i3c 0x8C (bytesLE 2 s.hub.i3c.mrl))) ∧
    (Completes .getmwl s fun t => answers t (.i3c 0x8B (bytesLE 2 s.hub.i3c.mwl)))) ∧
  (∀ (s : State) (tr : McTransport), s.hub.booting = true → (Completes (.getEndpointId tr) s fun t => t = s) ∧
    Completes .getmrl s fun t => t = s) ∧
  (∀ (s : State) (k n : Nat), k < 16 →
    (s.hub.boot.failed = true → Completes (.reqDoorbell k n) s fun t => t = s) ∧
    (s.hub.boot.failed = false → Completes (.reqDoorbell k n) s fun t => Acts s (fun h =>
      if (s.hub.mailbox k).asked = true ∨ (s.hub.mailbox k).rspReady = true then
        (h.mailbox k).rspStatus = Status.busy.code ∧ (h.mailbox k).asked = (s.hub.mailbox k).asked
      else (h.mailbox k).asked = true ∧ (h.mailbox k).rspStatus = 0) t ∧ Only (fun _ _ => False) s t) ∧
    Completes (.rspReadyRelease k) s fun t => Acts s (fun h => (h.mailbox k).rspReady = false) t ∧
      Only (fun _ _ => False) s t) ∧
  (∀ s : State, (s.hub.warmReq = none → Completes .warmResetRequestRepeat s fun t => t = s) ∧
    ∀ d, s.hub.warmReq = some d → Completes .warmResetRequestRepeat s fun t => ActsAt s d (fun h =>
      h.warmReq = some ((s.clk.reach d).chipTime + ms 100)) t) ∧
  (∀ s : State, (Completes .jtagIdcode s fun t => Acts s (fun h => h.tap.ir = 0x01 ∧
      h.out = s.hub.out ++ [.jtag (bytesLE 4 Config.jtagIdcode)]) t ∧ Only (fun _ _ => False) s t) ∧
    (Completes .jtagIjtag s fun t => Acts s (fun h => h.tap.ir = 0x20 ∧ h.out = s.hub.out) t ∧
      Only (fun _ _ => False) s t) ∧
    (∀ w, Completes (.jtagMbox w) s fun t => Acts s (fun h => h.tap.ir = 0x21 ∧
      (h.vlink 1).words = (s.hub.vlink 1).words ++ [w]) t ∧ Only (fun _ _ => False) s t) ∧
    ∀ k : Byte, [0x01, 0x20, 0x21].contains k.toNat = false → Completes (.jtagBypass k) s fun t =>
      Acts s (fun h => h.tap.ir = k ∧ h.out = s.hub.out) t ∧ Only (fun _ _ => False) s t) ∧
  (∀ (s : State) (n d k : Nat), n < 20 → d < 32 → k < 64 → s.hub.flag F.AUT_SESS_open n = true →
    3 ≤ s.hub.get F.AUT_SESS_level n →
    (s.hub.scanSegments.contains (d * 64 + k) = true → Completes (.sibOpen n d k) s fun t => t = s) ∧
    (s.hub.scanSegments.contains (d * 64 + k) = false → Completes (.sibOpen n d k) s fun t =>
      Acts s (fun h => h.tap.sibs.contains (d * 64 + k) = true) t ∧ Only (fun _ _ => False) s t)) ∧
  (∀ (s : State) (m : Master) (mask : Byte), Admits s m 3 → Completes (.alertClear m mask) s fun t =>
    Accepts s m (fun h => ∀ k, k < 8 → bitAt (h.get F.HRT_ALERT_cause) k =
      (bitAt (s.hub.get F.HRT_ALERT_cause) k && (!bitAt mask.toNat k || bitAt s.hub.alertsHolding k))) t ∧
    Only (fun r _ => r = .HRT_ALERT) s t)

/-- O48. (The order of requests and the errors outside it are the model's, assumption 43.) On a channel that is not
served, SPDM requests change nothing. GET_VERSION begins a connection; capabilities and algorithms follow it; before
them every other request is answered with an error, as is a request whose code is not supported. With the three behind
it: digests, certificates of slots 0 and 1, the challenge of slot 0 and the five measurements are answered, other
slots and indexes with an error; KEY_EXCHANGE takes the lowest free session or is refused; GET_ENCAPSULATED_REQUEST
and DELIVER_ENCAPSULATED_RESPONSE move the handshake on, to a trust anchor whose chain verifies; FINISH opens the
session at level 0. (spec/15_external_ports.md: SPDM and sessions, NOTES assumption 43) -/
def Obligations.SpdmRequestsAreAnswered : Prop :=
  (∀ (s : State) (ch : Chan),
    let now := s.clk.chipTime
    let done := (s.hub.conn ch).done
    let answers := fun (h : Hub) (r : SpdmRsp) => Acts s fun h' => h' = h.sendSpdm now ch r
    let early := answers s.hub (.error .unexpectedRequest)
    (s.hub.spdmServed ch = false → let same := fun t => t = s
      Completes (.getVersion ch) s same ∧ Completes (.getCapabilities ch) s same ∧
      (∀ o, Completes (.negotiateAlgorithms ch o) s same) ∧ Completes (.getDigests ch) s same ∧
      (∀ n, Completes (.getCertificate ch n) s same ∧ Completes (.challenge ch n) s same ∧
        Completes (.getMeasurements ch n) s same ∧ Completes (.keyExchange ch n) s same) ∧
      Completes (.getEncapsulatedRequest ch) s same ∧
      (∀ d ok, Completes (.deliverEncapsulatedResponse ch d ok) s same ∧ Completes (.finish ch ok) s same)) ∧
    (s.hub.spdmServed ch = true →
      (∀ k, spdmCodes.contains k = false → Completes (.spdmUnsupportedRequest ch k) s
        (answers s.hub (.error .unsupportedRequest))) ∧
      Completes (.getVersion ch) s (answers (s.hub.modConn ch fun _ => { done := 1 }) (.version [0x12, 0x13])) ∧
      (done = 0 → Completes (.getCapabilities ch) s early) ∧
      (1 ≤ done → Completes (.getCapabilities ch) s
        (answers (s.hub.modConn ch fun x => { x with done := max x.done 2 }) .capabilities)) ∧
      (∀ o, (done < 2 → Completes (.negotiateAlgorithms ch o) s early) ∧
        (2 ≤ done → AlgOffer_ok o = true → Completes (.negotiateAlgorithms ch o) s
          (answers (s.hub.modConn ch fun x => { x with done := 3 }) .algorithms)) ∧
        (2 ≤ done → AlgOffer_ok o = false → Completes (.negotiateAlgorithms ch o) s
          (answers s.hub (.error .invalidRequest)))) ∧
      (done < 3 → Completes (.getDigests ch) s early ∧ Completes (.getEncapsulatedRequest ch) s early ∧
        (∀ n, Completes (.getCertificate ch n) s early ∧ Completes (.challenge ch n) s early ∧
          Completes (.getMeasurements ch n) s early ∧ Completes (.keyExchange ch n) s early) ∧
        ∀ d ok, Completes (.deliverEncapsulatedResponse ch d ok) s early ∧ Completes (.finish ch ok) s early) ∧
      (3 ≤ done →
        Completes (.getDigests ch) s (answers s.hub (.digests 3)) ∧
        (∀ n, Completes (.getCertificate ch n) s
            (answers s.hub (if n < 2 then .certificate n else .error .invalidRequest)) ∧
          Completes (.challenge ch n) s (answers s.hub (if n = 0 then .challengeAuth 0 else .error .invalidRequest)) ∧
          Completes (.getMeasurements ch n) s (answers s.hub
            (if 1 ≤ n ∧ n ≤ 5 then .measurements n (s.hub.measure n) else .error .invalidRequest))) ∧
        (∀ id, (s.hub.conn ch).handshake = none →
          (s.hub.freeSession ch = none → Completes (.keyExchange ch id) s
            (answers s.hub (.error .sessionLimitExceeded))) ∧
          ∀ n, s.hub.freeSession ch = some n → Completes (.keyExchange ch id) s (Acts s fun h =>
            h.session n = some (SessX.mk ch (id % 2 ^ 32) 0 0 0 0) ∧ (h.conn ch).handshake = some n)) ∧
        (s.hub.shaking ch 0 = none → Completes (.getEncapsulatedRequest ch) s early) ∧
        (∀ x, s.hub.shaking ch 0 = some x → Completes (.getEncapsulatedRequest ch) s
          (answers (s.hub.setPhase x.1 fun y => { y with phase := 1 }) .encapsulatedRequest)) ∧
        (∀ d ok, (s.hub.shaking ch 1 = none → Completes (.deliverEncapsulatedResponse ch d ok) s early) ∧
          ∀ x, s.hub.shaking ch 1 = some x →
            (ok = false ∨ anchorOf d = none → Completes (.deliverEncapsulatedResponse ch d ok) s
              (answers (s.hub.dropHandshake ch) (.error .invalidRequest))) ∧
            (∀ a, ok = true → anchorOf d = some a → Completes (.deliverEncapsulatedResponse ch d ok) s
              (answers (s.hub.setPhase x.1 fun y => { y with phase := 2, anchor := a, maxLevel := bits (Config.anchorBits a) 2 3 }) .encapsulatedAck))) ∧
        (∀ ok, (s.hub.shaking ch 2 = none → Completes (.finish ch ok) s early) ∧
          ∀ x, s.hub.shaking ch 2 = some x →
            (ok = false → Completes (.finish ch ok) s (answers (s.hub.dropHandshake ch) (.error .decryptError))) ∧
            (ok = true → Completes (.finish ch ok) s (Acts s fun h => h.flag F.AUT_SESS_open x.1 = true ∧
              h.get F.AUT_SESS_level x.1 = 0 ∧
              h.session x.1 = some { x.2 with phase := 3, lastAt := now }))))))  ∧
  (∀ (h : Hub) (t : Nat) (ch : Chan) (r : SpdmRsp), chanLink ch = none →
    h.sendSpdm t ch r = { h with out := h.out ++ h.interrupts (ch == .i3c) ++ [.spdm ch r] })

/-- O49. A message of a session that is not open or not served changes nothing. HEARTBEAT and KEY_UPDATE are answered;
AUT_REQ within the anchor's and the transport's limits sets the level, and above them it is answered AUTH; an unknown
opcode is answered RESERVED. END_SESSION, and 10 s without a valid message, close the session. READ and WRITE of a
length or width that gives no elements are answered RESERVED; a READ of one element answers what the access returned,
and a WRITE of one word of Hearth scratch stores it. A register write of such a word by a master stores it with OK,
misaligned it is refused ALIGN, and above the hub address space RESERVED. (spec/15_external_ports.md: sessions, inner
frames, READ and WRITE, register writes) -/
def Obligations.SessionsAreServed : Prop :=
  (∀ (s : State) (n : Nat), n < 20 →
    let now := s.clk.chipTime
    let heard := s.hub.hears now n
    let answers := fun (tag : Nat) (x : Inner) => Acts s fun h => h = heard.sendInner now n tag x
    (s.hub.served n = false → let same := fun t => t = s
      Completes (.heartbeat n) s same ∧ Completes (.keyUpdate n) s same ∧ Completes (.endSession n) s same ∧
      (∀ tag lv nt, lv < 8 → Completes (.autReq n tag lv nt) s same) ∧
      ∀ tag a, a < 2 ^ 64 → (∀ w l, Completes (.vynRead n tag w a l) s same) ∧
        Completes (.exportRead n tag 0 0 0) s same) ∧
    (s.hub.served n = true →
      Completes (.heartbeat n) s (answers 0 (.spdm .heartbeatAck)) ∧
      Completes (.keyUpdate n) s (answers 0 (.spdm .keyUpdateAck)) ∧
      Completes (.endSession n) s (Acts s fun h => h.reg .AUT_SESS n = 0 ∧ h.session n = none) ∧
      (∀ tag k, innerOpcodes.contains k = false → Completes (.innerUnknown n tag k) s
        (answers tag (.unknown .reserved))) ∧
      (∀ tag lv nt x, lv < 8 → s.hub.session n = some x →
        (min x.maxLevel (transportCap x.chan) < lv → Completes (.autReq n tag lv nt) s
          (answers tag (.aut .auth (s.hub.get F.AUT_SESS_level n)))) ∧
        (lv ≤ min x.maxLevel (transportCap x.chan) → Completes (.autReq n tag lv nt) s fun t =>
          Acts s (fun h => h.get F.AUT_SESS_level n = lv ∧ h.flag F.AUT_SESS_notices n = nt) t ∧
          Only (fun r i => r = .AUT_SESS ∧ i = n) s t)) ∧
      (∀ tag w a l, a < 2 ^ 64 →
        (elements w l = none ∨ heard.readRoom n < l → Completes (.vynRead n tag w a l) s
          (answers tag (.read .reserved 0 []))) ∧
        (elements w l = some 1 → l ≤ heard.readRoom n →
          let r := heard.busRead now (sessionMaster n) a w
          (r.1.took = true → Completes (.vynRead n tag w a l) s (Acts s fun h =>
            h = r.2.2.sendInner now n tag (.read .ok w (bytesLE w r.2.1.toNat)))) ∧
          (r.1.took = false → Completes (.vynRead n tag w a l) s (Acts s fun h =>
            h = r.2.2.sendInner now n tag (.read r.1 0 []))))) ∧
      (∀ tag w a bs, a < 2 ^ 64 → elements w bs.length = none → s.hub.owedStep = 0 →
        Completes (.vynWrite n tag w a bs) s (answers tag (.write .reserved 0))) ∧
      (∀ tag a bs, 0x40000000 ≤ a → a < 0x40800000 → a % 8 = 0 → bs.length = 8 → Admits s (sessionMaster n) 3 →
        s.hub.planReadOnly a 8 = false → s.hub.owedStep = 0 → Completes (.vynWrite n tag 8 a bs) s fun t =>
          Acts s (fun h => h.bytes a 8 = bs) t ∧ SameMemory (fun x => a ≤ x ∧ x < a + 8) s t))) ∧
  (∀ (s : State) (n : Nat), n < 20 →
    (s.hub.sessionDue n = none → Completes (.sessionTimeout n) s fun t => t = s) ∧
    ∀ d, s.hub.sessionDue n = some d → Completes (.sessionTimeout n) s
      (ActsAt s d fun h => h.reg .AUT_SESS n = 0 ∧ h.session n = none)) ∧
  (∀ (s : State) (m : Master) (a w : Nat) (v : Word), Admits s m 3 → s.hub.owedStep = 0 → a < 2 ^ 64 →
    (0x40000000 ≤ a → a < 0x40800000 → w = 0 ∨ w = 8 → s.hub.planReadOnly a 8 = false →
      (a % 8 = 0 → Completes (.registerWrite m a w v) s fun t => Accepts s m (fun h => h.rd a 8 = v.toNat) t ∧
        SameMemory (fun x => a ≤ x ∧ x < a + 8) s t ∧ SameRegs (fun _ _ => False) s t) ∧
      (a % 8 ≠ 0 → Completes (.registerWrite m a w v) s (TurnedAway s m .align))) ∧
    (0x2004000000 ≤ a → Completes (.registerWrite m a w v) s (TurnedAway s m .reserved)))

/-- O50. A trained PHY that is enabled awaits HELLO, one that is not is held down with its domain off, and before
start-up, isolated or off in Ember mode it changes nothing; a lost link is DOWN. A frame on a link that is not
listening changes nothing; a bad CRC or a malformed frame is counted and answered with NAK, and a frame out of
sequence with NAK. In sequence and with credit: HELLO with a common version brings the link UP with the smaller
payload, else it stays in NEGOTIATE; CREDIT adds to the credits held; SPDM and SECURED frames move the expected
sequence on. NAK, and 100 µs without acknowledgement, send the frames again. (spec/15_external_ports.md: the Vynuond
port) -/
def Obligations.VynuondFramesAreReceived : Prop :=
  (∀ (s : State) (n : Nat), n = 1 ∨ n = 2 →
    let off := s.hub.get F.HRT_BOOT_STATUS_stage = 0 ∨ s.hub.isolated 118 = true ∨
      (s.hub.domainOn 118 = false ∧ s.hub.flag F.HRT_STATE_ember = true)
    (off → Completes (.vynLinkTrained n) s fun t => t = s) ∧
    (¬ off → s.hub.flag F.VYN_CFG_enable = false → Completes (.vynLinkTrained n) s fun t =>
      Acts s (fun h => (h.vlink 0).state = 0 ∧ h.get F.VYN_STATUS_link_state = 0 ∧ h.domainOn 118 = false) t ∧
      Only (fun r _ => r = .VYN_STATUS ∨ r = .HRT_PWR_DOM) s t) ∧
    (¬ off → s.hub.flag F.VYN_CFG_enable = true → Completes (.vynLinkTrained n) s fun t =>
      Acts s (fun h => (h.vlink 0).state = 2 ∧ (h.vlink 0).rxNext = 0 ∧ (h.vlink 0).txNext = 0 ∧
        (h.vlink 0).replay = [] ∧ h.get F.VYN_STATUS_link_state = 2 ∧ h.get F.VYN_STATUS_lanes = n ∧
        h.domainOn 118 = true) t ∧ Only (fun r _ => r = .VYN_STATUS ∨ r = .HRT_PWR_DOM) s t)) ∧
  (∀ s : State, Completes .vynLinkDown s fun t => Acts s (fun h => (h.vlink 0).state = 0 ∧
      h.get F.VYN_STATUS_link_state = 0 ∧ h.get F.VYN_STATUS_lanes = 0) t ∧ Only (fun r _ => r = .VYN_STATUS) s t) ∧
  (∀ (s : State) (n : Nat), (s.hub.replayNext n = none → Completes (.replayTimeout n) s fun t => t = s) ∧
    ∀ k d, s.hub.replayNext n = some (k, d) → Completes (.replayTimeout n) s
      (ActsAt s d fun h => h = s.hub.replayFrom (s.clk.reach d).chipTime k n)) ∧
  (∀ (s : State) (f : VynHdr) (vs pl ex id : Nat) (c : VynCredits) (bs : List Byte) (mac : Bool),
    let k := hdrLink f
    let x := s.hub.vlink k
    let frame := fun (p : State → Prop) =>
      (f.opcode = 0x01 → Completes (.hello f vs pl c) s p) ∧ (f.opcode = 0x03 → Completes (.credit f c) s p) ∧
      (f.opcode = 0x04 → Completes (.nak f ex) s p) ∧ (f.opcode = 0x10 → Completes (.spdmFrame f bs) s p) ∧
      (f.opcode = 0x11 → Completes (.securedFrame f id mac) s p)
    (s.hub.listens k = false → frame fun t => t = s) ∧
    (s.hub.listens k = true →
      (f.crcOk = false → frame (Acts s fun h => h = (s.hub.bump F.VYN_ERR_crc_errors 0 1).sendNak k)) ∧
      (f.crcOk = true → x.malformed f = true →
        frame (Acts s fun h => h = (s.hub.bump F.VYN_ERR_frame_errors 0 1).sendNak k)) ∧
      (f.crcOk = true → x.malformed f = false → f.opcode ≠ 0x04 → f.seq ≠ x.rxNext →
        frame (Acts s fun h => h = s.hub.sendNak k)) ∧
      (f.crcOk = true → x.malformed f = false → f.seq = x.rxNext →
        (f.opcode = 0x01 → bitAt vs 1 = true → Completes (.hello f vs pl c) s (Acts s fun h => (h.vlink k).state = 3 ∧
          (h.vlink k).version = 1 ∧ (h.vlink k).payload = min pl (s.hub.get F.VYN_CFG_payload_max))) ∧
        (f.opcode = 0x01 → bitAt vs 1 = false → Completes (.hello f vs pl c) s
          (Acts s fun h => (h.vlink k).state = 2)) ∧
        (f.opcode = 0x03 → x.waiting = [] → Completes (.credit f c) s (Acts s fun h => (h.vlink k).held =
          VynCredits.mk (x.held.control + c.control) (x.held.access + c.access) (x.held.stream + c.stream))) ∧
        (0 < creditOf x.given f.cls →
          (f.opcode = 0x10 → Completes (.spdmFrame f bs) s (Acts s fun h =>
            (h.vlink k).rxNext = (x.rxNext + 1) % 65536)) ∧
          (f.opcode = 0x11 → Completes (.securedFrame f id mac) s (Acts s fun h =>
            (h.vlink k).rxNext = (x.rxNext + 1) % 65536)))) ∧
      (f.crcOk = true → x.malformed f = false → f.opcode = 0x04 → Completes (.nak f ex) s
        (Acts s fun h => h = (s.hub.acked k f.ack).replayFrom s.clk.chipTime k ex))))

/-- O51. An open with reserved flags, or that something stands against, is answered with the status; an accepted one
waits for its sizing, which fixes its image. A read of no instance of the session is answered NO_UNIT; in range it is
queued, and served in frames; an end ends the instance. HRT_EXP_CMD with a reserved recipient is refused, else its
outcome stands in HRT_EXP_STATUS: the refusal, BUSY without the host path, or running; a host export that is done ends
with OK. A recipient key must lie in Hearth scratch, aligned, be a point of the curve, and its slot not be locked.
What names no instance changes nothing. (spec/15_external_ports.md: exports, host exports, recipient keys) -/
def Obligations.ExportsDeliverDumps : Prop :=
  (∀ (s : State) (n tag k rc fl : Nat), n < 20 → s.hub.served n = true →
    let now := s.clk.chipTime
    let m := sessionMaster n
    let heard := s.hub.hears now n
    let answers := fun (x : Inner) => Acts s fun h => h = heard.sendInner now n tag x
    (4 ≤ fl → Completes (.exportOpen n tag k rc fl) s (answers (.opened .reserved 0 0))) ∧
    (fl < 4 →
      (∀ e, heard.openRefusal m k rc = .error e → e ≠ .auth →
        Completes (.exportOpen n tag k rc fl) s (answers (.opened e 0 0))) ∧
      (∀ x slot id, heard.openRefusal m k rc = .ok (x, slot, id) → Completes (.exportOpen n tag k rc fl) s
        (Acts s fun h => h.out = s.hub.out ∧ ∃ e, h.export_ id = some e ∧ e.capture = k ∧ e.owner = m ∧ e.tag = tag ∧
          e.recipient = slot ∧ e.ready = false))) ∧
    (∀ id off len, (heard.exportOf n id = none → Completes (.exportRead n tag id off len) s
        (answers (.data id .noUnit off [] true))) ∧
      ∀ e, heard.exportOf n id = some e → e.ready = true → off + len ≤ e.image.length →
        Completes (.exportRead n tag id off len) s (Acts s fun h =>
          (h.export_ id).map ExportX.reads = some (e.reads ++ [ReadX.mk tag off (off + len)]))) ∧
    (∀ id, (heard.exportOf n id).isSome = true → Completes (.exportEnd n tag id) s
      (Acts s fun h => h.export_ id = none))) ∧
  (∀ (s : State) (id : Nat),
    (s.hub.export_ id = none → (Completes (.exportSizingDone id) s fun t => t = s) ∧
      (Completes (.exportDataFrame id) s fun t => t = s) ∧ Completes (.hostExportDone id) s fun t => t = s) ∧
    (∀ e x, s.hub.export_ id = some e → e.ready = false → e.dest = none → s.hub.failover = false →
      s.hub.get F.HRT_EMBER_STATUS_phase = 0 → s.hub.capture e.capture = some x → Completes (.exportSizingDone id) s
        (Acts s fun h => h.export_ id = some { e with ready := true, image := (s.hub.image e x).1 })) ∧
    (∀ e r rest x, s.hub.export_ id = some e → e.reads = r :: rest → s.hub.failover = false →
      s.hub.session (masterSession e.owner) = some x → chanLink x.chan = none →
      let n := min (s.hub.dataRoom x) (r.stop - r.offset)
      Completes (.exportDataFrame id) s (Acts s fun h => h.out = s.hub.out ++
        s.hub.interrupts (x.chan == .i3c) ++ [.inner x.id r.tag
        (.data id .ok r.offset ((e.image.drop r.offset).take n) (r.offset + n == r.stop))])) ∧
    (∀ e d, s.hub.export_ id = some e → e.dest = some d → e.ready = true → s.hub.failover = false →
      s.hub.hostHealthy = true → Completes (.hostExportDone id) s (Acts s fun h => h.export_ id = none ∧
        h.get F.HRT_EXP_STATUS_status e.owner.idx = 0 ∧ h.get F.HRT_EXP_STATUS_state e.owner.idx = 3))) ∧
  (∀ (s : State) (m : Master) (k rc lim : Nat) (a b : Bool), Admits s m 3 → k < 2 ^ 16 → rc < 2 ^ 8 → lim < 2 ^ 32 →
    let shows := fun (st : Status) (n : Nat) (h : Hub) => h.get F.HRT_EXP_STATUS_status m.idx = st.code ∧
      h.get F.HRT_EXP_STATUS_state m.idx = n
    (8 ≤ rc → rc < 0xFE → Completes (.hostExport m k rc a b lim) s (TurnedAway s m .reserved)) ∧
    (rc < 8 ∨ 0xFE ≤ rc →
      (∀ st, s.hub.openRefusal m k rc = .error st → st ≠ .auth → Completes (.hostExport m k rc a b lim) s fun t =>
        Accepts s m (shows st 3) t ∧ Only (fun r i => r = .HRT_EXP_STATUS ∧ i = m.idx) s t) ∧
      (∀ y, s.hub.openRefusal m k rc = .ok y →
        (s.hub.hostHealthy = false → Completes (.hostExport m k rc a b lim) s (Accepts s m (shows .busy 3))) ∧
        (s.hub.hostHealthy = true → Completes (.hostExport m k rc a b lim) s (Accepts s m fun h => shows .ok 1 h ∧
          ∃ e, h.export_ y.2.2 = some e ∧ e.capture = k ∧ e.owner = m))))) ∧
  (∀ (s : State) (m : Master) (n a : Nat), Admits s m 3 → n < 8 → a < 2 ^ 48 →
    let free := s.hub.flag F.AUT_RCPT_locked n = false
    (¬ (0x40000000 ≤ a ∧ a + 96 ≤ 0x40800000) → Completes (.rcptRegister m n a) s (TurnedAway s m .unmapped)) ∧
    (0x40000000 ≤ a → a + 96 ≤ 0x40800000 →
      (onP384 (s.hub.bytes a 96) = false → Completes (.rcptRegister m n a) s (TurnedAway s m .reserved)) ∧
      (onP384 (s.hub.bytes a 96) = true → a % 8 ≠ 0 → Completes (.rcptRegister m n a) s (TurnedAway s m .align)) ∧
      (a % 8 = 0 → onP384 (s.hub.bytes a 96) = true →
        (¬ free → Completes (.rcptRegister m n a) s (TurnedAway s m .busy)) ∧
        (free → Completes (.rcptRegister m n a) s fun t => Accepts s m (fun h => h.flag F.AUT_RCPT_valid n = true ∧
          aGet (fun _ => []) h.rcptKeys n = s.hub.bytes a 96) t ∧ Only (fun r i => r = .AUT_RCPT ∧ i = n) s t))) ∧
    (¬ free → Completes (.rcptClear m n) s (TurnedAway s m .busy)) ∧
    (free → Completes (.rcptClear m n) s fun t => Accepts s m (fun h => h.flag F.AUT_RCPT_valid n = false ∧
      h.get F.AUT_RCPT_digest n = 0) t ∧ Only (fun r i => r = .AUT_RCPT ∧ i = n) s t) ∧
    Completes (.rcptLock m n) s fun t => Accepts s m (fun h => h.flag F.AUT_RCPT_locked n = true ∧
      h.flag F.AUT_RCPT_valid n = s.hub.flag F.AUT_RCPT_valid n) t ∧ Only (fun r i => r = .AUT_RCPT ∧ i = n) s t)

/-- O52. A cold reset returns Chip Time to zero, every register to its reset value and memory to what unwritten memory
reads, but for the flash and the host's memory; the release of power-on reset powers the hub. A stage's event changes
nothing unless its stage is under way. SELF_TEST makes the passing Hearth active and fails without one; SPINE powers
the node and compute domains; CRUCIBLE maps the failing groups out and powers the others; TRIMS ends with the trims
calibrated; FLASH boots the selected slot when it verifies, else the other when that does, and else fails, as it does
without a readable flash; LOAD of recipes that load starts the chip reset sequence in its COLD form.
(spec/17_resets_power_startup.md: cold reset, start-up) -/
def Obligations.StartUpRunsItsStages : Prop :=
  (∀ s : State, Completes .coldReset s fun t => t.clk = {} ∧ t.pending = s.pending ∧ t.hub.powered = false ∧
    (∀ r i, t.hub.reg r i = r.init i) ∧
    ∀ a, t.hub.byte a = if inFlash a 1 = true ∨ hostBase ≤ a then s.hub.byte a else 0) ∧
  (∀ s : State, Completes .porRelease s fun t => Acts s (fun h => h.powered = true) t ∧ Only (fun _ _ => False) s t) ∧
  (∀ (s : State) (a b : Bool) (x : Byte) (w : Word) (hs : List Nat), hs.length = 32 → (∀ n, n ∈ hs → n < 4095) →
    let same := fun t => t = s
    (s.hub.stageRuns 1 = false → Completes (.selfTestDone a b) s same) ∧
    (s.hub.stageRuns 2 = false → Completes (.spineStageDone x) s same) ∧
    (s.hub.stageRuns 3 = false → Completes (.crucibleStageDone w) s same) ∧
    (s.hub.stageRuns 4 = false → Completes (.trimsStageDone hs) s same) ∧
    (s.hub.stageRuns 5 = false → Completes (.flashStageDone a) s same) ∧
    (s.hub.stageRuns 6 = false → Completes .loadStageDone s same)) ∧
  (∀ (s : State) (a b : Bool), s.hub.stageRuns 1 = true → s.hub.boot.restart = false →
    (a = true ∨ b = true → Completes (.selfTestDone a b) s (Acts s fun h => h.boot.done = 1 :: s.hub.boot.done ∧
      h.flag F.HRT_STATE_active_hearth = !a)) ∧
    (a = false → b = false → Completes (.selfTestDone a b) s (Acts s fun h => h.boot.failed = true ∧
      bitAt (h.get F.HRT_ALERT_cause) 1 = true ∧ h.boot.done = s.hub.boot.done))) ∧
  (∀ (s : State) (x : Byte), s.hub.stageRuns 2 = true → Completes (.spineStageDone x) s fun t =>
    Acts s (fun h => h.boot.done = 2 :: s.hub.boot.done ∧ h.get F.HRT_BOOT_STATUS_swage_bad = x.toNat ∧
      h.ledger.sampleAt = s.clk.chipTime ∧ ∀ d, 64 ≤ d → d < 112 → h.domainOn d = true) t ∧
    Only (fun r _ => r = .HRT_PWR_DOM ∨ r = .HRT_BOOT_STATUS) s t) ∧
  (∀ (s : State) (w : Word), s.hub.stageRuns 3 = true → Completes (.crucibleStageDone w) s (Acts s fun h =>
    h.boot.done = 3 :: s.hub.boot.done ∧ h.get F.CRU_GROUPS_mapped_in = (~~~w).toNat ∧
    ∀ g, g < 64 → h.domainOn g = h.mappedIn (g / 8) (g % 8))) ∧
  (∀ (s : State) (hs : List Nat), s.hub.stageRuns 4 = true → hs.length = 32 → (∀ n, n ∈ hs → n < 4095) →
    Completes (.trimsStageDone hs) s fun t => Acts s (fun h => h.boot.done = 4 :: s.hub.boot.done ∧
      h.flag F.TIM_STATUS_trims_calibrated = true ∧ ∀ i x, hs[i]? = some x →
        h.get F.TIM_TRIM_trim i = (x + 1) / 2 ∧ h.get F.TIM_TRIM_measured i = (x + 1) / 2) t ∧
    Only (fun r _ => r = .TIM_TRIM ∨ r = .TIM_STATUS ∨ r = .HRT_BOOT_STATUS) s t) ∧
  (∀ s : State, s.hub.stageRuns 5 = true →
    (Completes (.flashStageDone false) s (Acts s fun h => h.boot.failed = true ∧ h.boot.slot = none ∧
      bitAt (h.get F.HRT_ALERT_cause) 1 = true)) ∧
    (s.hub.boot.restart = false →
      let a := s.hub.seen.selectedSlot
      let slot := if s.hub.bootResult a = 0 then some a else if s.hub.bootResult (1 - a) = 0 then some (1 - a) else none
      Completes (.flashStageDone true) s (Acts s fun h => h.boot.done = (if slot.isSome then [5] else []) ++
        s.hub.boot.done ∧ if slot.isSome then h.boot.slot = slot else h.boot.failed = true))) ∧
  (∀ (s : State) (n : Nat), s.hub.stageRuns 6 = true → s.hub.boot.slot = some n →
    let r := s.hub.loadRecipes s.clk.chipTime n
    r.1 = true → s.hub.boot.restart = false → r.2.boot = s.hub.boot → r.2.chipReset = none →
      Completes .loadStageDone s (Acts s fun h => h.boot.done = 6 :: s.hub.boot.done ∧
        h.chipReset = some s.clk.chipTime ∧ h.seq.map SeqX.began = some s.clk.chipTime ∧
        h.get F.HRT_BOOT_STATUS_form = 0))

/-- O53. With nothing under way these events change nothing. The release of the compute dies with valid sockets leaves
every unit RUNNING; a sequence whose steps have ended leaves BOOT; one not complete after 20 s escalates. A warm reset
starts the sequence in its WARM form with the hub's state kept. HEARTH_RESTART is refused BUSY in BOOT or a takeover,
and is a takeover with a ready standby, else a start-up from SELF_TEST; REBOOT needs a failed boot. Ember mode is
entered unless something is open, which switches the Swage engines off, and left through phase EXIT. An isolated Swage
engine, Vynuond port or standby Hearth is off. (spec/17_resets_power_startup.md: the chip reset sequence, warm reset,
Hearth restart, Ember mode, power domains) -/
def Obligations.ResetsRestartsAndEmber : Prop :=
  (∀ s : State, (s.hub.seq.bind SeqX.release = none → Completes (.computeDieRelease [] []) s fun t => t = s) ∧
    ∀ d, s.hub.seq.bind SeqX.release = some d → Completes (.computeDieRelease [] []) s (ActsAt s d fun h =>
      h.seq.map SeqX.last = some true ∧ h.seq.bind SeqX.release = none ∧ h.lanes = [] ∧
      ∀ u, unitOk u = true → h.runState u = .running)) ∧
  (∀ s : State, (∀ x, s.hub.seq = some x → x.mem ≠ [] ∨ x.last = false) →
    Completes .chipResetComplete s fun t => t = s) ∧
  (∀ (s : State) (x : SeqX), s.hub.seq = some x → x.mem = [] → x.last = true → s.hub.boot.done.contains 6 = true →
    Completes .chipResetComplete s (Acts s fun h => h.seq = none ∧ h.chipReset = none ∧ h.retired = false ∧
      h.booting = false ∧ h.boot.done = 7 :: s.hub.boot.done)) ∧
  (∀ s : State, (s.hub.chipReset = none → Completes .chipResetTimeout s fun t => t = s) ∧
    ∀ b, s.hub.chipReset = some b → s.hub.retired = false → Completes .chipResetTimeout s (ActsAt s (b + secs 20)
      fun h => h.retired = true ∧ h.get F.RCV_STATUS_retire_cause = 2)) ∧
  (∀ s : State,
    let up := s.hub.chipReset.isSome = true ∨ s.hub.boot.done.contains 7 = true ∨ s.hub.boot.restart = true
    (¬ up → Completes .warmResetReport s fun t => t = s) ∧
    (up → Completes .warmResetReport s (Acts s fun h => h.chipReset = some s.clk.chipTime ∧
      h.seq.map SeqX.began = some s.clk.chipTime ∧ h.get F.HRT_BOOT_STATUS_form = 1 ∧
      h.get F.HRT_RESET_CAUSE_last_kind = 1 ∧ h.get F.HRT_STATE_state = s.hub.get F.HRT_STATE_state))) ∧
  (∀ (s : State) (m : Master), Admits s m 4 →
    (s.hub.booting = true ∨ s.hub.failover = true → Completes (.hearthRestart m) s (TurnedAway s m .busy)) ∧
    (s.hub.booting = false → s.hub.failover = false →
      (s.hub.flag F.HRT_STATE_standby_ready = true → Completes (.hearthRestart m) s (Accepts s m fun h =>
        h.failover = true ∧ h.get F.HRT_FO_STATUS_last_cause = 4 ∧ h.get F.HRT_RESET_CAUSE_restart_cause = 1)) ∧
      (s.hub.flag F.HRT_STATE_standby_ready = false → Completes (.hearthRestart m) s (Accepts s m fun h =>
        h.booting = true ∧ h.boot.restart = true ∧ h.locks = [] ∧ h.txns = [] ∧ h.boot.done.contains 1 = false)))) ∧
  (∀ (s : State) (m : Master), Admits s m 3 →
    let failed := s.hub.boot.failed = true ∧ s.hub.boot.done.contains 1 = true
    (¬ failed → Completes (.reboot m) s (TurnedAway s m .notHeld)) ∧
    (failed → Completes (.reboot m) s fun t => Accepts s m (fun h => h.boot.failed = false ∧
      h.boot.done.contains 5 = false) t ∧ Only (fun r _ => r = .HRT_BOOT_STATUS) s t) ∧
    (s.hub.emberBusy = true → Completes (.emberEnter m) s (TurnedAway s m .busy)) ∧
    (s.hub.emberBusy = false → Completes (.emberEnter m) s (Accepts s m fun h =>
      h.flag F.HRT_STATE_ember = true ∧ h.get F.HRT_EMBER_STATUS_phase = 1 ∧
      ∀ p, p < 8 → h.domainOn (96 + p) = false)) ∧
    (s.hub.get F.HRT_EMBER_STATUS_phase = 0 → Completes (.emberExit m) s (TurnedAway s m .notHeld)) ∧
    (s.hub.get F.HRT_EMBER_STATUS_phase = 1 ∨ s.hub.get F.HRT_EMBER_STATUS_phase = 2 →
      Completes (.emberExit m) s fun t => Accepts s m (fun h => h.get F.HRT_EMBER_STATUS_phase = 3 ∧
        h.get F.HRT_EMBER_STATUS_last_exit_cause = 1 ∧ h.emberExitAt = s.clk.chipTime) t ∧
        Only (fun r _ => r = .HRT_EMBER_STATUS) s t)) ∧
  (∀ s : State, (s.hub.get F.HRT_EMBER_STATUS_phase ≠ 1 → Completes .emberEntryDone s fun t => t = s) ∧
    (s.hub.get F.HRT_EMBER_STATUS_phase = 1 → Completes .emberEntryDone s fun t =>
      Acts s (fun h => h.get F.HRT_EMBER_STATUS_phase = 2) t ∧ Only (fun r _ => r = .HRT_EMBER_STATUS) s t) ∧
    (s.hub.get F.HRT_EMBER_STATUS_phase ≠ 3 → Completes .emberExitDone s fun t => t = s) ∧
    (s.hub.get F.HRT_EMBER_STATUS_phase = 3 → s.hub.emberActs = [] → Completes .emberExitDone s (Acts s fun h =>
      h.get F.HRT_EMBER_STATUS_phase = 0 ∧ h.flag F.HRT_STATE_ember = false ∧
      h.get F.HRT_EMBER_STATUS_groups_off = 0))) ∧
  (∀ (s : State) (d : Nat), d < 119 →
    (s.hub.domainOn d = false → Completes (.powerDomainFault d) s fun t => t = s) ∧
    (s.hub.domainOn d = true → 96 ≤ d → d < 112 → Completes (.powerDomainFault d) s fun t =>
      Acts s (fun h => h.domainOn d = false ∧ h.isolated d = true) t ∧
      Only (fun r _ => r = .HRT_PWR_DOM ∨ r = .HRT_PWR_FAULT) s t) ∧
    (s.hub.domainOn d = true → 112 ≤ d → d < 118 → s.hub.failover = false →
      (if d < 115 then 0 else 4) ≠ s.hub.hearthDie → Completes (.powerDomainFault d) s fun t =>
        Acts s (fun h => h.domainOn d = false ∧ h.isolated d = true ∧ h.flag F.HRT_STATE_standby_ready = false) t ∧
        Only (fun r _ => r = .HRT_PWR_DOM ∨ r = .HRT_PWR_FAULT ∨ r = .HRT_STATE) s t) ∧
    (s.hub.domainOn d = true → d = 118 → Completes (.powerDomainFault d) s fun t =>
      Acts s (fun h => h.domainOn d = false ∧ h.isolated d = true ∧ (h.vlink 0).state = 0) t ∧
      Only (fun r _ => r = .HRT_PWR_DOM ∨ r = .HRT_PWR_FAULT ∨ r = .VYN_STATUS) s t))

/-- O54. For every hub, core and value: h0 reads zero, a write of h0 leaves the hub as it was, and a write of any
other register of a core that exists reads back and leaves the core's other registers. Each of the 21 S instructions
with an rd field (HLD, FENCE, PEEK, QPEEK, HALT, RUN, STEP, QUENCH, REHEAT, WAITEV, EVPOP, CAPT, CWAIT, SWG, TXB, TXC,
LCK, LGR READ, LGR SEAL, RECV and VRX) that a core with no active exception carries out with rd naming h31 raises
ILLEGAL, whatever its other operands, and has no other effect. (R87, R89) -/
def Obligations.FixedRegisters : Prop :=
  (∀ (h : Hub) (c : Nat) (v : Word), h.gpr c 0 = 0 ∧ h.setGpr c 0 v = h) ∧
  (∀ (h : Hub) (c : Nat) (r q : RegNo) (v : Word), coreOk c = true → r ≠ 0 →
    (h.setGpr c r v).gpr c q = if q = r then v else h.gpr c q) ∧
  (∀ (s : State) (c : Nat), Runs s c → s.hub.cget F.STK_CAUSE_active c = 0 →
    let illegal := fun (i : Instr) => Completes i s fun t => Raised s t c .illegal 0
    let r := statusReg
    ∀ (a b : RegNo) (imm : Imm16) (off : BitVec 13) (group nowait : Bool),
      illegal (.hld c r a imm) ∧ illegal (.fence c r) ∧ illegal (.peek c r a off) ∧
      illegal (.qpeek c r a off) ∧ illegal (.halt c r a group nowait) ∧ illegal (.run c r a group nowait) ∧
      illegal (.step c r a b group) ∧ illegal (.quench c r a) ∧ illegal (.reheat c r a) ∧ illegal (.waitev c r a b) ∧
      illegal (.evpop c r a) ∧ illegal (.capt c r a) ∧ illegal (.cwait c r a b) ∧ illegal (.swg c r a) ∧
      illegal (.txb c r) ∧ illegal (.txc c r a b) ∧ illegal (.lck c r a b) ∧ illegal (.lgrRead c r a) ∧
      illegal (.lgrSeal c r) ∧ illegal (.recv c r a) ∧ illegal (.vrx c r))

/-- O55. For every state and every master that exists, has no transaction open and holds less than the level needed
(3, and 4 for HRT_RESET_CMD op HEARTH_RESTART): TRIM_WRITE, WALL_OFFSET_WRITE, ALERT_CLEAR, TIM_RECAL, the EMBER
commands, REBOOT, the recovery op RETIRE and HEARTH_RESTART end with AUTH for the master, AUT_STATUS.auth_refusals
counts one more, saturating, and nothing else of the hub changes. (spec/15_external_ports.md: authorisation,
spec/17_resets_power_startup.md: reset and power registers) -/
def Obligations.RefusedBelowLevel : Prop :=
  ∀ (s : State) (m : Master), m.ok = true → s.hub.openTxn m = none →
    let refused := fun (i : Instr) => Completes i s fun t =>
      t.hub = s.hub.authRefused.wrote m .auth ∧ t.clk = s.clk ∧ t.pending = s.pending ∧ (t.hub.master m).wstat = .auth ∧
      t.hub.get F.AUT_STATUS_auth_refusals =
        min (2 ^ F.AUT_STATUS_auth_refusals.len - 1) (s.hub.get F.AUT_STATUS_auth_refusals + 1) ∧
      Only (fun r _ => r = .AUT_STATUS) s t
    (s.hub.levelOf m < 3 →
      (∀ (n : Nat) (v : BitVec 12) (all : Bool), n < 32 → refused (.trimWrite m n v) ∧ refused (.timRecal m n all)) ∧
      (∀ w : Word, refused (.wallOffsetWrite m w)) ∧ (∀ b : Byte, refused (.alertClear m b)) ∧
      refused (.emberEnter m) ∧ refused (.emberExit m) ∧ refused (.reboot m) ∧ refused (.rcvRetire m)) ∧
    (s.hub.levelOf m < 4 → refused (.hearthRestart m))

/-- O56. The state after reset: Chip Time zero, not started and not slewing; no command waits; the hub is in BOOT;
every register copy holds its reset value (where the spec gives none, the value of a log entry); every byte of memory
reads as one that nothing has written (assumption 3, a design choice); no core is released; memory and register values
are in canonical form. (spec/02_chip_time_and_events.md: the Chip Time counter, spec/17_resets_power_startup.md:
power-on) -/
def Obligations.ResetState : Prop :=
  State.reset.clk = { chipTime := 0, started := false, phase := 0 } ∧ State.reset.hub.time.rate = 0 ∧ State.reset.pending = [] ∧
  State.reset.hub.get F.HRT_STATE_state = 0 ∧ (∀ r i, State.reset.hub.reg r i = r.init i) ∧
  (∀ a, State.reset.hub.byte a = memDefault a) ∧ (∀ c, State.reset.hub.coreState c = 3) ∧ State.reset.Canonical

/-- O57. For every command that is a Striker instruction with an encoding, its word has 32 bits and decodes, at its
core, to that very instruction with every operand. For every core and every 32-bit word that decodes, the instruction
decoded encodes to that same word at that core. LUI with hw 3 has no encoding and its word decodes to none (R102); so
does major opcode 0x00. (spec/03_striker_instruction_set.md: instruction formats, the instructions) -/
def Obligations.StrikerWordsRoundTrip : Prop :=
  (∀ (i : Instr) (c w : Nat), encodeStriker i = some (c, w) → w < 2 ^ 32 ∧ decodeStriker c w = some i) ∧
  (∀ (c w : Nat) (i : Instr), w < 2 ^ 32 → decodeStriker c w = some i → encodeStriker i = some (c, w)) ∧
  (∀ c w, bits w 26 6 = 0 ∨ (bits w 26 6 = 8 ∧ bits w 19 2 = 3) → decodeStriker c w = none)

/-- O58. For every state whose memory and register values are in canonical form (addresses and register copies
strictly rising, no entry equal to what an unlisted one reads as), reached or not: if a step answers a next state,
that state's are in canonical form too, whichever of the commands stood in front, or none. (spec/01_hub_anatomy.md:
hub address map, NOTES assumption 3) -/
def Obligations.CanonicalFormKept : Prop :=
  ∀ s t : State, s.Canonical → step s = .next t → t.Canonical

/-- O59. For every state whose Chip Time has started, and every step that answers a next state and does not carry out
COLD_RESET: Chip Time is still started. In every state a count of 64 bits stays one, and the ticks since a slew's last
withheld or inserted tick stay below 1,000,000. A command that is no timed event, no time step and no write that may
reach TIM_STEP leaves the Chip Time unit as it is. An idle step of a started unit moves the count on by at most 2
ticks while no core has a posted write and the count is not about to pass its end. A step that carries out COLD_RESET
leaves it at zero, not started. (spec/02_chip_time_and_events.md: the Chip Time counter, NOTES assumptions 5 and 6) -/
def Obligations.ChipTimeNeverGoesBack : Prop :=
  (∀ s t : State, s.clk.started = true → s.pending.head? ≠ some .coldReset → step s = .next t → t.clk.started = true) ∧
  (∀ s t : State, step s = .next t → (s.clk.chipTime < 2 ^ 64 → t.clk.chipTime < 2 ^ 64) ∧
    (s.clk.phase < 1000000 → t.clk.phase < 1000000)) ∧
  (∀ (s t : State) (i : Instr), s.pending.head? = some i → movesTime i = false → step s = .next t → t.clk = s.clk) ∧
  (∀ s t : State, s.pending = [] → s.clk.started = true → s.clk.chipTime + 2 < 2 ^ 64 →
    (∀ c, (s.hub.core c).posted = []) → step s = .next t →
    s.clk.chipTime ≤ t.clk.chipTime ∧ t.clk.chipTime ≤ s.clk.chipTime + 2) ∧
  (∀ s t : State, s.pending.head? = some .coldReset → step s = .next t → t.clk.started = false ∧ t.clk.chipTime = 0)

/-- O60. No well-formed command ends in a fault or a refusal, in any state: whatever the hub's state, exec of a
command whose operands name parts the hub has answers a next state, and with such a command in front a step does.
(spec/INDEX.md: the block's commands) -/
def Obligations.WellFormedCommandsRun : Prop :=
  (∀ (i : Instr) (s : State), wellFormed i = true → ∃ t, exec i s = .next t) ∧
  (∀ (i : Instr) (s : State) (q : List Instr), wellFormed i = true → s.pending = i :: q → ∃ t, step s = .next t ∧ t.pending = q)
end

