-- ==== Sys2Proof/Laws/Store.lean ====
section
/-! SUPPORT. The sparse store: a read after a write, and the canonical form, which every operation of the store keeps. -/

namespace Sys2Proof.Machine

open Sys2Proof

variable {α : Type}

theorem aFind_aDrop_same (k : Nat) (m : List (Nat × α)) : aFind k (aDrop k m) = none := by
  induction m with
  | nil => rfl
  | cons e m ih => by_cases h : e.1 = k <;> simp [aDrop, aFind, h, ih]

theorem aFind_aDrop_ne {k j : Nat} (hn : j ≠ k) (m : List (Nat × α)) : aFind j (aDrop k m) = aFind j m := by
  induction m with
  | nil => rfl
  | cons e m ih =>
    by_cases h : e.1 = k
    · have : e.1 ≠ j := by omega
      simp [aDrop, aFind, h, ih, hn.symm]
    · simp [aDrop, aFind, h, ih]

theorem aFind_aInsert_same (k : Nat) (v : α) (m : List (Nat × α)) (h : aFind k m = none) :
    aFind k (aInsert k v m) = some v := by
  induction m with
  | nil => simp [aInsert, aFind]
  | cons e m ih =>
    by_cases hk : e.1 = k
    · simp [aFind, hk] at h
    · simp only [aFind, hk, if_false] at h
      by_cases hl : k < e.1
      · simp [aInsert, hl, aFind]
      · simp [aInsert, hl, aFind, hk, ih h]

theorem aFind_aInsert_ne {k j : Nat} (v : α) (hn : j ≠ k) (m : List (Nat × α)) :
    aFind j (aInsert k v m) = aFind j m := by
  induction m with
  | nil => simp [aInsert, aFind, hn.symm]
  | cons e m ih =>
    by_cases hl : k < e.1
    · simp [aInsert, hl, aFind, hn.symm]
    · simp [aInsert, hl, aFind, ih]

section
variable [DecidableEq α]

/-- What a written key reads as. -/
@[simp] theorem aGet_aPut_same (d : Nat → α) (k : Nat) (v : α) (m : List (Nat × α)) : aGet d (aPut d k v m) k = v := by
  unfold aPut
  split
  · rename_i h
    simp [aGet, aFind_aDrop_same, h]
  · simp [aGet, aFind_aInsert_same _ _ _ (aFind_aDrop_same k m)]

/-- A write leaves every other key. -/
theorem aGet_aPut_ne (d : Nat → α) {k j : Nat} (v : α) (m : List (Nat × α)) (h : j ≠ k) :
    aGet d (aPut d k v m) j = aGet d m j := by
  unfold aPut
  split
  · simp [aGet, aFind_aDrop_ne h]
  · simp [aGet, aFind_aInsert_ne v h, aFind_aDrop_ne h]

/-- A read after a write, at any key. -/
theorem aGet_aPut (d : Nat → α) (k j : Nat) (v : α) (m : List (Nat × α)) :
    aGet d (aPut d k v m) j = if j = k then v else aGet d m j := by
  by_cases h : j = k
  · subst h; simp
  · simp [h, aGet_aPut_ne]

/-! ### The canonical form -/

theorem canonicalFrom_mono (d : Nat → α) {lo lo' : Nat} (m : List (Nat × α)) (h : lo' ≤ lo)
    (hm : canonicalFrom d lo m = true) : canonicalFrom d lo' m = true := by
  cases m with
  | nil => rfl
  | cons e m =>
    simp only [canonicalFrom, Bool.and_eq_true, decide_eq_true_eq] at *
    exact ⟨⟨by omega, hm.1.2⟩, hm.2⟩

theorem canonicalFrom_aDrop (d : Nat → α) (k : Nat) (m : List (Nat × α)) (lo : Nat)
    (hm : canonicalFrom d lo m = true) : canonicalFrom d lo (aDrop k m) = true := by
  induction m generalizing lo with
  | nil => rfl
  | cons e m ih =>
    simp only [canonicalFrom, Bool.and_eq_true, decide_eq_true_eq] at hm
    by_cases hk : e.1 = k
    · simp only [aDrop, hk, if_true]
      exact canonicalFrom_mono d _ (by omega) (ih _ hm.2)
    · simp only [aDrop, hk, if_false, canonicalFrom, Bool.and_eq_true, decide_eq_true_eq]
      exact ⟨hm.1, ih _ hm.2⟩

theorem canonicalFrom_aInsert (d : Nat → α) (k : Nat) (v : α) (m : List (Nat × α)) (lo : Nat) (hlo : lo ≤ k)
    (hv : v ≠ d k) (hn : aFind k m = none) (hm : canonicalFrom d lo m = true) :
    canonicalFrom d lo (aInsert k v m) = true := by
  induction m generalizing lo with
  | nil => simp [aInsert, canonicalFrom, hlo, hv]
  | cons e m ih =>
    simp only [canonicalFrom, Bool.and_eq_true, decide_eq_true_eq] at hm
    have hne : e.1 ≠ k := by
      intro h; simp [aFind, h] at hn
    simp only [aFind, hne, if_false] at hn
    by_cases hl : k < e.1
    · simp only [aInsert, hl, if_true, canonicalFrom, Bool.and_eq_true, decide_eq_true_eq]
      exact ⟨⟨hlo, hv⟩, ⟨by omega, hm.1.2⟩, hm.2⟩
    · simp only [aInsert, hl, if_false, canonicalFrom, Bool.and_eq_true, decide_eq_true_eq]
      exact ⟨hm.1, ih _ (by omega) hn hm.2⟩

/-- A write keeps the canonical form. -/
theorem canonical_aPut (d : Nat → α) (k : Nat) (v : α) (m : List (Nat × α)) (hm : canonical d m = true) :
    canonical d (aPut d k v m) = true := by
  unfold aPut
  split
  · exact canonicalFrom_aDrop d k m 0 hm
  · rename_i h
    exact canonicalFrom_aInsert d k v _ 0 (Nat.zero_le _) h (aFind_aDrop_same k m) (canonicalFrom_aDrop d k m 0 hm)

/-- So does a run of writes. -/
theorem canonical_aPutList (d : Nat → α) (k : Nat) (vs : List α) (m : List (Nat × α)) (hm : canonical d m = true) :
    canonical d (aPutList d k vs m) = true := by
  induction vs generalizing k m with
  | nil => exact hm
  | cons v vs ih => exact ih _ _ (canonical_aPut d k v m hm)

/-- And forgetting entries. -/
theorem canonicalFrom_filter (d : Nat → α) (p : Nat × α → Bool) (m : List (Nat × α)) (lo : Nat)
    (hm : canonicalFrom d lo m = true) : canonicalFrom d lo (m.filter p) = true := by
  induction m generalizing lo with
  | nil => rfl
  | cons e m ih =>
    simp only [canonicalFrom, Bool.and_eq_true, decide_eq_true_eq] at hm
    by_cases hp : p e = true
    · simp only [List.filter, hp, canonicalFrom, Bool.and_eq_true, decide_eq_true_eq]
      exact ⟨hm.1, ih _ hm.2⟩
    · simp only [List.filter, hp]
      exact canonicalFrom_mono d _ (by omega) (ih _ hm.2)

/-- What a run of writes leaves at an address. -/
theorem aGet_aPutList (d : Nat → α) (k : Nat) (vs : List α) (m : List (Nat × α)) (j : Nat) :
    aGet d (aPutList d k vs m) j = if h : k ≤ j ∧ j < k + vs.length then vs[j - k]'(by omega) else aGet d m j := by
  induction vs generalizing k m with
  | nil =>
    have h : ¬ (k ≤ j ∧ j < k + ([] : List α).length) := by simp
    rw [dif_neg h]; rfl
  | cons v vs ih =>
    rw [aPutList, ih, aGet_aPut]
    by_cases h0 : j = k
    · subst h0
      have h1 : ¬ (j + 1 ≤ j ∧ j < j + 1 + vs.length) := by omega
      have h2 : j ≤ j ∧ j < j + (v :: vs).length := by simp only [List.length_cons]; omega
      rw [dif_neg h1, dif_pos h2, if_pos rfl]
      simp
    · by_cases h1 : k + 1 ≤ j ∧ j < k + 1 + vs.length
      · have h2 : k ≤ j ∧ j < k + (v :: vs).length := by simp only [List.length_cons]; omega
        rw [dif_pos h1, dif_pos h2]
        have e : j - k = (j - (k + 1)) + 1 := by omega
        simp [e]
      · have h2 : ¬ (k ≤ j ∧ j < k + (v :: vs).length) := by simp only [List.length_cons]; omega
        rw [dif_neg h1, dif_neg h2, if_neg h0]

end

end Sys2Proof.Machine
end

