-- ==== Sys2Proof/Laws/Regs.lean ====
section
/-! SUPPORT. Bit fields and registers: a field read after a write of a field. -/

namespace Sys2Proof.Machine

open Sys2Proof

/-! ### Bit fields -/

theorem bits_lt (n lo len : Nat) : bits n lo len < 2 ^ len := Nat.mod_lt _ (Nat.two_pow_pos _)

theorem setBits_div (n lo len v : Nat) :
    setBits n lo len v / 2 ^ lo = 2 ^ len * (n / 2 ^ lo / 2 ^ len) + v % 2 ^ len := by
  unfold setBits bits
  rw [Nat.add_mul_div_right _ _ (Nat.two_pow_pos lo), Nat.mul_comm, Nat.sub_mul_div]
  have h := Nat.div_add_mod (n / 2 ^ lo) (2 ^ len)
  omega

/-- A field reads what was written to it, cut to its length. -/
theorem bits_setBits_same (n lo len v : Nat) : bits (setBits n lo len v) lo len = v % 2 ^ len := by
  rw [bits, setBits_div, Nat.mul_add_mod]
  exact Nat.mod_mod _ _

theorem setBits_mod (n lo len v k : Nat) (h : k ≤ lo) : setBits n lo len v % 2 ^ k = n % 2 ^ k := by
  obtain ⟨c, rfl⟩ := Nat.exists_eq_add_of_le h
  have hle : bits n (k + c) len * 2 ^ (k + c) ≤ n := by
    unfold bits
    calc n / 2 ^ (k + c) % 2 ^ len * 2 ^ (k + c) ≤ n / 2 ^ (k + c) * 2 ^ (k + c) :=
          Nat.mul_le_mul_right _ (Nat.mod_le _ _)
      _ ≤ n := Nat.div_mul_le_self _ _
  have e : n = (n - bits n (k + c) len * 2 ^ (k + c)) + bits n (k + c) len * 2 ^ (k + c) := by omega
  have hz : ∀ y : Nat, y * 2 ^ (k + c) % 2 ^ k = 0 := by
    intro y
    rw [Nat.pow_add, Nat.mul_comm (2 ^ k), ← Nat.mul_assoc]
    exact Nat.mul_mod_left _ _
  unfold setBits
  rw [Nat.add_mod, hz]
  conv => rhs; rw [e, Nat.add_mod, hz]

/-- A write of a field leaves every field beside it. -/
theorem bits_setBits_disjoint (n lo len v lo' len' : Nat) (h : lo' + len' ≤ lo ∨ lo + len ≤ lo') :
    bits (setBits n lo len v) lo' len' = bits n lo' len' := by
  rcases h with h | h
  · have e : ∀ m : Nat, bits m lo' len' = m % 2 ^ (lo' + len') / 2 ^ lo' := by
      intro m
      rw [bits, Nat.pow_add, Nat.mod_mul_right_div_self]
    rw [e, e, setBits_mod _ _ _ _ _ h]
  · obtain ⟨c, rfl⟩ := Nat.exists_eq_add_of_le h
    have e : ∀ m : Nat, bits m (lo + len + c) len' = m / 2 ^ lo / 2 ^ len / 2 ^ c % 2 ^ len' := by
      intro m
      rw [bits, Nat.pow_add, Nat.pow_add, ← Nat.div_div_eq_div_mul, ← Nat.div_div_eq_div_mul]
    rw [e, e, setBits_div]
    congr 2
    rw [Nat.mul_add_div (Nat.two_pow_pos len), Nat.div_eq_of_lt (Nat.mod_lt _ (Nat.two_pow_pos len)), Nat.add_zero]

theorem bits_ofNat64 (n lo len : Nat) (h : lo + len ≤ 64) : bits (BitVec.ofNat 64 n).toNat lo len = bits n lo len := by
  have e : ∀ m : Nat, bits m lo len = m % 2 ^ (lo + len) / 2 ^ lo := by
    intro m
    rw [bits, Nat.pow_add, Nat.mod_mul_right_div_self]
  rw [e, e, BitVec.toNat_ofNat, Nat.mod_mod_of_dvd _ (Nat.pow_dvd_pow 2 h)]

@[simp] theorem bits_mod (n lo len : Nat) : bits n lo len % 2 ^ len = bits n lo len :=
  Nat.mod_eq_of_lt (bits_lt n lo len)

/-! ### Keys -/

theorem Reg.all_get (r : Reg) : Reg.all[r.ctorIdx]? = some r := by cases r <;> rfl

theorem Reg.ctorIdx_lt (r : Reg) : r.ctorIdx < 256 := by cases r <;> decide

theorem Reg.ctorIdx_inj {r s : Reg} (h : r.ctorIdx = s.ctorIdx) : r = s := by
  have h1 := Reg.all_get r
  rw [h, Reg.all_get s] at h1
  exact (Option.some.inj h1).symm

/-- Two copies of registers share no key. -/
theorem Reg.key_inj {r s : Reg} {i j : Nat} : r.key i = s.key j ↔ r = s ∧ i = j := by
  have h1 := Reg.ctorIdx_lt r
  have h2 := Reg.ctorIdx_lt s
  constructor
  · intro h
    unfold Reg.key at h
    exact ⟨Reg.ctorIdx_inj (by omega), by omega⟩
  · rintro ⟨rfl, rfl⟩; rfl

/-- A key that no write has listed reads its register's reset value. -/
theorem regDefault_key (r : Reg) (i : Nat) : regDefault (r.key i) = r.init i := by
  have h1 := Reg.ctorIdx_lt r
  have h2 : r.key i % 256 = r.ctorIdx := by unfold Reg.key; omega
  have h3 : r.key i / 256 = i := by unfold Reg.key; omega
  simp [regDefault, h2, h3, Reg.all_get]

/-! ### Registers -/

@[simp] theorem Hub.reg_setReg_same (h : Hub) (r : Reg) (i : Nat) (v : Word) : (h.setReg r i v).reg r i = v := by
  simp [Hub.reg, Hub.setReg]

theorem Hub.reg_setReg (h : Hub) (r s : Reg) (i j : Nat) (v : Word) :
    (h.setReg r i v).reg s j = if s = r ∧ j = i then v else h.reg s j := by
  simp only [Hub.reg, Hub.setReg, aGet_aPut, Reg.key_inj]

theorem Hub.reg_setReg_ne (h : Hub) {r s : Reg} (i j : Nat) (v : Word) (hn : s ≠ r) :
    (h.setReg r i v).reg s j = h.reg s j := by simp [Hub.reg_setReg, hn]

theorem Hub.reg_setReg_copy (h : Hub) {r s : Reg} {i j : Nat} (v : Word) (hn : j ≠ i) :
    (h.setReg r i v).reg s j = h.reg s j := by simp [Hub.reg_setReg, hn]

/-- A field reads what was put into it, cut to its length. -/
theorem Hub.get_put_same (h : Hub) (f : Fld) (i v : Nat) (hf : f.lo + f.len ≤ 64) :
    (h.put f i v).get f i = v % 2 ^ f.len := by
  simp only [Hub.get, Hub.put, Hub.reg_setReg_same]
  rw [bits_ofNat64 _ _ _ hf, bits_setBits_same]

/-- A put leaves the fields of every other register. -/
theorem Hub.get_put_reg (h : Hub) {f g : Fld} (i j v : Nat) (hn : g.reg ≠ f.reg) :
    (h.put f i v).get g j = h.get g j := by
  simp only [Hub.get, Hub.put, Hub.reg_setReg_ne _ _ _ _ hn]

/-- A put leaves every other copy. -/
theorem Hub.get_put_copy (h : Hub) {f g : Fld} {i j : Nat} (v : Nat) (hn : j ≠ i) :
    (h.put f i v).get g j = h.get g j := by
  simp only [Hub.get, Hub.put, Hub.reg_setReg_copy _ _ hn]

/-- A put leaves the other fields of its register. -/
theorem Hub.get_put_field (h : Hub) {f g : Fld} (i j v : Nat) (hg : g.lo + g.len ≤ 64)
    (hd : g.lo + g.len ≤ f.lo ∨ f.lo + f.len ≤ g.lo) : (h.put f i v).get g j = h.get g j := by
  by_cases hr : g.reg = f.reg
  · by_cases hj : j = i
    · subst hj
      simp only [Hub.get, Hub.put, hr, Hub.reg_setReg_same]
      rw [bits_ofNat64 _ _ _ hg, bits_setBits_disjoint _ _ _ _ _ _ hd]
    · exact Hub.get_put_copy h v hj
  · exact Hub.get_put_reg h i j v hr

theorem Hub.reg_put_reg (h : Hub) {f : Fld} {s : Reg} (i j v : Nat) (hn : s ≠ f.reg) :
    (h.put f i v).reg s j = h.reg s j := by
  simp only [Hub.put, Hub.reg_setReg_ne _ _ _ _ hn]

theorem Hub.reg_put_copy (h : Hub) {f : Fld} {s : Reg} {i j : Nat} (v : Nat) (hn : j ≠ i) :
    (h.put f i v).reg s j = h.reg s j := by
  simp only [Hub.put, Hub.reg_setReg_copy _ _ hn]

theorem Hub.get_setReg_ne (h : Hub) {r : Reg} {g : Fld} (i j : Nat) (v : Word) (hn : g.reg ≠ r) :
    (h.setReg r i v).get g j = h.get g j := by
  simp only [Hub.get, Hub.reg_setReg_ne _ _ _ _ hn]

theorem Hub.get_setReg_same (h : Hub) (g : Fld) (i : Nat) (v : Word) :
    (h.setReg g.reg i v).get g i = bits v.toNat g.lo g.len := by
  simp only [Hub.get, Hub.reg_setReg_same]

/-! ### Memory -/

/-- Reset's memory is in its canonical form. -/
theorem memory_wf_reset : Memory.wf State.reset.hub.mem = true := rfl

/-- Writing a byte keeps the memory's canonical form. -/
theorem Hub.setByte_wf (h : Hub) (a : Nat) (b : Byte) (hm : Memory.wf h.mem = true) :
    Memory.wf (h.setByte a b).mem = true := canonical_aPut memDefault a b h.mem hm

/-- Writing bytes keeps the memory's canonical form. -/
theorem Hub.setBytes_wf (h : Hub) (a : Nat) (bs : List Byte) (hm : Memory.wf h.mem = true) :
    Memory.wf (h.setBytes a bs).mem = true := canonical_aPutList memDefault a bs h.mem hm

/-- Storing a number keeps the memory's canonical form. -/
theorem Hub.wr_wf (h : Hub) (a n v : Nat) (hm : Memory.wf h.mem = true) : Memory.wf (h.wr a n v).mem = true :=
  h.setBytes_wf a _ hm

/-- Losing bytes (a memory that loses its contents) keeps the memory's canonical form. -/
theorem memory_wf_filter (p : Host.Cell → Bool) (m : List Host.Cell) (hm : Memory.wf m = true) :
    Memory.wf (m.filter p) = true := canonicalFrom_filter memDefault p m 0 hm

theorem Hub.byte_setByte (h : Hub) (a j : Nat) (b : Byte) : (h.setByte a b).byte j = if j = a then b else h.byte j := by
  simp only [Hub.byte, Hub.setByte, aGet_aPut]

/-- What a write of bytes leaves at an address. -/
theorem Hub.byte_setBytes (h : Hub) (a : Nat) (bs : List Byte) (j : Nat) :
    (h.setBytes a bs).byte j = if hj : a ≤ j ∧ j < a + bs.length then bs[j - a]'(by omega) else h.byte j := by
  simp only [Hub.byte, Hub.setBytes, aGet_aPutList]

theorem bytesLE_length (n v : Nat) : (bytesLE n v).length = n := by
  induction n generalizing v with
  | zero => rfl
  | succ n ih => simp [bytesLE, ih]

/-- A store of `n` bytes leaves every byte outside them. -/
theorem Hub.byte_wr_outside (h : Hub) (a n v j : Nat) (hj : j < a ∨ a + n ≤ j) : (h.wr a n v).byte j = h.byte j := by
  rw [Hub.wr, Hub.byte_setBytes, dif_neg]
  rw [bytesLE_length]; omega

end Sys2Proof.Machine
end

