-- ==== Sys2Proof/Laws/State.lean ====
section
/-! SUPPORT. What each update of the hub leaves: one lemma for each field and each reading, true by unfolding the update. -/

namespace Sys2Proof.Machine

open Sys2Proof

/-! ### `setReg` -/

@[simp] theorem Hub.setReg_shadow (h : Hub) (r : Reg) (i : Nat) (v : Word) : (h.setReg r i v).shadow = h.shadow := rfl
@[simp] theorem Hub.setReg_mem (h : Hub) (r : Reg) (i : Nat) (v : Word) : (h.setReg r i v).mem = h.mem := rfl
@[simp] theorem Hub.setReg_fresh (h : Hub) (r : Reg) (i : Nat) (v : Word) : (h.setReg r i v).fresh = h.fresh := rfl
@[simp] theorem Hub.setReg_owedStep (h : Hub) (r : Reg) (i : Nat) (v : Word) : (h.setReg r i v).owedStep = h.owedStep := rfl
@[simp] theorem Hub.setReg_powered (h : Hub) (r : Reg) (i : Nat) (v : Word) : (h.setReg r i v).powered = h.powered := rfl
@[simp] theorem Hub.setReg_cut (h : Hub) (r : Reg) (i : Nat) (v : Word) : (h.setReg r i v).cut = h.cut := rfl
@[simp] theorem Hub.setReg_booting (h : Hub) (r : Reg) (i : Nat) (v : Word) : (h.setReg r i v).booting = h.booting := rfl
@[simp] theorem Hub.setReg_failover (h : Hub) (r : Reg) (i : Nat) (v : Word) : (h.setReg r i v).failover = h.failover := rfl
@[simp] theorem Hub.setReg_retired (h : Hub) (r : Reg) (i : Nat) (v : Word) : (h.setReg r i v).retired = h.retired := rfl
@[simp] theorem Hub.setReg_time (h : Hub) (r : Reg) (i : Nat) (v : Word) : (h.setReg r i v).time = h.time := rfl
@[simp] theorem Hub.setReg_spokes (h : Hub) (r : Reg) (i : Nat) (v : Word) : (h.setReg r i v).spokes = h.spokes := rfl
@[simp] theorem Hub.setReg_nodes (h : Hub) (r : Reg) (i : Nat) (v : Word) : (h.setReg r i v).nodes = h.nodes := rfl
@[simp] theorem Hub.setReg_quenchReqs (h : Hub) (r : Reg) (i : Nat) (v : Word) : (h.setReg r i v).quenchReqs = h.quenchReqs := rfl
@[simp] theorem Hub.setReg_ramps (h : Hub) (r : Reg) (i : Nat) (v : Word) : (h.setReg r i v).ramps = h.ramps := rfl
@[simp] theorem Hub.setReg_reheat (h : Hub) (r : Reg) (i : Nat) (v : Word) : (h.setReg r i v).reheat = h.reheat := rfl
@[simp] theorem Hub.setReg_rails (h : Hub) (r : Reg) (i : Nat) (v : Word) : (h.setReg r i v).rails = h.rails := rfl
@[simp] theorem Hub.setReg_ovh (h : Hub) (r : Reg) (i : Nat) (v : Word) : (h.setReg r i v).ovh = h.ovh := rfl
@[simp] theorem Hub.setReg_chipReset (h : Hub) (r : Reg) (i : Nat) (v : Word) : (h.setReg r i v).chipReset = h.chipReset := rfl
@[simp] theorem Hub.setReg_captures (h : Hub) (r : Reg) (i : Nat) (v : Word) : (h.setReg r i v).captures = h.captures := rfl
@[simp] theorem Hub.setReg_captureSeq (h : Hub) (r : Reg) (i : Nat) (v : Word) : (h.setReg r i v).captureSeq = h.captureSeq := rfl
@[simp] theorem Hub.setReg_plans (h : Hub) (r : Reg) (i : Nat) (v : Word) : (h.setReg r i v).plans = h.plans := rfl
@[simp] theorem Hub.setReg_doneJobs (h : Hub) (r : Reg) (i : Nat) (v : Word) : (h.setReg r i v).doneJobs = h.doneJobs := rfl
@[simp] theorem Hub.setReg_heldJobs (h : Hub) (r : Reg) (i : Nat) (v : Word) : (h.setReg r i v).heldJobs = h.heldJobs := rfl
@[simp] theorem Hub.setReg_swg (h : Hub) (r : Reg) (i : Nat) (v : Word) : (h.setReg r i v).swg = h.swg := rfl
@[simp] theorem Hub.setReg_swgSeq (h : Hub) (r : Reg) (i : Nat) (v : Word) : (h.setReg r i v).swgSeq = h.swgSeq := rfl
@[simp] theorem Hub.setReg_swgTurn (h : Hub) (r : Reg) (i : Nat) (v : Word) : (h.setReg r i v).swgTurn = h.swgTurn := rfl
@[simp] theorem Hub.setReg_hostPath (h : Hub) (r : Reg) (i : Nat) (v : Word) : (h.setReg r i v).hostPath = h.hostPath := rfl
@[simp] theorem Hub.setReg_xtrigUntil (h : Hub) (r : Reg) (i : Nat) (v : Word) : (h.setReg r i v).xtrigUntil = h.xtrigUntil := rfl
@[simp] theorem Hub.setReg_spine (h : Hub) (r : Reg) (i : Nat) (v : Word) : (h.setReg r i v).spine = h.spine := rfl
@[simp] theorem Hub.setReg_emberExitAt (h : Hub) (r : Reg) (i : Nat) (v : Word) : (h.setReg r i v).emberExitAt = h.emberExitAt := rfl
@[simp] theorem Hub.setReg_ctxs (h : Hub) (r : Reg) (i : Nat) (v : Word) : (h.setReg r i v).ctxs = h.ctxs := rfl
@[simp] theorem Hub.setReg_wheelNotes (h : Hub) (r : Reg) (i : Nat) (v : Word) : (h.setReg r i v).wheelNotes = h.wheelNotes := rfl
@[simp] theorem Hub.setReg_wfg (h : Hub) (r : Reg) (i : Nat) (v : Word) : (h.setReg r i v).wfg = h.wfg := rfl
@[simp] theorem Hub.setReg_lanes (h : Hub) (r : Reg) (i : Nat) (v : Word) : (h.setReg r i v).lanes = h.lanes := rfl
@[simp] theorem Hub.setReg_resetStarts (h : Hub) (r : Reg) (i : Nat) (v : Word) : (h.setReg r i v).resetStarts = h.resetStarts := rfl
@[simp] theorem Hub.setReg_seeds (h : Hub) (r : Reg) (i : Nat) (v : Word) : (h.setReg r i v).seeds = h.seeds := rfl
@[simp] theorem Hub.setReg_retrains (h : Hub) (r : Reg) (i : Nat) (v : Word) : (h.setReg r i v).retrains = h.retrains := rfl
@[simp] theorem Hub.setReg_emberActs (h : Hub) (r : Reg) (i : Nat) (v : Word) : (h.setReg r i v).emberActs = h.emberActs := rfl
@[simp] theorem Hub.setReg_laneMoves (h : Hub) (r : Reg) (i : Nat) (v : Word) : (h.setReg r i v).laneMoves = h.laneMoves := rfl
@[simp] theorem Hub.setReg_warmReq (h : Hub) (r : Reg) (i : Nat) (v : Word) : (h.setReg r i v).warmReq = h.warmReq := rfl
@[simp] theorem Hub.setReg_ledger (h : Hub) (r : Reg) (i : Nat) (v : Word) : (h.setReg r i v).ledger = h.ledger := rfl
@[simp] theorem Hub.setReg_failoverAt (h : Hub) (r : Reg) (i : Nat) (v : Word) : (h.setReg r i v).failoverAt = h.failoverAt := rfl
@[simp] theorem Hub.setReg_units (h : Hub) (r : Reg) (i : Nat) (v : Word) : (h.setReg r i v).units = h.units := rfl
@[simp] theorem Hub.setReg_cmds (h : Hub) (r : Reg) (i : Nat) (v : Word) : (h.setReg r i v).cmds = h.cmds := rfl
@[simp] theorem Hub.setReg_nextCmd (h : Hub) (r : Reg) (i : Nat) (v : Word) : (h.setReg r i v).nextCmd = h.nextCmd := rfl
@[simp] theorem Hub.setReg_txns (h : Hub) (r : Reg) (i : Nat) (v : Word) : (h.setReg r i v).txns = h.txns := rfl
@[simp] theorem Hub.setReg_cores (h : Hub) (r : Reg) (i : Nat) (v : Word) : (h.setReg r i v).cores = h.cores := rfl
@[simp] theorem Hub.setReg_masters (h : Hub) (r : Reg) (i : Nat) (v : Word) : (h.setReg r i v).masters = h.masters := rfl
@[simp] theorem Hub.setReg_locks (h : Hub) (r : Reg) (i : Nat) (v : Word) : (h.setReg r i v).locks = h.locks := rfl
@[simp] theorem Hub.setReg_links (h : Hub) (r : Reg) (i : Nat) (v : Word) : (h.setReg r i v).links = h.links := rfl
@[simp] theorem Hub.setReg_mail (h : Hub) (r : Reg) (i : Nat) (v : Word) : (h.setReg r i v).mail = h.mail := rfl
@[simp] theorem Hub.setReg_notices (h : Hub) (r : Reg) (i : Nat) (v : Word) : (h.setReg r i v).notices = h.notices := rfl
@[simp] theorem Hub.setReg_heldNotices (h : Hub) (r : Reg) (i : Nat) (v : Word) : (h.setReg r i v).heldNotices = h.heldNotices := rfl
@[simp] theorem Hub.setReg_heldEvents (h : Hub) (r : Reg) (i : Nat) (v : Word) : (h.setReg r i v).heldEvents = h.heldEvents := rfl
@[simp] theorem Hub.setReg_out (h : Hub) (r : Reg) (i : Nat) (v : Word) : (h.setReg r i v).out = h.out := rfl
@[simp] theorem Hub.setReg_load (h : Hub) (r : Reg) (i : Nat) (v : Word) : (h.setReg r i v).load = h.load := rfl
@[simp] theorem Hub.setReg_offers (h : Hub) (r : Reg) (i : Nat) (v : Word) : (h.setReg r i v).offers = h.offers := rfl
@[simp] theorem Hub.setReg_arms (h : Hub) (r : Reg) (i : Nat) (v : Word) : (h.setReg r i v).arms = h.arms := rfl
@[simp] theorem Hub.setReg_fail (h : Hub) (r : Reg) (i : Nat) (v : Word) : (h.setReg r i v).fail = h.fail := rfl
@[simp] theorem Hub.setReg_upd (h : Hub) (r : Reg) (i : Nat) (v : Word) : (h.setReg r i v).upd = h.upd := rfl
@[simp] theorem Hub.setReg_mapOp (h : Hub) (r : Reg) (i : Nat) (v : Word) : (h.setReg r i v).mapOp = h.mapOp := rfl
@[simp] theorem Hub.setReg_recal (h : Hub) (r : Reg) (i : Nat) (v : Word) : (h.setReg r i v).recal = h.recal := rfl
@[simp] theorem Hub.setReg_boot (h : Hub) (r : Reg) (i : Nat) (v : Word) : (h.setReg r i v).boot = h.boot := rfl
@[simp] theorem Hub.setReg_seq (h : Hub) (r : Reg) (i : Nat) (v : Word) : (h.setReg r i v).seq = h.seq := rfl
@[simp] theorem Hub.setReg_spdm (h : Hub) (r : Reg) (i : Nat) (v : Word) : (h.setReg r i v).spdm = h.spdm := rfl
@[simp] theorem Hub.setReg_sess (h : Hub) (r : Reg) (i : Nat) (v : Word) : (h.setReg r i v).sess = h.sess := rfl
@[simp] theorem Hub.setReg_vyn (h : Hub) (r : Reg) (i : Nat) (v : Word) : (h.setReg r i v).vyn = h.vyn := rfl
@[simp] theorem Hub.setReg_exports (h : Hub) (r : Reg) (i : Nat) (v : Word) : (h.setReg r i v).exports = h.exports := rfl
@[simp] theorem Hub.setReg_rcptKeys (h : Hub) (r : Reg) (i : Nat) (v : Word) : (h.setReg r i v).rcptKeys = h.rcptKeys := rfl
@[simp] theorem Hub.setReg_mctp (h : Hub) (r : Reg) (i : Nat) (v : Word) : (h.setReg r i v).mctp = h.mctp := rfl
@[simp] theorem Hub.setReg_i3c (h : Hub) (r : Reg) (i : Nat) (v : Word) : (h.setReg r i v).i3c = h.i3c := rfl
@[simp] theorem Hub.setReg_tap (h : Hub) (r : Reg) (i : Nat) (v : Word) : (h.setReg r i v).tap = h.tap := rfl
@[simp] theorem Hub.byte_setReg (h : Hub) (r : Reg) (i : Nat) (v : Word) (a' : Nat) : (h.setReg r i v).byte a' = h.byte a' := rfl
@[simp] theorem Hub.core_setReg (h : Hub) (r : Reg) (i : Nat) (v : Word) (c : Nat) : (h.setReg r i v).core c = h.core c := rfl
@[simp] theorem Hub.unit_setReg (h : Hub) (r : Reg) (i : Nat) (v : Word) (u : Nat) : (h.setReg r i v).unit u = h.unit u := rfl
@[simp] theorem Hub.spoke_setReg (h : Hub) (r : Reg) (i : Nat) (v : Word) (n' : Nat) : (h.setReg r i v).spoke n' = h.spoke n' := rfl
@[simp] theorem Hub.master_setReg (h : Hub) (r : Reg) (i : Nat) (v : Word) (m' : Master) : (h.setReg r i v).master m' = h.master m' := rfl
@[simp] theorem Hub.lock_setReg (h : Hub) (r : Reg) (i : Nat) (v : Word) (l : Nat) : (h.setReg r i v).lock l = h.lock l := rfl
@[simp] theorem Hub.link_setReg (h : Hub) (r : Reg) (i : Nat) (v : Word) (l : Nat) : (h.setReg r i v).link l = h.link l := rfl

/-! ### `put` -/

@[simp] theorem Hub.put_shadow (h : Hub) (f : Fld) (i v : Nat) : (h.put f i v).shadow = h.shadow := rfl
@[simp] theorem Hub.put_mem (h : Hub) (f : Fld) (i v : Nat) : (h.put f i v).mem = h.mem := rfl
@[simp] theorem Hub.put_fresh (h : Hub) (f : Fld) (i v : Nat) : (h.put f i v).fresh = h.fresh := rfl
@[simp] theorem Hub.put_owedStep (h : Hub) (f : Fld) (i v : Nat) : (h.put f i v).owedStep = h.owedStep := rfl
@[simp] theorem Hub.put_powered (h : Hub) (f : Fld) (i v : Nat) : (h.put f i v).powered = h.powered := rfl
@[simp] theorem Hub.put_cut (h : Hub) (f : Fld) (i v : Nat) : (h.put f i v).cut = h.cut := rfl
@[simp] theorem Hub.put_booting (h : Hub) (f : Fld) (i v : Nat) : (h.put f i v).booting = h.booting := rfl
@[simp] theorem Hub.put_failover (h : Hub) (f : Fld) (i v : Nat) : (h.put f i v).failover = h.failover := rfl
@[simp] theorem Hub.put_retired (h : Hub) (f : Fld) (i v : Nat) : (h.put f i v).retired = h.retired := rfl
@[simp] theorem Hub.put_time (h : Hub) (f : Fld) (i v : Nat) : (h.put f i v).time = h.time := rfl
@[simp] theorem Hub.put_spokes (h : Hub) (f : Fld) (i v : Nat) : (h.put f i v).spokes = h.spokes := rfl
@[simp] theorem Hub.put_nodes (h : Hub) (f : Fld) (i v : Nat) : (h.put f i v).nodes = h.nodes := rfl
@[simp] theorem Hub.put_quenchReqs (h : Hub) (f : Fld) (i v : Nat) : (h.put f i v).quenchReqs = h.quenchReqs := rfl
@[simp] theorem Hub.put_ramps (h : Hub) (f : Fld) (i v : Nat) : (h.put f i v).ramps = h.ramps := rfl
@[simp] theorem Hub.put_reheat (h : Hub) (f : Fld) (i v : Nat) : (h.put f i v).reheat = h.reheat := rfl
@[simp] theorem Hub.put_rails (h : Hub) (f : Fld) (i v : Nat) : (h.put f i v).rails = h.rails := rfl
@[simp] theorem Hub.put_ovh (h : Hub) (f : Fld) (i v : Nat) : (h.put f i v).ovh = h.ovh := rfl
@[simp] theorem Hub.put_chipReset (h : Hub) (f : Fld) (i v : Nat) : (h.put f i v).chipReset = h.chipReset := rfl
@[simp] theorem Hub.put_captures (h : Hub) (f : Fld) (i v : Nat) : (h.put f i v).captures = h.captures := rfl
@[simp] theorem Hub.put_captureSeq (h : Hub) (f : Fld) (i v : Nat) : (h.put f i v).captureSeq = h.captureSeq := rfl
@[simp] theorem Hub.put_plans (h : Hub) (f : Fld) (i v : Nat) : (h.put f i v).plans = h.plans := rfl
@[simp] theorem Hub.put_doneJobs (h : Hub) (f : Fld) (i v : Nat) : (h.put f i v).doneJobs = h.doneJobs := rfl
@[simp] theorem Hub.put_heldJobs (h : Hub) (f : Fld) (i v : Nat) : (h.put f i v).heldJobs = h.heldJobs := rfl
@[simp] theorem Hub.put_swg (h : Hub) (f : Fld) (i v : Nat) : (h.put f i v).swg = h.swg := rfl
@[simp] theorem Hub.put_swgSeq (h : Hub) (f : Fld) (i v : Nat) : (h.put f i v).swgSeq = h.swgSeq := rfl
@[simp] theorem Hub.put_swgTurn (h : Hub) (f : Fld) (i v : Nat) : (h.put f i v).swgTurn = h.swgTurn := rfl
@[simp] theorem Hub.put_hostPath (h : Hub) (f : Fld) (i v : Nat) : (h.put f i v).hostPath = h.hostPath := rfl
@[simp] theorem Hub.put_xtrigUntil (h : Hub) (f : Fld) (i v : Nat) : (h.put f i v).xtrigUntil = h.xtrigUntil := rfl
@[simp] theorem Hub.put_spine (h : Hub) (f : Fld) (i v : Nat) : (h.put f i v).spine = h.spine := rfl
@[simp] theorem Hub.put_emberExitAt (h : Hub) (f : Fld) (i v : Nat) : (h.put f i v).emberExitAt = h.emberExitAt := rfl
@[simp] theorem Hub.put_ctxs (h : Hub) (f : Fld) (i v : Nat) : (h.put f i v).ctxs = h.ctxs := rfl
@[simp] theorem Hub.put_wheelNotes (h : Hub) (f : Fld) (i v : Nat) : (h.put f i v).wheelNotes = h.wheelNotes := rfl
@[simp] theorem Hub.put_wfg (h : Hub) (f : Fld) (i v : Nat) : (h.put f i v).wfg = h.wfg := rfl
@[simp] theorem Hub.put_lanes (h : Hub) (f : Fld) (i v : Nat) : (h.put f i v).lanes = h.lanes := rfl
@[simp] theorem Hub.put_resetStarts (h : Hub) (f : Fld) (i v : Nat) : (h.put f i v).resetStarts = h.resetStarts := rfl
@[simp] theorem Hub.put_seeds (h : Hub) (f : Fld) (i v : Nat) : (h.put f i v).seeds = h.seeds := rfl
@[simp] theorem Hub.put_retrains (h : Hub) (f : Fld) (i v : Nat) : (h.put f i v).retrains = h.retrains := rfl
@[simp] theorem Hub.put_emberActs (h : Hub) (f : Fld) (i v : Nat) : (h.put f i v).emberActs = h.emberActs := rfl
@[simp] theorem Hub.put_laneMoves (h : Hub) (f : Fld) (i v : Nat) : (h.put f i v).laneMoves = h.laneMoves := rfl
@[simp] theorem Hub.put_warmReq (h : Hub) (f : Fld) (i v : Nat) : (h.put f i v).warmReq = h.warmReq := rfl
@[simp] theorem Hub.put_ledger (h : Hub) (f : Fld) (i v : Nat) : (h.put f i v).ledger = h.ledger := rfl
@[simp] theorem Hub.put_failoverAt (h : Hub) (f : Fld) (i v : Nat) : (h.put f i v).failoverAt = h.failoverAt := rfl
@[simp] theorem Hub.put_units (h : Hub) (f : Fld) (i v : Nat) : (h.put f i v).units = h.units := rfl
@[simp] theorem Hub.put_cmds (h : Hub) (f : Fld) (i v : Nat) : (h.put f i v).cmds = h.cmds := rfl
@[simp] theorem Hub.put_nextCmd (h : Hub) (f : Fld) (i v : Nat) : (h.put f i v).nextCmd = h.nextCmd := rfl
@[simp] theorem Hub.put_txns (h : Hub) (f : Fld) (i v : Nat) : (h.put f i v).txns = h.txns := rfl
@[simp] theorem Hub.put_cores (h : Hub) (f : Fld) (i v : Nat) : (h.put f i v).cores = h.cores := rfl
@[simp] theorem Hub.put_masters (h : Hub) (f : Fld) (i v : Nat) : (h.put f i v).masters = h.masters := rfl
@[simp] theorem Hub.put_locks (h : Hub) (f : Fld) (i v : Nat) : (h.put f i v).locks = h.locks := rfl
@[simp] theorem Hub.put_links (h : Hub) (f : Fld) (i v : Nat) : (h.put f i v).links = h.links := rfl
@[simp] theorem Hub.put_mail (h : Hub) (f : Fld) (i v : Nat) : (h.put f i v).mail = h.mail := rfl
@[simp] theorem Hub.put_notices (h : Hub) (f : Fld) (i v : Nat) : (h.put f i v).notices = h.notices := rfl
@[simp] theorem Hub.put_heldNotices (h : Hub) (f : Fld) (i v : Nat) : (h.put f i v).heldNotices = h.heldNotices := rfl
@[simp] theorem Hub.put_heldEvents (h : Hub) (f : Fld) (i v : Nat) : (h.put f i v).heldEvents = h.heldEvents := rfl
@[simp] theorem Hub.put_out (h : Hub) (f : Fld) (i v : Nat) : (h.put f i v).out = h.out := rfl
@[simp] theorem Hub.put_load (h : Hub) (f : Fld) (i v : Nat) : (h.put f i v).load = h.load := rfl
@[simp] theorem Hub.put_offers (h : Hub) (f : Fld) (i v : Nat) : (h.put f i v).offers = h.offers := rfl
@[simp] theorem Hub.put_arms (h : Hub) (f : Fld) (i v : Nat) : (h.put f i v).arms = h.arms := rfl
@[simp] theorem Hub.put_fail (h : Hub) (f : Fld) (i v : Nat) : (h.put f i v).fail = h.fail := rfl
@[simp] theorem Hub.put_upd (h : Hub) (f : Fld) (i v : Nat) : (h.put f i v).upd = h.upd := rfl
@[simp] theorem Hub.put_mapOp (h : Hub) (f : Fld) (i v : Nat) : (h.put f i v).mapOp = h.mapOp := rfl
@[simp] theorem Hub.put_recal (h : Hub) (f : Fld) (i v : Nat) : (h.put f i v).recal = h.recal := rfl
@[simp] theorem Hub.put_boot (h : Hub) (f : Fld) (i v : Nat) : (h.put f i v).boot = h.boot := rfl
@[simp] theorem Hub.put_seq (h : Hub) (f : Fld) (i v : Nat) : (h.put f i v).seq = h.seq := rfl
@[simp] theorem Hub.put_spdm (h : Hub) (f : Fld) (i v : Nat) : (h.put f i v).spdm = h.spdm := rfl
@[simp] theorem Hub.put_sess (h : Hub) (f : Fld) (i v : Nat) : (h.put f i v).sess = h.sess := rfl
@[simp] theorem Hub.put_vyn (h : Hub) (f : Fld) (i v : Nat) : (h.put f i v).vyn = h.vyn := rfl
@[simp] theorem Hub.put_exports (h : Hub) (f : Fld) (i v : Nat) : (h.put f i v).exports = h.exports := rfl
@[simp] theorem Hub.put_rcptKeys (h : Hub) (f : Fld) (i v : Nat) : (h.put f i v).rcptKeys = h.rcptKeys := rfl
@[simp] theorem Hub.put_mctp (h : Hub) (f : Fld) (i v : Nat) : (h.put f i v).mctp = h.mctp := rfl
@[simp] theorem Hub.put_i3c (h : Hub) (f : Fld) (i v : Nat) : (h.put f i v).i3c = h.i3c := rfl
@[simp] theorem Hub.put_tap (h : Hub) (f : Fld) (i v : Nat) : (h.put f i v).tap = h.tap := rfl
@[simp] theorem Hub.byte_put (h : Hub) (f : Fld) (i v : Nat) (a' : Nat) : (h.put f i v).byte a' = h.byte a' := rfl
@[simp] theorem Hub.core_put (h : Hub) (f : Fld) (i v : Nat) (c : Nat) : (h.put f i v).core c = h.core c := rfl
@[simp] theorem Hub.unit_put (h : Hub) (f : Fld) (i v : Nat) (u : Nat) : (h.put f i v).unit u = h.unit u := rfl
@[simp] theorem Hub.spoke_put (h : Hub) (f : Fld) (i v : Nat) (n' : Nat) : (h.put f i v).spoke n' = h.spoke n' := rfl
@[simp] theorem Hub.master_put (h : Hub) (f : Fld) (i v : Nat) (m' : Master) : (h.put f i v).master m' = h.master m' := rfl
@[simp] theorem Hub.lock_put (h : Hub) (f : Fld) (i v : Nat) (l : Nat) : (h.put f i v).lock l = h.lock l := rfl
@[simp] theorem Hub.link_put (h : Hub) (f : Fld) (i v : Nat) (l : Nat) : (h.put f i v).link l = h.link l := rfl

/-! ### `setShadow` -/

@[simp] theorem Hub.setShadow_regs (h : Hub) (r : Reg) (i : Nat) (v : Word) : (h.setShadow r i v).regs = h.regs := rfl
@[simp] theorem Hub.setShadow_mem (h : Hub) (r : Reg) (i : Nat) (v : Word) : (h.setShadow r i v).mem = h.mem := rfl
@[simp] theorem Hub.setShadow_fresh (h : Hub) (r : Reg) (i : Nat) (v : Word) : (h.setShadow r i v).fresh = h.fresh := rfl
@[simp] theorem Hub.setShadow_owedStep (h : Hub) (r : Reg) (i : Nat) (v : Word) : (h.setShadow r i v).owedStep = h.owedStep := rfl
@[simp] theorem Hub.setShadow_powered (h : Hub) (r : Reg) (i : Nat) (v : Word) : (h.setShadow r i v).powered = h.powered := rfl
@[simp] theorem Hub.setShadow_cut (h : Hub) (r : Reg) (i : Nat) (v : Word) : (h.setShadow r i v).cut = h.cut := rfl
@[simp] theorem Hub.setShadow_booting (h : Hub) (r : Reg) (i : Nat) (v : Word) : (h.setShadow r i v).booting = h.booting := rfl
@[simp] theorem Hub.setShadow_failover (h : Hub) (r : Reg) (i : Nat) (v : Word) : (h.setShadow r i v).failover = h.failover := rfl
@[simp] theorem Hub.setShadow_retired (h : Hub) (r : Reg) (i : Nat) (v : Word) : (h.setShadow r i v).retired = h.retired := rfl
@[simp] theorem Hub.setShadow_time (h : Hub) (r : Reg) (i : Nat) (v : Word) : (h.setShadow r i v).time = h.time := rfl
@[simp] theorem Hub.setShadow_spokes (h : Hub) (r : Reg) (i : Nat) (v : Word) : (h.setShadow r i v).spokes = h.spokes := rfl
@[simp] theorem Hub.setShadow_nodes (h : Hub) (r : Reg) (i : Nat) (v : Word) : (h.setShadow r i v).nodes = h.nodes := rfl
@[simp] theorem Hub.setShadow_quenchReqs (h : Hub) (r : Reg) (i : Nat) (v : Word) : (h.setShadow r i v).quenchReqs = h.quenchReqs := rfl
@[simp] theorem Hub.setShadow_ramps (h : Hub) (r : Reg) (i : Nat) (v : Word) : (h.setShadow r i v).ramps = h.ramps := rfl
@[simp] theorem Hub.setShadow_reheat (h : Hub) (r : Reg) (i : Nat) (v : Word) : (h.setShadow r i v).reheat = h.reheat := rfl
@[simp] theorem Hub.setShadow_rails (h : Hub) (r : Reg) (i : Nat) (v : Word) : (h.setShadow r i v).rails = h.rails := rfl
@[simp] theorem Hub.setShadow_ovh (h : Hub) (r : Reg) (i : Nat) (v : Word) : (h.setShadow r i v).ovh = h.ovh := rfl
@[simp] theorem Hub.setShadow_chipReset (h : Hub) (r : Reg) (i : Nat) (v : Word) : (h.setShadow r i v).chipReset = h.chipReset := rfl
@[simp] theorem Hub.setShadow_captures (h : Hub) (r : Reg) (i : Nat) (v : Word) : (h.setShadow r i v).captures = h.captures := rfl
@[simp] theorem Hub.setShadow_captureSeq (h : Hub) (r : Reg) (i : Nat) (v : Word) : (h.setShadow r i v).captureSeq = h.captureSeq := rfl
@[simp] theorem Hub.setShadow_plans (h : Hub) (r : Reg) (i : Nat) (v : Word) : (h.setShadow r i v).plans = h.plans := rfl
@[simp] theorem Hub.setShadow_doneJobs (h : Hub) (r : Reg) (i : Nat) (v : Word) : (h.setShadow r i v).doneJobs = h.doneJobs := rfl
@[simp] theorem Hub.setShadow_heldJobs (h : Hub) (r : Reg) (i : Nat) (v : Word) : (h.setShadow r i v).heldJobs = h.heldJobs := rfl
@[simp] theorem Hub.setShadow_swg (h : Hub) (r : Reg) (i : Nat) (v : Word) : (h.setShadow r i v).swg = h.swg := rfl
@[simp] theorem Hub.setShadow_swgSeq (h : Hub) (r : Reg) (i : Nat) (v : Word) : (h.setShadow r i v).swgSeq = h.swgSeq := rfl
@[simp] theorem Hub.setShadow_swgTurn (h : Hub) (r : Reg) (i : Nat) (v : Word) : (h.setShadow r i v).swgTurn = h.swgTurn := rfl
@[simp] theorem Hub.setShadow_hostPath (h : Hub) (r : Reg) (i : Nat) (v : Word) : (h.setShadow r i v).hostPath = h.hostPath := rfl
@[simp] theorem Hub.setShadow_xtrigUntil (h : Hub) (r : Reg) (i : Nat) (v : Word) : (h.setShadow r i v).xtrigUntil = h.xtrigUntil := rfl
@[simp] theorem Hub.setShadow_spine (h : Hub) (r : Reg) (i : Nat) (v : Word) : (h.setShadow r i v).spine = h.spine := rfl
@[simp] theorem Hub.setShadow_emberExitAt (h : Hub) (r : Reg) (i : Nat) (v : Word) : (h.setShadow r i v).emberExitAt = h.emberExitAt := rfl
@[simp] theorem Hub.setShadow_ctxs (h : Hub) (r : Reg) (i : Nat) (v : Word) : (h.setShadow r i v).ctxs = h.ctxs := rfl
@[simp] theorem Hub.setShadow_wheelNotes (h : Hub) (r : Reg) (i : Nat) (v : Word) : (h.setShadow r i v).wheelNotes = h.wheelNotes := rfl
@[simp] theorem Hub.setShadow_wfg (h : Hub) (r : Reg) (i : Nat) (v : Word) : (h.setShadow r i v).wfg = h.wfg := rfl
@[simp] theorem Hub.setShadow_lanes (h : Hub) (r : Reg) (i : Nat) (v : Word) : (h.setShadow r i v).lanes = h.lanes := rfl
@[simp] theorem Hub.setShadow_resetStarts (h : Hub) (r : Reg) (i : Nat) (v : Word) : (h.setShadow r i v).resetStarts = h.resetStarts := rfl
@[simp] theorem Hub.setShadow_seeds (h : Hub) (r : Reg) (i : Nat) (v : Word) : (h.setShadow r i v).seeds = h.seeds := rfl
@[simp] theorem Hub.setShadow_retrains (h : Hub) (r : Reg) (i : Nat) (v : Word) : (h.setShadow r i v).retrains = h.retrains := rfl
@[simp] theorem Hub.setShadow_emberActs (h : Hub) (r : Reg) (i : Nat) (v : Word) : (h.setShadow r i v).emberActs = h.emberActs := rfl
@[simp] theorem Hub.setShadow_laneMoves (h : Hub) (r : Reg) (i : Nat) (v : Word) : (h.setShadow r i v).laneMoves = h.laneMoves := rfl
@[simp] theorem Hub.setShadow_warmReq (h : Hub) (r : Reg) (i : Nat) (v : Word) : (h.setShadow r i v).warmReq = h.warmReq := rfl
@[simp] theorem Hub.setShadow_ledger (h : Hub) (r : Reg) (i : Nat) (v : Word) : (h.setShadow r i v).ledger = h.ledger := rfl
@[simp] theorem Hub.setShadow_failoverAt (h : Hub) (r : Reg) (i : Nat) (v : Word) : (h.setShadow r i v).failoverAt = h.failoverAt := rfl
@[simp] theorem Hub.setShadow_units (h : Hub) (r : Reg) (i : Nat) (v : Word) : (h.setShadow r i v).units = h.units := rfl
@[simp] theorem Hub.setShadow_cmds (h : Hub) (r : Reg) (i : Nat) (v : Word) : (h.setShadow r i v).cmds = h.cmds := rfl
@[simp] theorem Hub.setShadow_nextCmd (h : Hub) (r : Reg) (i : Nat) (v : Word) : (h.setShadow r i v).nextCmd = h.nextCmd := rfl
@[simp] theorem Hub.setShadow_txns (h : Hub) (r : Reg) (i : Nat) (v : Word) : (h.setShadow r i v).txns = h.txns := rfl
@[simp] theorem Hub.setShadow_cores (h : Hub) (r : Reg) (i : Nat) (v : Word) : (h.setShadow r i v).cores = h.cores := rfl
@[simp] theorem Hub.setShadow_masters (h : Hub) (r : Reg) (i : Nat) (v : Word) : (h.setShadow r i v).masters = h.masters := rfl
@[simp] theorem Hub.setShadow_locks (h : Hub) (r : Reg) (i : Nat) (v : Word) : (h.setShadow r i v).locks = h.locks := rfl
@[simp] theorem Hub.setShadow_links (h : Hub) (r : Reg) (i : Nat) (v : Word) : (h.setShadow r i v).links = h.links := rfl
@[simp] theorem Hub.setShadow_mail (h : Hub) (r : Reg) (i : Nat) (v : Word) : (h.setShadow r i v).mail = h.mail := rfl
@[simp] theorem Hub.setShadow_notices (h : Hub) (r : Reg) (i : Nat) (v : Word) : (h.setShadow r i v).notices = h.notices := rfl
@[simp] theorem Hub.setShadow_heldNotices (h : Hub) (r : Reg) (i : Nat) (v : Word) : (h.setShadow r i v).heldNotices = h.heldNotices := rfl
@[simp] theorem Hub.setShadow_heldEvents (h : Hub) (r : Reg) (i : Nat) (v : Word) : (h.setShadow r i v).heldEvents = h.heldEvents := rfl
@[simp] theorem Hub.setShadow_out (h : Hub) (r : Reg) (i : Nat) (v : Word) : (h.setShadow r i v).out = h.out := rfl
@[simp] theorem Hub.setShadow_load (h : Hub) (r : Reg) (i : Nat) (v : Word) : (h.setShadow r i v).load = h.load := rfl
@[simp] theorem Hub.setShadow_offers (h : Hub) (r : Reg) (i : Nat) (v : Word) : (h.setShadow r i v).offers = h.offers := rfl
@[simp] theorem Hub.setShadow_arms (h : Hub) (r : Reg) (i : Nat) (v : Word) : (h.setShadow r i v).arms = h.arms := rfl
@[simp] theorem Hub.setShadow_fail (h : Hub) (r : Reg) (i : Nat) (v : Word) : (h.setShadow r i v).fail = h.fail := rfl
@[simp] theorem Hub.setShadow_upd (h : Hub) (r : Reg) (i : Nat) (v : Word) : (h.setShadow r i v).upd = h.upd := rfl
@[simp] theorem Hub.setShadow_mapOp (h : Hub) (r : Reg) (i : Nat) (v : Word) : (h.setShadow r i v).mapOp = h.mapOp := rfl
@[simp] theorem Hub.setShadow_recal (h : Hub) (r : Reg) (i : Nat) (v : Word) : (h.setShadow r i v).recal = h.recal := rfl
@[simp] theorem Hub.setShadow_boot (h : Hub) (r : Reg) (i : Nat) (v : Word) : (h.setShadow r i v).boot = h.boot := rfl
@[simp] theorem Hub.setShadow_seq (h : Hub) (r : Reg) (i : Nat) (v : Word) : (h.setShadow r i v).seq = h.seq := rfl
@[simp] theorem Hub.setShadow_spdm (h : Hub) (r : Reg) (i : Nat) (v : Word) : (h.setShadow r i v).spdm = h.spdm := rfl
@[simp] theorem Hub.setShadow_sess (h : Hub) (r : Reg) (i : Nat) (v : Word) : (h.setShadow r i v).sess = h.sess := rfl
@[simp] theorem Hub.setShadow_vyn (h : Hub) (r : Reg) (i : Nat) (v : Word) : (h.setShadow r i v).vyn = h.vyn := rfl
@[simp] theorem Hub.setShadow_exports (h : Hub) (r : Reg) (i : Nat) (v : Word) : (h.setShadow r i v).exports = h.exports := rfl
@[simp] theorem Hub.setShadow_rcptKeys (h : Hub) (r : Reg) (i : Nat) (v : Word) : (h.setShadow r i v).rcptKeys = h.rcptKeys := rfl
@[simp] theorem Hub.setShadow_mctp (h : Hub) (r : Reg) (i : Nat) (v : Word) : (h.setShadow r i v).mctp = h.mctp := rfl
@[simp] theorem Hub.setShadow_i3c (h : Hub) (r : Reg) (i : Nat) (v : Word) : (h.setShadow r i v).i3c = h.i3c := rfl
@[simp] theorem Hub.setShadow_tap (h : Hub) (r : Reg) (i : Nat) (v : Word) : (h.setShadow r i v).tap = h.tap := rfl
@[simp] theorem Hub.reg_setShadow (h : Hub) (r : Reg) (i : Nat) (v : Word) (s : Reg) (j : Nat) : (h.setShadow r i v).reg s j = h.reg s j := rfl
@[simp] theorem Hub.get_setShadow (h : Hub) (r : Reg) (i : Nat) (v : Word) (g : Fld) (j : Nat) : (h.setShadow r i v).get g j = h.get g j := rfl
@[simp] theorem Hub.byte_setShadow (h : Hub) (r : Reg) (i : Nat) (v : Word) (a' : Nat) : (h.setShadow r i v).byte a' = h.byte a' := rfl
@[simp] theorem Hub.core_setShadow (h : Hub) (r : Reg) (i : Nat) (v : Word) (c : Nat) : (h.setShadow r i v).core c = h.core c := rfl
@[simp] theorem Hub.unit_setShadow (h : Hub) (r : Reg) (i : Nat) (v : Word) (u : Nat) : (h.setShadow r i v).unit u = h.unit u := rfl
@[simp] theorem Hub.spoke_setShadow (h : Hub) (r : Reg) (i : Nat) (v : Word) (n' : Nat) : (h.setShadow r i v).spoke n' = h.spoke n' := rfl
@[simp] theorem Hub.master_setShadow (h : Hub) (r : Reg) (i : Nat) (v : Word) (m' : Master) : (h.setShadow r i v).master m' = h.master m' := rfl
@[simp] theorem Hub.lock_setShadow (h : Hub) (r : Reg) (i : Nat) (v : Word) (l : Nat) : (h.setShadow r i v).lock l = h.lock l := rfl
@[simp] theorem Hub.link_setShadow (h : Hub) (r : Reg) (i : Nat) (v : Word) (l : Nat) : (h.setShadow r i v).link l = h.link l := rfl

/-! ### `setByte` -/

@[simp] theorem Hub.setByte_regs (h : Hub) (a : Nat) (b : Byte) : (h.setByte a b).regs = h.regs := rfl
@[simp] theorem Hub.setByte_shadow (h : Hub) (a : Nat) (b : Byte) : (h.setByte a b).shadow = h.shadow := rfl
@[simp] theorem Hub.setByte_fresh (h : Hub) (a : Nat) (b : Byte) : (h.setByte a b).fresh = h.fresh := rfl
@[simp] theorem Hub.setByte_owedStep (h : Hub) (a : Nat) (b : Byte) : (h.setByte a b).owedStep = h.owedStep := rfl
@[simp] theorem Hub.setByte_powered (h : Hub) (a : Nat) (b : Byte) : (h.setByte a b).powered = h.powered := rfl
@[simp] theorem Hub.setByte_cut (h : Hub) (a : Nat) (b : Byte) : (h.setByte a b).cut = h.cut := rfl
@[simp] theorem Hub.setByte_booting (h : Hub) (a : Nat) (b : Byte) : (h.setByte a b).booting = h.booting := rfl
@[simp] theorem Hub.setByte_failover (h : Hub) (a : Nat) (b : Byte) : (h.setByte a b).failover = h.failover := rfl
@[simp] theorem Hub.setByte_retired (h : Hub) (a : Nat) (b : Byte) : (h.setByte a b).retired = h.retired := rfl
@[simp] theorem Hub.setByte_time (h : Hub) (a : Nat) (b : Byte) : (h.setByte a b).time = h.time := rfl
@[simp] theorem Hub.setByte_spokes (h : Hub) (a : Nat) (b : Byte) : (h.setByte a b).spokes = h.spokes := rfl
@[simp] theorem Hub.setByte_nodes (h : Hub) (a : Nat) (b : Byte) : (h.setByte a b).nodes = h.nodes := rfl
@[simp] theorem Hub.setByte_quenchReqs (h : Hub) (a : Nat) (b : Byte) : (h.setByte a b).quenchReqs = h.quenchReqs := rfl
@[simp] theorem Hub.setByte_ramps (h : Hub) (a : Nat) (b : Byte) : (h.setByte a b).ramps = h.ramps := rfl
@[simp] theorem Hub.setByte_reheat (h : Hub) (a : Nat) (b : Byte) : (h.setByte a b).reheat = h.reheat := rfl
@[simp] theorem Hub.setByte_rails (h : Hub) (a : Nat) (b : Byte) : (h.setByte a b).rails = h.rails := rfl
@[simp] theorem Hub.setByte_ovh (h : Hub) (a : Nat) (b : Byte) : (h.setByte a b).ovh = h.ovh := rfl
@[simp] theorem Hub.setByte_chipReset (h : Hub) (a : Nat) (b : Byte) : (h.setByte a b).chipReset = h.chipReset := rfl
@[simp] theorem Hub.setByte_captures (h : Hub) (a : Nat) (b : Byte) : (h.setByte a b).captures = h.captures := rfl
@[simp] theorem Hub.setByte_captureSeq (h : Hub) (a : Nat) (b : Byte) : (h.setByte a b).captureSeq = h.captureSeq := rfl
@[simp] theorem Hub.setByte_plans (h : Hub) (a : Nat) (b : Byte) : (h.setByte a b).plans = h.plans := rfl
@[simp] theorem Hub.setByte_doneJobs (h : Hub) (a : Nat) (b : Byte) : (h.setByte a b).doneJobs = h.doneJobs := rfl
@[simp] theorem Hub.setByte_heldJobs (h : Hub) (a : Nat) (b : Byte) : (h.setByte a b).heldJobs = h.heldJobs := rfl
@[simp] theorem Hub.setByte_swg (h : Hub) (a : Nat) (b : Byte) : (h.setByte a b).swg = h.swg := rfl
@[simp] theorem Hub.setByte_swgSeq (h : Hub) (a : Nat) (b : Byte) : (h.setByte a b).swgSeq = h.swgSeq := rfl
@[simp] theorem Hub.setByte_swgTurn (h : Hub) (a : Nat) (b : Byte) : (h.setByte a b).swgTurn = h.swgTurn := rfl
@[simp] theorem Hub.setByte_hostPath (h : Hub) (a : Nat) (b : Byte) : (h.setByte a b).hostPath = h.hostPath := rfl
@[simp] theorem Hub.setByte_xtrigUntil (h : Hub) (a : Nat) (b : Byte) : (h.setByte a b).xtrigUntil = h.xtrigUntil := rfl
@[simp] theorem Hub.setByte_spine (h : Hub) (a : Nat) (b : Byte) : (h.setByte a b).spine = h.spine := rfl
@[simp] theorem Hub.setByte_emberExitAt (h : Hub) (a : Nat) (b : Byte) : (h.setByte a b).emberExitAt = h.emberExitAt := rfl
@[simp] theorem Hub.setByte_ctxs (h : Hub) (a : Nat) (b : Byte) : (h.setByte a b).ctxs = h.ctxs := rfl
@[simp] theorem Hub.setByte_wheelNotes (h : Hub) (a : Nat) (b : Byte) : (h.setByte a b).wheelNotes = h.wheelNotes := rfl
@[simp] theorem Hub.setByte_wfg (h : Hub) (a : Nat) (b : Byte) : (h.setByte a b).wfg = h.wfg := rfl
@[simp] theorem Hub.setByte_lanes (h : Hub) (a : Nat) (b : Byte) : (h.setByte a b).lanes = h.lanes := rfl
@[simp] theorem Hub.setByte_resetStarts (h : Hub) (a : Nat) (b : Byte) : (h.setByte a b).resetStarts = h.resetStarts := rfl
@[simp] theorem Hub.setByte_seeds (h : Hub) (a : Nat) (b : Byte) : (h.setByte a b).seeds = h.seeds := rfl
@[simp] theorem Hub.setByte_retrains (h : Hub) (a : Nat) (b : Byte) : (h.setByte a b).retrains = h.retrains := rfl
@[simp] theorem Hub.setByte_emberActs (h : Hub) (a : Nat) (b : Byte) : (h.setByte a b).emberActs = h.emberActs := rfl
@[simp] theorem Hub.setByte_laneMoves (h : Hub) (a : Nat) (b : Byte) : (h.setByte a b).laneMoves = h.laneMoves := rfl
@[simp] theorem Hub.setByte_warmReq (h : Hub) (a : Nat) (b : Byte) : (h.setByte a b).warmReq = h.warmReq := rfl
@[simp] theorem Hub.setByte_ledger (h : Hub) (a : Nat) (b : Byte) : (h.setByte a b).ledger = h.ledger := rfl
@[simp] theorem Hub.setByte_failoverAt (h : Hub) (a : Nat) (b : Byte) : (h.setByte a b).failoverAt = h.failoverAt := rfl
@[simp] theorem Hub.setByte_units (h : Hub) (a : Nat) (b : Byte) : (h.setByte a b).units = h.units := rfl
@[simp] theorem Hub.setByte_cmds (h : Hub) (a : Nat) (b : Byte) : (h.setByte a b).cmds = h.cmds := rfl
@[simp] theorem Hub.setByte_nextCmd (h : Hub) (a : Nat) (b : Byte) : (h.setByte a b).nextCmd = h.nextCmd := rfl
@[simp] theorem Hub.setByte_txns (h : Hub) (a : Nat) (b : Byte) : (h.setByte a b).txns = h.txns := rfl
@[simp] theorem Hub.setByte_cores (h : Hub) (a : Nat) (b : Byte) : (h.setByte a b).cores = h.cores := rfl
@[simp] theorem Hub.setByte_masters (h : Hub) (a : Nat) (b : Byte) : (h.setByte a b).masters = h.masters := rfl
@[simp] theorem Hub.setByte_locks (h : Hub) (a : Nat) (b : Byte) : (h.setByte a b).locks = h.locks := rfl
@[simp] theorem Hub.setByte_links (h : Hub) (a : Nat) (b : Byte) : (h.setByte a b).links = h.links := rfl
@[simp] theorem Hub.setByte_mail (h : Hub) (a : Nat) (b : Byte) : (h.setByte a b).mail = h.mail := rfl
@[simp] theorem Hub.setByte_notices (h : Hub) (a : Nat) (b : Byte) : (h.setByte a b).notices = h.notices := rfl
@[simp] theorem Hub.setByte_heldNotices (h : Hub) (a : Nat) (b : Byte) : (h.setByte a b).heldNotices = h.heldNotices := rfl
@[simp] theorem Hub.setByte_heldEvents (h : Hub) (a : Nat) (b : Byte) : (h.setByte a b).heldEvents = h.heldEvents := rfl
@[simp] theorem Hub.setByte_out (h : Hub) (a : Nat) (b : Byte) : (h.setByte a b).out = h.out := rfl
@[simp] theorem Hub.setByte_load (h : Hub) (a : Nat) (b : Byte) : (h.setByte a b).load = h.load := rfl
@[simp] theorem Hub.setByte_offers (h : Hub) (a : Nat) (b : Byte) : (h.setByte a b).offers = h.offers := rfl
@[simp] theorem Hub.setByte_arms (h : Hub) (a : Nat) (b : Byte) : (h.setByte a b).arms = h.arms := rfl
@[simp] theorem Hub.setByte_fail (h : Hub) (a : Nat) (b : Byte) : (h.setByte a b).fail = h.fail := rfl
@[simp] theorem Hub.setByte_upd (h : Hub) (a : Nat) (b : Byte) : (h.setByte a b).upd = h.upd := rfl
@[simp] theorem Hub.setByte_mapOp (h : Hub) (a : Nat) (b : Byte) : (h.setByte a b).mapOp = h.mapOp := rfl
@[simp] theorem Hub.setByte_recal (h : Hub) (a : Nat) (b : Byte) : (h.setByte a b).recal = h.recal := rfl
@[simp] theorem Hub.setByte_boot (h : Hub) (a : Nat) (b : Byte) : (h.setByte a b).boot = h.boot := rfl
@[simp] theorem Hub.setByte_seq (h : Hub) (a : Nat) (b : Byte) : (h.setByte a b).seq = h.seq := rfl
@[simp] theorem Hub.setByte_spdm (h : Hub) (a : Nat) (b : Byte) : (h.setByte a b).spdm = h.spdm := rfl
@[simp] theorem Hub.setByte_sess (h : Hub) (a : Nat) (b : Byte) : (h.setByte a b).sess = h.sess := rfl
@[simp] theorem Hub.setByte_vyn (h : Hub) (a : Nat) (b : Byte) : (h.setByte a b).vyn = h.vyn := rfl
@[simp] theorem Hub.setByte_exports (h : Hub) (a : Nat) (b : Byte) : (h.setByte a b).exports = h.exports := rfl
@[simp] theorem Hub.setByte_rcptKeys (h : Hub) (a : Nat) (b : Byte) : (h.setByte a b).rcptKeys = h.rcptKeys := rfl
@[simp] theorem Hub.setByte_mctp (h : Hub) (a : Nat) (b : Byte) : (h.setByte a b).mctp = h.mctp := rfl
@[simp] theorem Hub.setByte_i3c (h : Hub) (a : Nat) (b : Byte) : (h.setByte a b).i3c = h.i3c := rfl
@[simp] theorem Hub.setByte_tap (h : Hub) (a : Nat) (b : Byte) : (h.setByte a b).tap = h.tap := rfl
@[simp] theorem Hub.reg_setByte (h : Hub) (a : Nat) (b : Byte) (s : Reg) (j : Nat) : (h.setByte a b).reg s j = h.reg s j := rfl
@[simp] theorem Hub.get_setByte (h : Hub) (a : Nat) (b : Byte) (g : Fld) (j : Nat) : (h.setByte a b).get g j = h.get g j := rfl
@[simp] theorem Hub.core_setByte (h : Hub) (a : Nat) (b : Byte) (c : Nat) : (h.setByte a b).core c = h.core c := rfl
@[simp] theorem Hub.unit_setByte (h : Hub) (a : Nat) (b : Byte) (u : Nat) : (h.setByte a b).unit u = h.unit u := rfl
@[simp] theorem Hub.spoke_setByte (h : Hub) (a : Nat) (b : Byte) (n' : Nat) : (h.setByte a b).spoke n' = h.spoke n' := rfl
@[simp] theorem Hub.master_setByte (h : Hub) (a : Nat) (b : Byte) (m' : Master) : (h.setByte a b).master m' = h.master m' := rfl
@[simp] theorem Hub.lock_setByte (h : Hub) (a : Nat) (b : Byte) (l : Nat) : (h.setByte a b).lock l = h.lock l := rfl
@[simp] theorem Hub.link_setByte (h : Hub) (a : Nat) (b : Byte) (l : Nat) : (h.setByte a b).link l = h.link l := rfl

/-! ### `setBytes` -/

@[simp] theorem Hub.setBytes_regs (h : Hub) (a : Nat) (bs : List Byte) : (h.setBytes a bs).regs = h.regs := rfl
@[simp] theorem Hub.setBytes_shadow (h : Hub) (a : Nat) (bs : List Byte) : (h.setBytes a bs).shadow = h.shadow := rfl
@[simp] theorem Hub.setBytes_fresh (h : Hub) (a : Nat) (bs : List Byte) : (h.setBytes a bs).fresh = h.fresh := rfl
@[simp] theorem Hub.setBytes_owedStep (h : Hub) (a : Nat) (bs : List Byte) : (h.setBytes a bs).owedStep = h.owedStep := rfl
@[simp] theorem Hub.setBytes_powered (h : Hub) (a : Nat) (bs : List Byte) : (h.setBytes a bs).powered = h.powered := rfl
@[simp] theorem Hub.setBytes_cut (h : Hub) (a : Nat) (bs : List Byte) : (h.setBytes a bs).cut = h.cut := rfl
@[simp] theorem Hub.setBytes_booting (h : Hub) (a : Nat) (bs : List Byte) : (h.setBytes a bs).booting = h.booting := rfl
@[simp] theorem Hub.setBytes_failover (h : Hub) (a : Nat) (bs : List Byte) : (h.setBytes a bs).failover = h.failover := rfl
@[simp] theorem Hub.setBytes_retired (h : Hub) (a : Nat) (bs : List Byte) : (h.setBytes a bs).retired = h.retired := rfl
@[simp] theorem Hub.setBytes_time (h : Hub) (a : Nat) (bs : List Byte) : (h.setBytes a bs).time = h.time := rfl
@[simp] theorem Hub.setBytes_spokes (h : Hub) (a : Nat) (bs : List Byte) : (h.setBytes a bs).spokes = h.spokes := rfl
@[simp] theorem Hub.setBytes_nodes (h : Hub) (a : Nat) (bs : List Byte) : (h.setBytes a bs).nodes = h.nodes := rfl
@[simp] theorem Hub.setBytes_quenchReqs (h : Hub) (a : Nat) (bs : List Byte) : (h.setBytes a bs).quenchReqs = h.quenchReqs := rfl
@[simp] theorem Hub.setBytes_ramps (h : Hub) (a : Nat) (bs : List Byte) : (h.setBytes a bs).ramps = h.ramps := rfl
@[simp] theorem Hub.setBytes_reheat (h : Hub) (a : Nat) (bs : List Byte) : (h.setBytes a bs).reheat = h.reheat := rfl
@[simp] theorem Hub.setBytes_rails (h : Hub) (a : Nat) (bs : List Byte) : (h.setBytes a bs).rails = h.rails := rfl
@[simp] theorem Hub.setBytes_ovh (h : Hub) (a : Nat) (bs : List Byte) : (h.setBytes a bs).ovh = h.ovh := rfl
@[simp] theorem Hub.setBytes_chipReset (h : Hub) (a : Nat) (bs : List Byte) : (h.setBytes a bs).chipReset = h.chipReset := rfl
@[simp] theorem Hub.setBytes_captures (h : Hub) (a : Nat) (bs : List Byte) : (h.setBytes a bs).captures = h.captures := rfl
@[simp] theorem Hub.setBytes_captureSeq (h : Hub) (a : Nat) (bs : List Byte) : (h.setBytes a bs).captureSeq = h.captureSeq := rfl
@[simp] theorem Hub.setBytes_plans (h : Hub) (a : Nat) (bs : List Byte) : (h.setBytes a bs).plans = h.plans := rfl
@[simp] theorem Hub.setBytes_doneJobs (h : Hub) (a : Nat) (bs : List Byte) : (h.setBytes a bs).doneJobs = h.doneJobs := rfl
@[simp] theorem Hub.setBytes_heldJobs (h : Hub) (a : Nat) (bs : List Byte) : (h.setBytes a bs).heldJobs = h.heldJobs := rfl
@[simp] theorem Hub.setBytes_swg (h : Hub) (a : Nat) (bs : List Byte) : (h.setBytes a bs).swg = h.swg := rfl
@[simp] theorem Hub.setBytes_swgSeq (h : Hub) (a : Nat) (bs : List Byte) : (h.setBytes a bs).swgSeq = h.swgSeq := rfl
@[simp] theorem Hub.setBytes_swgTurn (h : Hub) (a : Nat) (bs : List Byte) : (h.setBytes a bs).swgTurn = h.swgTurn := rfl
@[simp] theorem Hub.setBytes_hostPath (h : Hub) (a : Nat) (bs : List Byte) : (h.setBytes a bs).hostPath = h.hostPath := rfl
@[simp] theorem Hub.setBytes_xtrigUntil (h : Hub) (a : Nat) (bs : List Byte) : (h.setBytes a bs).xtrigUntil = h.xtrigUntil := rfl
@[simp] theorem Hub.setBytes_spine (h : Hub) (a : Nat) (bs : List Byte) : (h.setBytes a bs).spine = h.spine := rfl
@[simp] theorem Hub.setBytes_emberExitAt (h : Hub) (a : Nat) (bs : List Byte) : (h.setBytes a bs).emberExitAt = h.emberExitAt := rfl
@[simp] theorem Hub.setBytes_ctxs (h : Hub) (a : Nat) (bs : List Byte) : (h.setBytes a bs).ctxs = h.ctxs := rfl
@[simp] theorem Hub.setBytes_wheelNotes (h : Hub) (a : Nat) (bs : List Byte) : (h.setBytes a bs).wheelNotes = h.wheelNotes := rfl
@[simp] theorem Hub.setBytes_wfg (h : Hub) (a : Nat) (bs : List Byte) : (h.setBytes a bs).wfg = h.wfg := rfl
@[simp] theorem Hub.setBytes_lanes (h : Hub) (a : Nat) (bs : List Byte) : (h.setBytes a bs).lanes = h.lanes := rfl
@[simp] theorem Hub.setBytes_resetStarts (h : Hub) (a : Nat) (bs : List Byte) : (h.setBytes a bs).resetStarts = h.resetStarts := rfl
@[simp] theorem Hub.setBytes_seeds (h : Hub) (a : Nat) (bs : List Byte) : (h.setBytes a bs).seeds = h.seeds := rfl
@[simp] theorem Hub.setBytes_retrains (h : Hub) (a : Nat) (bs : List Byte) : (h.setBytes a bs).retrains = h.retrains := rfl
@[simp] theorem Hub.setBytes_emberActs (h : Hub) (a : Nat) (bs : List Byte) : (h.setBytes a bs).emberActs = h.emberActs := rfl
@[simp] theorem Hub.setBytes_laneMoves (h : Hub) (a : Nat) (bs : List Byte) : (h.setBytes a bs).laneMoves = h.laneMoves := rfl
@[simp] theorem Hub.setBytes_warmReq (h : Hub) (a : Nat) (bs : List Byte) : (h.setBytes a bs).warmReq = h.warmReq := rfl
@[simp] theorem Hub.setBytes_ledger (h : Hub) (a : Nat) (bs : List Byte) : (h.setBytes a bs).ledger = h.ledger := rfl
@[simp] theorem Hub.setBytes_failoverAt (h : Hub) (a : Nat) (bs : List Byte) : (h.setBytes a bs).failoverAt = h.failoverAt := rfl
@[simp] theorem Hub.setBytes_units (h : Hub) (a : Nat) (bs : List Byte) : (h.setBytes a bs).units = h.units := rfl
@[simp] theorem Hub.setBytes_cmds (h : Hub) (a : Nat) (bs : List Byte) : (h.setBytes a bs).cmds = h.cmds := rfl
@[simp] theorem Hub.setBytes_nextCmd (h : Hub) (a : Nat) (bs : List Byte) : (h.setBytes a bs).nextCmd = h.nextCmd := rfl
@[simp] theorem Hub.setBytes_txns (h : Hub) (a : Nat) (bs : List Byte) : (h.setBytes a bs).txns = h.txns := rfl
@[simp] theorem Hub.setBytes_cores (h : Hub) (a : Nat) (bs : List Byte) : (h.setBytes a bs).cores = h.cores := rfl
@[simp] theorem Hub.setBytes_masters (h : Hub) (a : Nat) (bs : List Byte) : (h.setBytes a bs).masters = h.masters := rfl
@[simp] theorem Hub.setBytes_locks (h : Hub) (a : Nat) (bs : List Byte) : (h.setBytes a bs).locks = h.locks := rfl
@[simp] theorem Hub.setBytes_links (h : Hub) (a : Nat) (bs : List Byte) : (h.setBytes a bs).links = h.links := rfl
@[simp] theorem Hub.setBytes_mail (h : Hub) (a : Nat) (bs : List Byte) : (h.setBytes a bs).mail = h.mail := rfl
@[simp] theorem Hub.setBytes_notices (h : Hub) (a : Nat) (bs : List Byte) : (h.setBytes a bs).notices = h.notices := rfl
@[simp] theorem Hub.setBytes_heldNotices (h : Hub) (a : Nat) (bs : List Byte) : (h.setBytes a bs).heldNotices = h.heldNotices := rfl
@[simp] theorem Hub.setBytes_heldEvents (h : Hub) (a : Nat) (bs : List Byte) : (h.setBytes a bs).heldEvents = h.heldEvents := rfl
@[simp] theorem Hub.setBytes_out (h : Hub) (a : Nat) (bs : List Byte) : (h.setBytes a bs).out = h.out := rfl
@[simp] theorem Hub.setBytes_load (h : Hub) (a : Nat) (bs : List Byte) : (h.setBytes a bs).load = h.load := rfl
@[simp] theorem Hub.setBytes_offers (h : Hub) (a : Nat) (bs : List Byte) : (h.setBytes a bs).offers = h.offers := rfl
@[simp] theorem Hub.setBytes_arms (h : Hub) (a : Nat) (bs : List Byte) : (h.setBytes a bs).arms = h.arms := rfl
@[simp] theorem Hub.setBytes_fail (h : Hub) (a : Nat) (bs : List Byte) : (h.setBytes a bs).fail = h.fail := rfl
@[simp] theorem Hub.setBytes_upd (h : Hub) (a : Nat) (bs : List Byte) : (h.setBytes a bs).upd = h.upd := rfl
@[simp] theorem Hub.setBytes_mapOp (h : Hub) (a : Nat) (bs : List Byte) : (h.setBytes a bs).mapOp = h.mapOp := rfl
@[simp] theorem Hub.setBytes_recal (h : Hub) (a : Nat) (bs : List Byte) : (h.setBytes a bs).recal = h.recal := rfl
@[simp] theorem Hub.setBytes_boot (h : Hub) (a : Nat) (bs : List Byte) : (h.setBytes a bs).boot = h.boot := rfl
@[simp] theorem Hub.setBytes_seq (h : Hub) (a : Nat) (bs : List Byte) : (h.setBytes a bs).seq = h.seq := rfl
@[simp] theorem Hub.setBytes_spdm (h : Hub) (a : Nat) (bs : List Byte) : (h.setBytes a bs).spdm = h.spdm := rfl
@[simp] theorem Hub.setBytes_sess (h : Hub) (a : Nat) (bs : List Byte) : (h.setBytes a bs).sess = h.sess := rfl
@[simp] theorem Hub.setBytes_vyn (h : Hub) (a : Nat) (bs : List Byte) : (h.setBytes a bs).vyn = h.vyn := rfl
@[simp] theorem Hub.setBytes_exports (h : Hub) (a : Nat) (bs : List Byte) : (h.setBytes a bs).exports = h.exports := rfl
@[simp] theorem Hub.setBytes_rcptKeys (h : Hub) (a : Nat) (bs : List Byte) : (h.setBytes a bs).rcptKeys = h.rcptKeys := rfl
@[simp] theorem Hub.setBytes_mctp (h : Hub) (a : Nat) (bs : List Byte) : (h.setBytes a bs).mctp = h.mctp := rfl
@[simp] theorem Hub.setBytes_i3c (h : Hub) (a : Nat) (bs : List Byte) : (h.setBytes a bs).i3c = h.i3c := rfl
@[simp] theorem Hub.setBytes_tap (h : Hub) (a : Nat) (bs : List Byte) : (h.setBytes a bs).tap = h.tap := rfl
@[simp] theorem Hub.reg_setBytes (h : Hub) (a : Nat) (bs : List Byte) (s : Reg) (j : Nat) : (h.setBytes a bs).reg s j = h.reg s j := rfl
@[simp] theorem Hub.get_setBytes (h : Hub) (a : Nat) (bs : List Byte) (g : Fld) (j : Nat) : (h.setBytes a bs).get g j = h.get g j := rfl
@[simp] theorem Hub.core_setBytes (h : Hub) (a : Nat) (bs : List Byte) (c : Nat) : (h.setBytes a bs).core c = h.core c := rfl
@[simp] theorem Hub.unit_setBytes (h : Hub) (a : Nat) (bs : List Byte) (u : Nat) : (h.setBytes a bs).unit u = h.unit u := rfl
@[simp] theorem Hub.spoke_setBytes (h : Hub) (a : Nat) (bs : List Byte) (n' : Nat) : (h.setBytes a bs).spoke n' = h.spoke n' := rfl
@[simp] theorem Hub.master_setBytes (h : Hub) (a : Nat) (bs : List Byte) (m' : Master) : (h.setBytes a bs).master m' = h.master m' := rfl
@[simp] theorem Hub.lock_setBytes (h : Hub) (a : Nat) (bs : List Byte) (l : Nat) : (h.setBytes a bs).lock l = h.lock l := rfl
@[simp] theorem Hub.link_setBytes (h : Hub) (a : Nat) (bs : List Byte) (l : Nat) : (h.setBytes a bs).link l = h.link l := rfl

/-! ### `modSpoke` -/

@[simp] theorem Hub.modSpoke_regs (h : Hub) (n : Nat) (f : SpokeX → SpokeX) : (h.modSpoke n f).regs = h.regs := rfl
@[simp] theorem Hub.modSpoke_shadow (h : Hub) (n : Nat) (f : SpokeX → SpokeX) : (h.modSpoke n f).shadow = h.shadow := rfl
@[simp] theorem Hub.modSpoke_mem (h : Hub) (n : Nat) (f : SpokeX → SpokeX) : (h.modSpoke n f).mem = h.mem := rfl
@[simp] theorem Hub.modSpoke_fresh (h : Hub) (n : Nat) (f : SpokeX → SpokeX) : (h.modSpoke n f).fresh = h.fresh := rfl
@[simp] theorem Hub.modSpoke_owedStep (h : Hub) (n : Nat) (f : SpokeX → SpokeX) : (h.modSpoke n f).owedStep = h.owedStep := rfl
@[simp] theorem Hub.modSpoke_powered (h : Hub) (n : Nat) (f : SpokeX → SpokeX) : (h.modSpoke n f).powered = h.powered := rfl
@[simp] theorem Hub.modSpoke_cut (h : Hub) (n : Nat) (f : SpokeX → SpokeX) : (h.modSpoke n f).cut = h.cut := rfl
@[simp] theorem Hub.modSpoke_booting (h : Hub) (n : Nat) (f : SpokeX → SpokeX) : (h.modSpoke n f).booting = h.booting := rfl
@[simp] theorem Hub.modSpoke_failover (h : Hub) (n : Nat) (f : SpokeX → SpokeX) : (h.modSpoke n f).failover = h.failover := rfl
@[simp] theorem Hub.modSpoke_retired (h : Hub) (n : Nat) (f : SpokeX → SpokeX) : (h.modSpoke n f).retired = h.retired := rfl
@[simp] theorem Hub.modSpoke_time (h : Hub) (n : Nat) (f : SpokeX → SpokeX) : (h.modSpoke n f).time = h.time := rfl
@[simp] theorem Hub.modSpoke_nodes (h : Hub) (n : Nat) (f : SpokeX → SpokeX) : (h.modSpoke n f).nodes = h.nodes := rfl
@[simp] theorem Hub.modSpoke_quenchReqs (h : Hub) (n : Nat) (f : SpokeX → SpokeX) : (h.modSpoke n f).quenchReqs = h.quenchReqs := rfl
@[simp] theorem Hub.modSpoke_ramps (h : Hub) (n : Nat) (f : SpokeX → SpokeX) : (h.modSpoke n f).ramps = h.ramps := rfl
@[simp] theorem Hub.modSpoke_reheat (h : Hub) (n : Nat) (f : SpokeX → SpokeX) : (h.modSpoke n f).reheat = h.reheat := rfl
@[simp] theorem Hub.modSpoke_rails (h : Hub) (n : Nat) (f : SpokeX → SpokeX) : (h.modSpoke n f).rails = h.rails := rfl
@[simp] theorem Hub.modSpoke_ovh (h : Hub) (n : Nat) (f : SpokeX → SpokeX) : (h.modSpoke n f).ovh = h.ovh := rfl
@[simp] theorem Hub.modSpoke_chipReset (h : Hub) (n : Nat) (f : SpokeX → SpokeX) : (h.modSpoke n f).chipReset = h.chipReset := rfl
@[simp] theorem Hub.modSpoke_captures (h : Hub) (n : Nat) (f : SpokeX → SpokeX) : (h.modSpoke n f).captures = h.captures := rfl
@[simp] theorem Hub.modSpoke_captureSeq (h : Hub) (n : Nat) (f : SpokeX → SpokeX) : (h.modSpoke n f).captureSeq = h.captureSeq := rfl
@[simp] theorem Hub.modSpoke_plans (h : Hub) (n : Nat) (f : SpokeX → SpokeX) : (h.modSpoke n f).plans = h.plans := rfl
@[simp] theorem Hub.modSpoke_doneJobs (h : Hub) (n : Nat) (f : SpokeX → SpokeX) : (h.modSpoke n f).doneJobs = h.doneJobs := rfl
@[simp] theorem Hub.modSpoke_heldJobs (h : Hub) (n : Nat) (f : SpokeX → SpokeX) : (h.modSpoke n f).heldJobs = h.heldJobs := rfl
@[simp] theorem Hub.modSpoke_swg (h : Hub) (n : Nat) (f : SpokeX → SpokeX) : (h.modSpoke n f).swg = h.swg := rfl
@[simp] theorem Hub.modSpoke_swgSeq (h : Hub) (n : Nat) (f : SpokeX → SpokeX) : (h.modSpoke n f).swgSeq = h.swgSeq := rfl
@[simp] theorem Hub.modSpoke_swgTurn (h : Hub) (n : Nat) (f : SpokeX → SpokeX) : (h.modSpoke n f).swgTurn = h.swgTurn := rfl
@[simp] theorem Hub.modSpoke_hostPath (h : Hub) (n : Nat) (f : SpokeX → SpokeX) : (h.modSpoke n f).hostPath = h.hostPath := rfl
@[simp] theorem Hub.modSpoke_xtrigUntil (h : Hub) (n : Nat) (f : SpokeX → SpokeX) : (h.modSpoke n f).xtrigUntil = h.xtrigUntil := rfl
@[simp] theorem Hub.modSpoke_spine (h : Hub) (n : Nat) (f : SpokeX → SpokeX) : (h.modSpoke n f).spine = h.spine := rfl
@[simp] theorem Hub.modSpoke_emberExitAt (h : Hub) (n : Nat) (f : SpokeX → SpokeX) : (h.modSpoke n f).emberExitAt = h.emberExitAt := rfl
@[simp] theorem Hub.modSpoke_ctxs (h : Hub) (n : Nat) (f : SpokeX → SpokeX) : (h.modSpoke n f).ctxs = h.ctxs := rfl
@[simp] theorem Hub.modSpoke_wheelNotes (h : Hub) (n : Nat) (f : SpokeX → SpokeX) : (h.modSpoke n f).wheelNotes = h.wheelNotes := rfl
@[simp] theorem Hub.modSpoke_wfg (h : Hub) (n : Nat) (f : SpokeX → SpokeX) : (h.modSpoke n f).wfg = h.wfg := rfl
@[simp] theorem Hub.modSpoke_lanes (h : Hub) (n : Nat) (f : SpokeX → SpokeX) : (h.modSpoke n f).lanes = h.lanes := rfl
@[simp] theorem Hub.modSpoke_resetStarts (h : Hub) (n : Nat) (f : SpokeX → SpokeX) : (h.modSpoke n f).resetStarts = h.resetStarts := rfl
@[simp] theorem Hub.modSpoke_seeds (h : Hub) (n : Nat) (f : SpokeX → SpokeX) : (h.modSpoke n f).seeds = h.seeds := rfl
@[simp] theorem Hub.modSpoke_retrains (h : Hub) (n : Nat) (f : SpokeX → SpokeX) : (h.modSpoke n f).retrains = h.retrains := rfl
@[simp] theorem Hub.modSpoke_emberActs (h : Hub) (n : Nat) (f : SpokeX → SpokeX) : (h.modSpoke n f).emberActs = h.emberActs := rfl
@[simp] theorem Hub.modSpoke_laneMoves (h : Hub) (n : Nat) (f : SpokeX → SpokeX) : (h.modSpoke n f).laneMoves = h.laneMoves := rfl
@[simp] theorem Hub.modSpoke_warmReq (h : Hub) (n : Nat) (f : SpokeX → SpokeX) : (h.modSpoke n f).warmReq = h.warmReq := rfl
@[simp] theorem Hub.modSpoke_ledger (h : Hub) (n : Nat) (f : SpokeX → SpokeX) : (h.modSpoke n f).ledger = h.ledger := rfl
@[simp] theorem Hub.modSpoke_failoverAt (h : Hub) (n : Nat) (f : SpokeX → SpokeX) : (h.modSpoke n f).failoverAt = h.failoverAt := rfl
@[simp] theorem Hub.modSpoke_units (h : Hub) (n : Nat) (f : SpokeX → SpokeX) : (h.modSpoke n f).units = h.units := rfl
@[simp] theorem Hub.modSpoke_cmds (h : Hub) (n : Nat) (f : SpokeX → SpokeX) : (h.modSpoke n f).cmds = h.cmds := rfl
@[simp] theorem Hub.modSpoke_nextCmd (h : Hub) (n : Nat) (f : SpokeX → SpokeX) : (h.modSpoke n f).nextCmd = h.nextCmd := rfl
@[simp] theorem Hub.modSpoke_txns (h : Hub) (n : Nat) (f : SpokeX → SpokeX) : (h.modSpoke n f).txns = h.txns := rfl
@[simp] theorem Hub.modSpoke_cores (h : Hub) (n : Nat) (f : SpokeX → SpokeX) : (h.modSpoke n f).cores = h.cores := rfl
@[simp] theorem Hub.modSpoke_masters (h : Hub) (n : Nat) (f : SpokeX → SpokeX) : (h.modSpoke n f).masters = h.masters := rfl
@[simp] theorem Hub.modSpoke_locks (h : Hub) (n : Nat) (f : SpokeX → SpokeX) : (h.modSpoke n f).locks = h.locks := rfl
@[simp] theorem Hub.modSpoke_links (h : Hub) (n : Nat) (f : SpokeX → SpokeX) : (h.modSpoke n f).links = h.links := rfl
@[simp] theorem Hub.modSpoke_mail (h : Hub) (n : Nat) (f : SpokeX → SpokeX) : (h.modSpoke n f).mail = h.mail := rfl
@[simp] theorem Hub.modSpoke_notices (h : Hub) (n : Nat) (f : SpokeX → SpokeX) : (h.modSpoke n f).notices = h.notices := rfl
@[simp] theorem Hub.modSpoke_heldNotices (h : Hub) (n : Nat) (f : SpokeX → SpokeX) : (h.modSpoke n f).heldNotices = h.heldNotices := rfl
@[simp] theorem Hub.modSpoke_heldEvents (h : Hub) (n : Nat) (f : SpokeX → SpokeX) : (h.modSpoke n f).heldEvents = h.heldEvents := rfl
@[simp] theorem Hub.modSpoke_out (h : Hub) (n : Nat) (f : SpokeX → SpokeX) : (h.modSpoke n f).out = h.out := rfl
@[simp] theorem Hub.modSpoke_load (h : Hub) (n : Nat) (f : SpokeX → SpokeX) : (h.modSpoke n f).load = h.load := rfl
@[simp] theorem Hub.modSpoke_offers (h : Hub) (n : Nat) (f : SpokeX → SpokeX) : (h.modSpoke n f).offers = h.offers := rfl
@[simp] theorem Hub.modSpoke_arms (h : Hub) (n : Nat) (f : SpokeX → SpokeX) : (h.modSpoke n f).arms = h.arms := rfl
@[simp] theorem Hub.modSpoke_fail (h : Hub) (n : Nat) (f : SpokeX → SpokeX) : (h.modSpoke n f).fail = h.fail := rfl
@[simp] theorem Hub.modSpoke_upd (h : Hub) (n : Nat) (f : SpokeX → SpokeX) : (h.modSpoke n f).upd = h.upd := rfl
@[simp] theorem Hub.modSpoke_mapOp (h : Hub) (n : Nat) (f : SpokeX → SpokeX) : (h.modSpoke n f).mapOp = h.mapOp := rfl
@[simp] theorem Hub.modSpoke_recal (h : Hub) (n : Nat) (f : SpokeX → SpokeX) : (h.modSpoke n f).recal = h.recal := rfl
@[simp] theorem Hub.modSpoke_boot (h : Hub) (n : Nat) (f : SpokeX → SpokeX) : (h.modSpoke n f).boot = h.boot := rfl
@[simp] theorem Hub.modSpoke_seq (h : Hub) (n : Nat) (f : SpokeX → SpokeX) : (h.modSpoke n f).seq = h.seq := rfl
@[simp] theorem Hub.modSpoke_spdm (h : Hub) (n : Nat) (f : SpokeX → SpokeX) : (h.modSpoke n f).spdm = h.spdm := rfl
@[simp] theorem Hub.modSpoke_sess (h : Hub) (n : Nat) (f : SpokeX → SpokeX) : (h.modSpoke n f).sess = h.sess := rfl
@[simp] theorem Hub.modSpoke_vyn (h : Hub) (n : Nat) (f : SpokeX → SpokeX) : (h.modSpoke n f).vyn = h.vyn := rfl
@[simp] theorem Hub.modSpoke_exports (h : Hub) (n : Nat) (f : SpokeX → SpokeX) : (h.modSpoke n f).exports = h.exports := rfl
@[simp] theorem Hub.modSpoke_rcptKeys (h : Hub) (n : Nat) (f : SpokeX → SpokeX) : (h.modSpoke n f).rcptKeys = h.rcptKeys := rfl
@[simp] theorem Hub.modSpoke_mctp (h : Hub) (n : Nat) (f : SpokeX → SpokeX) : (h.modSpoke n f).mctp = h.mctp := rfl
@[simp] theorem Hub.modSpoke_i3c (h : Hub) (n : Nat) (f : SpokeX → SpokeX) : (h.modSpoke n f).i3c = h.i3c := rfl
@[simp] theorem Hub.modSpoke_tap (h : Hub) (n : Nat) (f : SpokeX → SpokeX) : (h.modSpoke n f).tap = h.tap := rfl
@[simp] theorem Hub.reg_modSpoke (h : Hub) (n : Nat) (f : SpokeX → SpokeX) (s : Reg) (j : Nat) : (h.modSpoke n f).reg s j = h.reg s j := rfl
@[simp] theorem Hub.get_modSpoke (h : Hub) (n : Nat) (f : SpokeX → SpokeX) (g : Fld) (j : Nat) : (h.modSpoke n f).get g j = h.get g j := rfl
@[simp] theorem Hub.byte_modSpoke (h : Hub) (n : Nat) (f : SpokeX → SpokeX) (a' : Nat) : (h.modSpoke n f).byte a' = h.byte a' := rfl
@[simp] theorem Hub.core_modSpoke (h : Hub) (n : Nat) (f : SpokeX → SpokeX) (c : Nat) : (h.modSpoke n f).core c = h.core c := rfl
@[simp] theorem Hub.unit_modSpoke (h : Hub) (n : Nat) (f : SpokeX → SpokeX) (u : Nat) : (h.modSpoke n f).unit u = h.unit u := rfl
@[simp] theorem Hub.master_modSpoke (h : Hub) (n : Nat) (f : SpokeX → SpokeX) (m' : Master) : (h.modSpoke n f).master m' = h.master m' := rfl
@[simp] theorem Hub.lock_modSpoke (h : Hub) (n : Nat) (f : SpokeX → SpokeX) (l : Nat) : (h.modSpoke n f).lock l = h.lock l := rfl
@[simp] theorem Hub.link_modSpoke (h : Hub) (n : Nat) (f : SpokeX → SpokeX) (l : Nat) : (h.modSpoke n f).link l = h.link l := rfl

/-! ### `modNode` -/

@[simp] theorem Hub.modNode_regs (h : Hub) (n : Nat) (f : NodeX → NodeX) : (h.modNode n f).regs = h.regs := rfl
@[simp] theorem Hub.modNode_shadow (h : Hub) (n : Nat) (f : NodeX → NodeX) : (h.modNode n f).shadow = h.shadow := rfl
@[simp] theorem Hub.modNode_mem (h : Hub) (n : Nat) (f : NodeX → NodeX) : (h.modNode n f).mem = h.mem := rfl
@[simp] theorem Hub.modNode_fresh (h : Hub) (n : Nat) (f : NodeX → NodeX) : (h.modNode n f).fresh = h.fresh := rfl
@[simp] theorem Hub.modNode_owedStep (h : Hub) (n : Nat) (f : NodeX → NodeX) : (h.modNode n f).owedStep = h.owedStep := rfl
@[simp] theorem Hub.modNode_powered (h : Hub) (n : Nat) (f : NodeX → NodeX) : (h.modNode n f).powered = h.powered := rfl
@[simp] theorem Hub.modNode_cut (h : Hub) (n : Nat) (f : NodeX → NodeX) : (h.modNode n f).cut = h.cut := rfl
@[simp] theorem Hub.modNode_booting (h : Hub) (n : Nat) (f : NodeX → NodeX) : (h.modNode n f).booting = h.booting := rfl
@[simp] theorem Hub.modNode_failover (h : Hub) (n : Nat) (f : NodeX → NodeX) : (h.modNode n f).failover = h.failover := rfl
@[simp] theorem Hub.modNode_retired (h : Hub) (n : Nat) (f : NodeX → NodeX) : (h.modNode n f).retired = h.retired := rfl
@[simp] theorem Hub.modNode_time (h : Hub) (n : Nat) (f : NodeX → NodeX) : (h.modNode n f).time = h.time := rfl
@[simp] theorem Hub.modNode_spokes (h : Hub) (n : Nat) (f : NodeX → NodeX) : (h.modNode n f).spokes = h.spokes := rfl
@[simp] theorem Hub.modNode_quenchReqs (h : Hub) (n : Nat) (f : NodeX → NodeX) : (h.modNode n f).quenchReqs = h.quenchReqs := rfl
@[simp] theorem Hub.modNode_ramps (h : Hub) (n : Nat) (f : NodeX → NodeX) : (h.modNode n f).ramps = h.ramps := rfl
@[simp] theorem Hub.modNode_reheat (h : Hub) (n : Nat) (f : NodeX → NodeX) : (h.modNode n f).reheat = h.reheat := rfl
@[simp] theorem Hub.modNode_rails (h : Hub) (n : Nat) (f : NodeX → NodeX) : (h.modNode n f).rails = h.rails := rfl
@[simp] theorem Hub.modNode_ovh (h : Hub) (n : Nat) (f : NodeX → NodeX) : (h.modNode n f).ovh = h.ovh := rfl
@[simp] theorem Hub.modNode_chipReset (h : Hub) (n : Nat) (f : NodeX → NodeX) : (h.modNode n f).chipReset = h.chipReset := rfl
@[simp] theorem Hub.modNode_captures (h : Hub) (n : Nat) (f : NodeX → NodeX) : (h.modNode n f).captures = h.captures := rfl
@[simp] theorem Hub.modNode_captureSeq (h : Hub) (n : Nat) (f : NodeX → NodeX) : (h.modNode n f).captureSeq = h.captureSeq := rfl
@[simp] theorem Hub.modNode_plans (h : Hub) (n : Nat) (f : NodeX → NodeX) : (h.modNode n f).plans = h.plans := rfl
@[simp] theorem Hub.modNode_doneJobs (h : Hub) (n : Nat) (f : NodeX → NodeX) : (h.modNode n f).doneJobs = h.doneJobs := rfl
@[simp] theorem Hub.modNode_heldJobs (h : Hub) (n : Nat) (f : NodeX → NodeX) : (h.modNode n f).heldJobs = h.heldJobs := rfl
@[simp] theorem Hub.modNode_swg (h : Hub) (n : Nat) (f : NodeX → NodeX) : (h.modNode n f).swg = h.swg := rfl
@[simp] theorem Hub.modNode_swgSeq (h : Hub) (n : Nat) (f : NodeX → NodeX) : (h.modNode n f).swgSeq = h.swgSeq := rfl
@[simp] theorem Hub.modNode_swgTurn (h : Hub) (n : Nat) (f : NodeX → NodeX) : (h.modNode n f).swgTurn = h.swgTurn := rfl
@[simp] theorem Hub.modNode_hostPath (h : Hub) (n : Nat) (f : NodeX → NodeX) : (h.modNode n f).hostPath = h.hostPath := rfl
@[simp] theorem Hub.modNode_xtrigUntil (h : Hub) (n : Nat) (f : NodeX → NodeX) : (h.modNode n f).xtrigUntil = h.xtrigUntil := rfl
@[simp] theorem Hub.modNode_spine (h : Hub) (n : Nat) (f : NodeX → NodeX) : (h.modNode n f).spine = h.spine := rfl
@[simp] theorem Hub.modNode_emberExitAt (h : Hub) (n : Nat) (f : NodeX → NodeX) : (h.modNode n f).emberExitAt = h.emberExitAt := rfl
@[simp] theorem Hub.modNode_ctxs (h : Hub) (n : Nat) (f : NodeX → NodeX) : (h.modNode n f).ctxs = h.ctxs := rfl
@[simp] theorem Hub.modNode_wheelNotes (h : Hub) (n : Nat) (f : NodeX → NodeX) : (h.modNode n f).wheelNotes = h.wheelNotes := rfl
@[simp] theorem Hub.modNode_wfg (h : Hub) (n : Nat) (f : NodeX → NodeX) : (h.modNode n f).wfg = h.wfg := rfl
@[simp] theorem Hub.modNode_lanes (h : Hub) (n : Nat) (f : NodeX → NodeX) : (h.modNode n f).lanes = h.lanes := rfl
@[simp] theorem Hub.modNode_resetStarts (h : Hub) (n : Nat) (f : NodeX → NodeX) : (h.modNode n f).resetStarts = h.resetStarts := rfl
@[simp] theorem Hub.modNode_seeds (h : Hub) (n : Nat) (f : NodeX → NodeX) : (h.modNode n f).seeds = h.seeds := rfl
@[simp] theorem Hub.modNode_retrains (h : Hub) (n : Nat) (f : NodeX → NodeX) : (h.modNode n f).retrains = h.retrains := rfl
@[simp] theorem Hub.modNode_emberActs (h : Hub) (n : Nat) (f : NodeX → NodeX) : (h.modNode n f).emberActs = h.emberActs := rfl
@[simp] theorem Hub.modNode_laneMoves (h : Hub) (n : Nat) (f : NodeX → NodeX) : (h.modNode n f).laneMoves = h.laneMoves := rfl
@[simp] theorem Hub.modNode_warmReq (h : Hub) (n : Nat) (f : NodeX → NodeX) : (h.modNode n f).warmReq = h.warmReq := rfl
@[simp] theorem Hub.modNode_ledger (h : Hub) (n : Nat) (f : NodeX → NodeX) : (h.modNode n f).ledger = h.ledger := rfl
@[simp] theorem Hub.modNode_failoverAt (h : Hub) (n : Nat) (f : NodeX → NodeX) : (h.modNode n f).failoverAt = h.failoverAt := rfl
@[simp] theorem Hub.modNode_units (h : Hub) (n : Nat) (f : NodeX → NodeX) : (h.modNode n f).units = h.units := rfl
@[simp] theorem Hub.modNode_cmds (h : Hub) (n : Nat) (f : NodeX → NodeX) : (h.modNode n f).cmds = h.cmds := rfl
@[simp] theorem Hub.modNode_nextCmd (h : Hub) (n : Nat) (f : NodeX → NodeX) : (h.modNode n f).nextCmd = h.nextCmd := rfl
@[simp] theorem Hub.modNode_txns (h : Hub) (n : Nat) (f : NodeX → NodeX) : (h.modNode n f).txns = h.txns := rfl
@[simp] theorem Hub.modNode_cores (h : Hub) (n : Nat) (f : NodeX → NodeX) : (h.modNode n f).cores = h.cores := rfl
@[simp] theorem Hub.modNode_masters (h : Hub) (n : Nat) (f : NodeX → NodeX) : (h.modNode n f).masters = h.masters := rfl
@[simp] theorem Hub.modNode_locks (h : Hub) (n : Nat) (f : NodeX → NodeX) : (h.modNode n f).locks = h.locks := rfl
@[simp] theorem Hub.modNode_links (h : Hub) (n : Nat) (f : NodeX → NodeX) : (h.modNode n f).links = h.links := rfl
@[simp] theorem Hub.modNode_mail (h : Hub) (n : Nat) (f : NodeX → NodeX) : (h.modNode n f).mail = h.mail := rfl
@[simp] theorem Hub.modNode_notices (h : Hub) (n : Nat) (f : NodeX → NodeX) : (h.modNode n f).notices = h.notices := rfl
@[simp] theorem Hub.modNode_heldNotices (h : Hub) (n : Nat) (f : NodeX → NodeX) : (h.modNode n f).heldNotices = h.heldNotices := rfl
@[simp] theorem Hub.modNode_heldEvents (h : Hub) (n : Nat) (f : NodeX → NodeX) : (h.modNode n f).heldEvents = h.heldEvents := rfl
@[simp] theorem Hub.modNode_out (h : Hub) (n : Nat) (f : NodeX → NodeX) : (h.modNode n f).out = h.out := rfl
@[simp] theorem Hub.modNode_load (h : Hub) (n : Nat) (f : NodeX → NodeX) : (h.modNode n f).load = h.load := rfl
@[simp] theorem Hub.modNode_offers (h : Hub) (n : Nat) (f : NodeX → NodeX) : (h.modNode n f).offers = h.offers := rfl
@[simp] theorem Hub.modNode_arms (h : Hub) (n : Nat) (f : NodeX → NodeX) : (h.modNode n f).arms = h.arms := rfl
@[simp] theorem Hub.modNode_fail (h : Hub) (n : Nat) (f : NodeX → NodeX) : (h.modNode n f).fail = h.fail := rfl
@[simp] theorem Hub.modNode_upd (h : Hub) (n : Nat) (f : NodeX → NodeX) : (h.modNode n f).upd = h.upd := rfl
@[simp] theorem Hub.modNode_mapOp (h : Hub) (n : Nat) (f : NodeX → NodeX) : (h.modNode n f).mapOp = h.mapOp := rfl
@[simp] theorem Hub.modNode_recal (h : Hub) (n : Nat) (f : NodeX → NodeX) : (h.modNode n f).recal = h.recal := rfl
@[simp] theorem Hub.modNode_boot (h : Hub) (n : Nat) (f : NodeX → NodeX) : (h.modNode n f).boot = h.boot := rfl
@[simp] theorem Hub.modNode_seq (h : Hub) (n : Nat) (f : NodeX → NodeX) : (h.modNode n f).seq = h.seq := rfl
@[simp] theorem Hub.modNode_spdm (h : Hub) (n : Nat) (f : NodeX → NodeX) : (h.modNode n f).spdm = h.spdm := rfl
@[simp] theorem Hub.modNode_sess (h : Hub) (n : Nat) (f : NodeX → NodeX) : (h.modNode n f).sess = h.sess := rfl
@[simp] theorem Hub.modNode_vyn (h : Hub) (n : Nat) (f : NodeX → NodeX) : (h.modNode n f).vyn = h.vyn := rfl
@[simp] theorem Hub.modNode_exports (h : Hub) (n : Nat) (f : NodeX → NodeX) : (h.modNode n f).exports = h.exports := rfl
@[simp] theorem Hub.modNode_rcptKeys (h : Hub) (n : Nat) (f : NodeX → NodeX) : (h.modNode n f).rcptKeys = h.rcptKeys := rfl
@[simp] theorem Hub.modNode_mctp (h : Hub) (n : Nat) (f : NodeX → NodeX) : (h.modNode n f).mctp = h.mctp := rfl
@[simp] theorem Hub.modNode_i3c (h : Hub) (n : Nat) (f : NodeX → NodeX) : (h.modNode n f).i3c = h.i3c := rfl
@[simp] theorem Hub.modNode_tap (h : Hub) (n : Nat) (f : NodeX → NodeX) : (h.modNode n f).tap = h.tap := rfl
@[simp] theorem Hub.reg_modNode (h : Hub) (n : Nat) (f : NodeX → NodeX) (s : Reg) (j : Nat) : (h.modNode n f).reg s j = h.reg s j := rfl
@[simp] theorem Hub.get_modNode (h : Hub) (n : Nat) (f : NodeX → NodeX) (g : Fld) (j : Nat) : (h.modNode n f).get g j = h.get g j := rfl
@[simp] theorem Hub.byte_modNode (h : Hub) (n : Nat) (f : NodeX → NodeX) (a' : Nat) : (h.modNode n f).byte a' = h.byte a' := rfl
@[simp] theorem Hub.core_modNode (h : Hub) (n : Nat) (f : NodeX → NodeX) (c : Nat) : (h.modNode n f).core c = h.core c := rfl
@[simp] theorem Hub.unit_modNode (h : Hub) (n : Nat) (f : NodeX → NodeX) (u : Nat) : (h.modNode n f).unit u = h.unit u := rfl
@[simp] theorem Hub.spoke_modNode (h : Hub) (n : Nat) (f : NodeX → NodeX) (n' : Nat) : (h.modNode n f).spoke n' = h.spoke n' := rfl
@[simp] theorem Hub.master_modNode (h : Hub) (n : Nat) (f : NodeX → NodeX) (m' : Master) : (h.modNode n f).master m' = h.master m' := rfl
@[simp] theorem Hub.lock_modNode (h : Hub) (n : Nat) (f : NodeX → NodeX) (l : Nat) : (h.modNode n f).lock l = h.lock l := rfl
@[simp] theorem Hub.link_modNode (h : Hub) (n : Nat) (f : NodeX → NodeX) (l : Nat) : (h.modNode n f).link l = h.link l := rfl

/-! ### `modUnit` -/

@[simp] theorem Hub.modUnit_regs (h : Hub) (n : Nat) (f : UnitX → UnitX) : (h.modUnit n f).regs = h.regs := rfl
@[simp] theorem Hub.modUnit_shadow (h : Hub) (n : Nat) (f : UnitX → UnitX) : (h.modUnit n f).shadow = h.shadow := rfl
@[simp] theorem Hub.modUnit_mem (h : Hub) (n : Nat) (f : UnitX → UnitX) : (h.modUnit n f).mem = h.mem := rfl
@[simp] theorem Hub.modUnit_fresh (h : Hub) (n : Nat) (f : UnitX → UnitX) : (h.modUnit n f).fresh = h.fresh := rfl
@[simp] theorem Hub.modUnit_owedStep (h : Hub) (n : Nat) (f : UnitX → UnitX) : (h.modUnit n f).owedStep = h.owedStep := rfl
@[simp] theorem Hub.modUnit_powered (h : Hub) (n : Nat) (f : UnitX → UnitX) : (h.modUnit n f).powered = h.powered := rfl
@[simp] theorem Hub.modUnit_cut (h : Hub) (n : Nat) (f : UnitX → UnitX) : (h.modUnit n f).cut = h.cut := rfl
@[simp] theorem Hub.modUnit_booting (h : Hub) (n : Nat) (f : UnitX → UnitX) : (h.modUnit n f).booting = h.booting := rfl
@[simp] theorem Hub.modUnit_failover (h : Hub) (n : Nat) (f : UnitX → UnitX) : (h.modUnit n f).failover = h.failover := rfl
@[simp] theorem Hub.modUnit_retired (h : Hub) (n : Nat) (f : UnitX → UnitX) : (h.modUnit n f).retired = h.retired := rfl
@[simp] theorem Hub.modUnit_time (h : Hub) (n : Nat) (f : UnitX → UnitX) : (h.modUnit n f).time = h.time := rfl
@[simp] theorem Hub.modUnit_spokes (h : Hub) (n : Nat) (f : UnitX → UnitX) : (h.modUnit n f).spokes = h.spokes := rfl
@[simp] theorem Hub.modUnit_nodes (h : Hub) (n : Nat) (f : UnitX → UnitX) : (h.modUnit n f).nodes = h.nodes := rfl
@[simp] theorem Hub.modUnit_quenchReqs (h : Hub) (n : Nat) (f : UnitX → UnitX) : (h.modUnit n f).quenchReqs = h.quenchReqs := rfl
@[simp] theorem Hub.modUnit_ramps (h : Hub) (n : Nat) (f : UnitX → UnitX) : (h.modUnit n f).ramps = h.ramps := rfl
@[simp] theorem Hub.modUnit_reheat (h : Hub) (n : Nat) (f : UnitX → UnitX) : (h.modUnit n f).reheat = h.reheat := rfl
@[simp] theorem Hub.modUnit_rails (h : Hub) (n : Nat) (f : UnitX → UnitX) : (h.modUnit n f).rails = h.rails := rfl
@[simp] theorem Hub.modUnit_ovh (h : Hub) (n : Nat) (f : UnitX → UnitX) : (h.modUnit n f).ovh = h.ovh := rfl
@[simp] theorem Hub.modUnit_chipReset (h : Hub) (n : Nat) (f : UnitX → UnitX) : (h.modUnit n f).chipReset = h.chipReset := rfl
@[simp] theorem Hub.modUnit_captures (h : Hub) (n : Nat) (f : UnitX → UnitX) : (h.modUnit n f).captures = h.captures := rfl
@[simp] theorem Hub.modUnit_captureSeq (h : Hub) (n : Nat) (f : UnitX → UnitX) : (h.modUnit n f).captureSeq = h.captureSeq := rfl
@[simp] theorem Hub.modUnit_plans (h : Hub) (n : Nat) (f : UnitX → UnitX) : (h.modUnit n f).plans = h.plans := rfl
@[simp] theorem Hub.modUnit_doneJobs (h : Hub) (n : Nat) (f : UnitX → UnitX) : (h.modUnit n f).doneJobs = h.doneJobs := rfl
@[simp] theorem Hub.modUnit_heldJobs (h : Hub) (n : Nat) (f : UnitX → UnitX) : (h.modUnit n f).heldJobs = h.heldJobs := rfl
@[simp] theorem Hub.modUnit_swg (h : Hub) (n : Nat) (f : UnitX → UnitX) : (h.modUnit n f).swg = h.swg := rfl
@[simp] theorem Hub.modUnit_swgSeq (h : Hub) (n : Nat) (f : UnitX → UnitX) : (h.modUnit n f).swgSeq = h.swgSeq := rfl
@[simp] theorem Hub.modUnit_swgTurn (h : Hub) (n : Nat) (f : UnitX → UnitX) : (h.modUnit n f).swgTurn = h.swgTurn := rfl
@[simp] theorem Hub.modUnit_hostPath (h : Hub) (n : Nat) (f : UnitX → UnitX) : (h.modUnit n f).hostPath = h.hostPath := rfl
@[simp] theorem Hub.modUnit_xtrigUntil (h : Hub) (n : Nat) (f : UnitX → UnitX) : (h.modUnit n f).xtrigUntil = h.xtrigUntil := rfl
@[simp] theorem Hub.modUnit_spine (h : Hub) (n : Nat) (f : UnitX → UnitX) : (h.modUnit n f).spine = h.spine := rfl
@[simp] theorem Hub.modUnit_emberExitAt (h : Hub) (n : Nat) (f : UnitX → UnitX) : (h.modUnit n f).emberExitAt = h.emberExitAt := rfl
@[simp] theorem Hub.modUnit_ctxs (h : Hub) (n : Nat) (f : UnitX → UnitX) : (h.modUnit n f).ctxs = h.ctxs := rfl
@[simp] theorem Hub.modUnit_wheelNotes (h : Hub) (n : Nat) (f : UnitX → UnitX) : (h.modUnit n f).wheelNotes = h.wheelNotes := rfl
@[simp] theorem Hub.modUnit_wfg (h : Hub) (n : Nat) (f : UnitX → UnitX) : (h.modUnit n f).wfg = h.wfg := rfl
@[simp] theorem Hub.modUnit_lanes (h : Hub) (n : Nat) (f : UnitX → UnitX) : (h.modUnit n f).lanes = h.lanes := rfl
@[simp] theorem Hub.modUnit_resetStarts (h : Hub) (n : Nat) (f : UnitX → UnitX) : (h.modUnit n f).resetStarts = h.resetStarts := rfl
@[simp] theorem Hub.modUnit_seeds (h : Hub) (n : Nat) (f : UnitX → UnitX) : (h.modUnit n f).seeds = h.seeds := rfl
@[simp] theorem Hub.modUnit_retrains (h : Hub) (n : Nat) (f : UnitX → UnitX) : (h.modUnit n f).retrains = h.retrains := rfl
@[simp] theorem Hub.modUnit_emberActs (h : Hub) (n : Nat) (f : UnitX → UnitX) : (h.modUnit n f).emberActs = h.emberActs := rfl
@[simp] theorem Hub.modUnit_laneMoves (h : Hub) (n : Nat) (f : UnitX → UnitX) : (h.modUnit n f).laneMoves = h.laneMoves := rfl
@[simp] theorem Hub.modUnit_warmReq (h : Hub) (n : Nat) (f : UnitX → UnitX) : (h.modUnit n f).warmReq = h.warmReq := rfl
@[simp] theorem Hub.modUnit_ledger (h : Hub) (n : Nat) (f : UnitX → UnitX) : (h.modUnit n f).ledger = h.ledger := rfl
@[simp] theorem Hub.modUnit_failoverAt (h : Hub) (n : Nat) (f : UnitX → UnitX) : (h.modUnit n f).failoverAt = h.failoverAt := rfl
@[simp] theorem Hub.modUnit_cmds (h : Hub) (n : Nat) (f : UnitX → UnitX) : (h.modUnit n f).cmds = h.cmds := rfl
@[simp] theorem Hub.modUnit_nextCmd (h : Hub) (n : Nat) (f : UnitX → UnitX) : (h.modUnit n f).nextCmd = h.nextCmd := rfl
@[simp] theorem Hub.modUnit_txns (h : Hub) (n : Nat) (f : UnitX → UnitX) : (h.modUnit n f).txns = h.txns := rfl
@[simp] theorem Hub.modUnit_cores (h : Hub) (n : Nat) (f : UnitX → UnitX) : (h.modUnit n f).cores = h.cores := rfl
@[simp] theorem Hub.modUnit_masters (h : Hub) (n : Nat) (f : UnitX → UnitX) : (h.modUnit n f).masters = h.masters := rfl
@[simp] theorem Hub.modUnit_locks (h : Hub) (n : Nat) (f : UnitX → UnitX) : (h.modUnit n f).locks = h.locks := rfl
@[simp] theorem Hub.modUnit_links (h : Hub) (n : Nat) (f : UnitX → UnitX) : (h.modUnit n f).links = h.links := rfl
@[simp] theorem Hub.modUnit_mail (h : Hub) (n : Nat) (f : UnitX → UnitX) : (h.modUnit n f).mail = h.mail := rfl
@[simp] theorem Hub.modUnit_notices (h : Hub) (n : Nat) (f : UnitX → UnitX) : (h.modUnit n f).notices = h.notices := rfl
@[simp] theorem Hub.modUnit_heldNotices (h : Hub) (n : Nat) (f : UnitX → UnitX) : (h.modUnit n f).heldNotices = h.heldNotices := rfl
@[simp] theorem Hub.modUnit_heldEvents (h : Hub) (n : Nat) (f : UnitX → UnitX) : (h.modUnit n f).heldEvents = h.heldEvents := rfl
@[simp] theorem Hub.modUnit_out (h : Hub) (n : Nat) (f : UnitX → UnitX) : (h.modUnit n f).out = h.out := rfl
@[simp] theorem Hub.modUnit_load (h : Hub) (n : Nat) (f : UnitX → UnitX) : (h.modUnit n f).load = h.load := rfl
@[simp] theorem Hub.modUnit_offers (h : Hub) (n : Nat) (f : UnitX → UnitX) : (h.modUnit n f).offers = h.offers := rfl
@[simp] theorem Hub.modUnit_arms (h : Hub) (n : Nat) (f : UnitX → UnitX) : (h.modUnit n f).arms = h.arms := rfl
@[simp] theorem Hub.modUnit_fail (h : Hub) (n : Nat) (f : UnitX → UnitX) : (h.modUnit n f).fail = h.fail := rfl
@[simp] theorem Hub.modUnit_upd (h : Hub) (n : Nat) (f : UnitX → UnitX) : (h.modUnit n f).upd = h.upd := rfl
@[simp] theorem Hub.modUnit_mapOp (h : Hub) (n : Nat) (f : UnitX → UnitX) : (h.modUnit n f).mapOp = h.mapOp := rfl
@[simp] theorem Hub.modUnit_recal (h : Hub) (n : Nat) (f : UnitX → UnitX) : (h.modUnit n f).recal = h.recal := rfl
@[simp] theorem Hub.modUnit_boot (h : Hub) (n : Nat) (f : UnitX → UnitX) : (h.modUnit n f).boot = h.boot := rfl
@[simp] theorem Hub.modUnit_seq (h : Hub) (n : Nat) (f : UnitX → UnitX) : (h.modUnit n f).seq = h.seq := rfl
@[simp] theorem Hub.modUnit_spdm (h : Hub) (n : Nat) (f : UnitX → UnitX) : (h.modUnit n f).spdm = h.spdm := rfl
@[simp] theorem Hub.modUnit_sess (h : Hub) (n : Nat) (f : UnitX → UnitX) : (h.modUnit n f).sess = h.sess := rfl
@[simp] theorem Hub.modUnit_vyn (h : Hub) (n : Nat) (f : UnitX → UnitX) : (h.modUnit n f).vyn = h.vyn := rfl
@[simp] theorem Hub.modUnit_exports (h : Hub) (n : Nat) (f : UnitX → UnitX) : (h.modUnit n f).exports = h.exports := rfl
@[simp] theorem Hub.modUnit_rcptKeys (h : Hub) (n : Nat) (f : UnitX → UnitX) : (h.modUnit n f).rcptKeys = h.rcptKeys := rfl
@[simp] theorem Hub.modUnit_mctp (h : Hub) (n : Nat) (f : UnitX → UnitX) : (h.modUnit n f).mctp = h.mctp := rfl
@[simp] theorem Hub.modUnit_i3c (h : Hub) (n : Nat) (f : UnitX → UnitX) : (h.modUnit n f).i3c = h.i3c := rfl
@[simp] theorem Hub.modUnit_tap (h : Hub) (n : Nat) (f : UnitX → UnitX) : (h.modUnit n f).tap = h.tap := rfl
@[simp] theorem Hub.reg_modUnit (h : Hub) (n : Nat) (f : UnitX → UnitX) (s : Reg) (j : Nat) : (h.modUnit n f).reg s j = h.reg s j := rfl
@[simp] theorem Hub.get_modUnit (h : Hub) (n : Nat) (f : UnitX → UnitX) (g : Fld) (j : Nat) : (h.modUnit n f).get g j = h.get g j := rfl
@[simp] theorem Hub.byte_modUnit (h : Hub) (n : Nat) (f : UnitX → UnitX) (a' : Nat) : (h.modUnit n f).byte a' = h.byte a' := rfl
@[simp] theorem Hub.core_modUnit (h : Hub) (n : Nat) (f : UnitX → UnitX) (c : Nat) : (h.modUnit n f).core c = h.core c := rfl
@[simp] theorem Hub.spoke_modUnit (h : Hub) (n : Nat) (f : UnitX → UnitX) (n' : Nat) : (h.modUnit n f).spoke n' = h.spoke n' := rfl
@[simp] theorem Hub.master_modUnit (h : Hub) (n : Nat) (f : UnitX → UnitX) (m' : Master) : (h.modUnit n f).master m' = h.master m' := rfl
@[simp] theorem Hub.lock_modUnit (h : Hub) (n : Nat) (f : UnitX → UnitX) (l : Nat) : (h.modUnit n f).lock l = h.lock l := rfl
@[simp] theorem Hub.link_modUnit (h : Hub) (n : Nat) (f : UnitX → UnitX) (l : Nat) : (h.modUnit n f).link l = h.link l := rfl

/-! ### `modCore` -/

@[simp] theorem Hub.modCore_regs (h : Hub) (n : Nat) (f : CoreX → CoreX) : (h.modCore n f).regs = h.regs := rfl
@[simp] theorem Hub.modCore_shadow (h : Hub) (n : Nat) (f : CoreX → CoreX) : (h.modCore n f).shadow = h.shadow := rfl
@[simp] theorem Hub.modCore_mem (h : Hub) (n : Nat) (f : CoreX → CoreX) : (h.modCore n f).mem = h.mem := rfl
@[simp] theorem Hub.modCore_fresh (h : Hub) (n : Nat) (f : CoreX → CoreX) : (h.modCore n f).fresh = h.fresh := rfl
@[simp] theorem Hub.modCore_owedStep (h : Hub) (n : Nat) (f : CoreX → CoreX) : (h.modCore n f).owedStep = h.owedStep := rfl
@[simp] theorem Hub.modCore_powered (h : Hub) (n : Nat) (f : CoreX → CoreX) : (h.modCore n f).powered = h.powered := rfl
@[simp] theorem Hub.modCore_cut (h : Hub) (n : Nat) (f : CoreX → CoreX) : (h.modCore n f).cut = h.cut := rfl
@[simp] theorem Hub.modCore_booting (h : Hub) (n : Nat) (f : CoreX → CoreX) : (h.modCore n f).booting = h.booting := rfl
@[simp] theorem Hub.modCore_failover (h : Hub) (n : Nat) (f : CoreX → CoreX) : (h.modCore n f).failover = h.failover := rfl
@[simp] theorem Hub.modCore_retired (h : Hub) (n : Nat) (f : CoreX → CoreX) : (h.modCore n f).retired = h.retired := rfl
@[simp] theorem Hub.modCore_time (h : Hub) (n : Nat) (f : CoreX → CoreX) : (h.modCore n f).time = h.time := rfl
@[simp] theorem Hub.modCore_spokes (h : Hub) (n : Nat) (f : CoreX → CoreX) : (h.modCore n f).spokes = h.spokes := rfl
@[simp] theorem Hub.modCore_nodes (h : Hub) (n : Nat) (f : CoreX → CoreX) : (h.modCore n f).nodes = h.nodes := rfl
@[simp] theorem Hub.modCore_quenchReqs (h : Hub) (n : Nat) (f : CoreX → CoreX) : (h.modCore n f).quenchReqs = h.quenchReqs := rfl
@[simp] theorem Hub.modCore_ramps (h : Hub) (n : Nat) (f : CoreX → CoreX) : (h.modCore n f).ramps = h.ramps := rfl
@[simp] theorem Hub.modCore_reheat (h : Hub) (n : Nat) (f : CoreX → CoreX) : (h.modCore n f).reheat = h.reheat := rfl
@[simp] theorem Hub.modCore_rails (h : Hub) (n : Nat) (f : CoreX → CoreX) : (h.modCore n f).rails = h.rails := rfl
@[simp] theorem Hub.modCore_ovh (h : Hub) (n : Nat) (f : CoreX → CoreX) : (h.modCore n f).ovh = h.ovh := rfl
@[simp] theorem Hub.modCore_chipReset (h : Hub) (n : Nat) (f : CoreX → CoreX) : (h.modCore n f).chipReset = h.chipReset := rfl
@[simp] theorem Hub.modCore_captures (h : Hub) (n : Nat) (f : CoreX → CoreX) : (h.modCore n f).captures = h.captures := rfl
@[simp] theorem Hub.modCore_captureSeq (h : Hub) (n : Nat) (f : CoreX → CoreX) : (h.modCore n f).captureSeq = h.captureSeq := rfl
@[simp] theorem Hub.modCore_plans (h : Hub) (n : Nat) (f : CoreX → CoreX) : (h.modCore n f).plans = h.plans := rfl
@[simp] theorem Hub.modCore_doneJobs (h : Hub) (n : Nat) (f : CoreX → CoreX) : (h.modCore n f).doneJobs = h.doneJobs := rfl
@[simp] theorem Hub.modCore_heldJobs (h : Hub) (n : Nat) (f : CoreX → CoreX) : (h.modCore n f).heldJobs = h.heldJobs := rfl
@[simp] theorem Hub.modCore_swg (h : Hub) (n : Nat) (f : CoreX → CoreX) : (h.modCore n f).swg = h.swg := rfl
@[simp] theorem Hub.modCore_swgSeq (h : Hub) (n : Nat) (f : CoreX → CoreX) : (h.modCore n f).swgSeq = h.swgSeq := rfl
@[simp] theorem Hub.modCore_swgTurn (h : Hub) (n : Nat) (f : CoreX → CoreX) : (h.modCore n f).swgTurn = h.swgTurn := rfl
@[simp] theorem Hub.modCore_hostPath (h : Hub) (n : Nat) (f : CoreX → CoreX) : (h.modCore n f).hostPath = h.hostPath := rfl
@[simp] theorem Hub.modCore_xtrigUntil (h : Hub) (n : Nat) (f : CoreX → CoreX) : (h.modCore n f).xtrigUntil = h.xtrigUntil := rfl
@[simp] theorem Hub.modCore_spine (h : Hub) (n : Nat) (f : CoreX → CoreX) : (h.modCore n f).spine = h.spine := rfl
@[simp] theorem Hub.modCore_emberExitAt (h : Hub) (n : Nat) (f : CoreX → CoreX) : (h.modCore n f).emberExitAt = h.emberExitAt := rfl
@[simp] theorem Hub.modCore_ctxs (h : Hub) (n : Nat) (f : CoreX → CoreX) : (h.modCore n f).ctxs = h.ctxs := rfl
@[simp] theorem Hub.modCore_wheelNotes (h : Hub) (n : Nat) (f : CoreX → CoreX) : (h.modCore n f).wheelNotes = h.wheelNotes := rfl
@[simp] theorem Hub.modCore_wfg (h : Hub) (n : Nat) (f : CoreX → CoreX) : (h.modCore n f).wfg = h.wfg := rfl
@[simp] theorem Hub.modCore_lanes (h : Hub) (n : Nat) (f : CoreX → CoreX) : (h.modCore n f).lanes = h.lanes := rfl
@[simp] theorem Hub.modCore_resetStarts (h : Hub) (n : Nat) (f : CoreX → CoreX) : (h.modCore n f).resetStarts = h.resetStarts := rfl
@[simp] theorem Hub.modCore_seeds (h : Hub) (n : Nat) (f : CoreX → CoreX) : (h.modCore n f).seeds = h.seeds := rfl
@[simp] theorem Hub.modCore_retrains (h : Hub) (n : Nat) (f : CoreX → CoreX) : (h.modCore n f).retrains = h.retrains := rfl
@[simp] theorem Hub.modCore_emberActs (h : Hub) (n : Nat) (f : CoreX → CoreX) : (h.modCore n f).emberActs = h.emberActs := rfl
@[simp] theorem Hub.modCore_laneMoves (h : Hub) (n : Nat) (f : CoreX → CoreX) : (h.modCore n f).laneMoves = h.laneMoves := rfl
@[simp] theorem Hub.modCore_warmReq (h : Hub) (n : Nat) (f : CoreX → CoreX) : (h.modCore n f).warmReq = h.warmReq := rfl
@[simp] theorem Hub.modCore_ledger (h : Hub) (n : Nat) (f : CoreX → CoreX) : (h.modCore n f).ledger = h.ledger := rfl
@[simp] theorem Hub.modCore_failoverAt (h : Hub) (n : Nat) (f : CoreX → CoreX) : (h.modCore n f).failoverAt = h.failoverAt := rfl
@[simp] theorem Hub.modCore_units (h : Hub) (n : Nat) (f : CoreX → CoreX) : (h.modCore n f).units = h.units := rfl
@[simp] theorem Hub.modCore_cmds (h : Hub) (n : Nat) (f : CoreX → CoreX) : (h.modCore n f).cmds = h.cmds := rfl
@[simp] theorem Hub.modCore_nextCmd (h : Hub) (n : Nat) (f : CoreX → CoreX) : (h.modCore n f).nextCmd = h.nextCmd := rfl
@[simp] theorem Hub.modCore_txns (h : Hub) (n : Nat) (f : CoreX → CoreX) : (h.modCore n f).txns = h.txns := rfl
@[simp] theorem Hub.modCore_masters (h : Hub) (n : Nat) (f : CoreX → CoreX) : (h.modCore n f).masters = h.masters := rfl
@[simp] theorem Hub.modCore_locks (h : Hub) (n : Nat) (f : CoreX → CoreX) : (h.modCore n f).locks = h.locks := rfl
@[simp] theorem Hub.modCore_links (h : Hub) (n : Nat) (f : CoreX → CoreX) : (h.modCore n f).links = h.links := rfl
@[simp] theorem Hub.modCore_mail (h : Hub) (n : Nat) (f : CoreX → CoreX) : (h.modCore n f).mail = h.mail := rfl
@[simp] theorem Hub.modCore_notices (h : Hub) (n : Nat) (f : CoreX → CoreX) : (h.modCore n f).notices = h.notices := rfl
@[simp] theorem Hub.modCore_heldNotices (h : Hub) (n : Nat) (f : CoreX → CoreX) : (h.modCore n f).heldNotices = h.heldNotices := rfl
@[simp] theorem Hub.modCore_heldEvents (h : Hub) (n : Nat) (f : CoreX → CoreX) : (h.modCore n f).heldEvents = h.heldEvents := rfl
@[simp] theorem Hub.modCore_out (h : Hub) (n : Nat) (f : CoreX → CoreX) : (h.modCore n f).out = h.out := rfl
@[simp] theorem Hub.modCore_load (h : Hub) (n : Nat) (f : CoreX → CoreX) : (h.modCore n f).load = h.load := rfl
@[simp] theorem Hub.modCore_offers (h : Hub) (n : Nat) (f : CoreX → CoreX) : (h.modCore n f).offers = h.offers := rfl
@[simp] theorem Hub.modCore_arms (h : Hub) (n : Nat) (f : CoreX → CoreX) : (h.modCore n f).arms = h.arms := rfl
@[simp] theorem Hub.modCore_fail (h : Hub) (n : Nat) (f : CoreX → CoreX) : (h.modCore n f).fail = h.fail := rfl
@[simp] theorem Hub.modCore_upd (h : Hub) (n : Nat) (f : CoreX → CoreX) : (h.modCore n f).upd = h.upd := rfl
@[simp] theorem Hub.modCore_mapOp (h : Hub) (n : Nat) (f : CoreX → CoreX) : (h.modCore n f).mapOp = h.mapOp := rfl
@[simp] theorem Hub.modCore_recal (h : Hub) (n : Nat) (f : CoreX → CoreX) : (h.modCore n f).recal = h.recal := rfl
@[simp] theorem Hub.modCore_boot (h : Hub) (n : Nat) (f : CoreX → CoreX) : (h.modCore n f).boot = h.boot := rfl
@[simp] theorem Hub.modCore_seq (h : Hub) (n : Nat) (f : CoreX → CoreX) : (h.modCore n f).seq = h.seq := rfl
@[simp] theorem Hub.modCore_spdm (h : Hub) (n : Nat) (f : CoreX → CoreX) : (h.modCore n f).spdm = h.spdm := rfl
@[simp] theorem Hub.modCore_sess (h : Hub) (n : Nat) (f : CoreX → CoreX) : (h.modCore n f).sess = h.sess := rfl
@[simp] theorem Hub.modCore_vyn (h : Hub) (n : Nat) (f : CoreX → CoreX) : (h.modCore n f).vyn = h.vyn := rfl
@[simp] theorem Hub.modCore_exports (h : Hub) (n : Nat) (f : CoreX → CoreX) : (h.modCore n f).exports = h.exports := rfl
@[simp] theorem Hub.modCore_rcptKeys (h : Hub) (n : Nat) (f : CoreX → CoreX) : (h.modCore n f).rcptKeys = h.rcptKeys := rfl
@[simp] theorem Hub.modCore_mctp (h : Hub) (n : Nat) (f : CoreX → CoreX) : (h.modCore n f).mctp = h.mctp := rfl
@[simp] theorem Hub.modCore_i3c (h : Hub) (n : Nat) (f : CoreX → CoreX) : (h.modCore n f).i3c = h.i3c := rfl
@[simp] theorem Hub.modCore_tap (h : Hub) (n : Nat) (f : CoreX → CoreX) : (h.modCore n f).tap = h.tap := rfl
@[simp] theorem Hub.reg_modCore (h : Hub) (n : Nat) (f : CoreX → CoreX) (s : Reg) (j : Nat) : (h.modCore n f).reg s j = h.reg s j := rfl
@[simp] theorem Hub.get_modCore (h : Hub) (n : Nat) (f : CoreX → CoreX) (g : Fld) (j : Nat) : (h.modCore n f).get g j = h.get g j := rfl
@[simp] theorem Hub.byte_modCore (h : Hub) (n : Nat) (f : CoreX → CoreX) (a' : Nat) : (h.modCore n f).byte a' = h.byte a' := rfl
@[simp] theorem Hub.unit_modCore (h : Hub) (n : Nat) (f : CoreX → CoreX) (u : Nat) : (h.modCore n f).unit u = h.unit u := rfl
@[simp] theorem Hub.spoke_modCore (h : Hub) (n : Nat) (f : CoreX → CoreX) (n' : Nat) : (h.modCore n f).spoke n' = h.spoke n' := rfl
@[simp] theorem Hub.master_modCore (h : Hub) (n : Nat) (f : CoreX → CoreX) (m' : Master) : (h.modCore n f).master m' = h.master m' := rfl
@[simp] theorem Hub.lock_modCore (h : Hub) (n : Nat) (f : CoreX → CoreX) (l : Nat) : (h.modCore n f).lock l = h.lock l := rfl
@[simp] theorem Hub.link_modCore (h : Hub) (n : Nat) (f : CoreX → CoreX) (l : Nat) : (h.modCore n f).link l = h.link l := rfl

/-! ### `modMaster` -/

@[simp] theorem Hub.modMaster_regs (h : Hub) (m : Master) (f : MasterX → MasterX) : (h.modMaster m f).regs = h.regs := rfl
@[simp] theorem Hub.modMaster_shadow (h : Hub) (m : Master) (f : MasterX → MasterX) : (h.modMaster m f).shadow = h.shadow := rfl
@[simp] theorem Hub.modMaster_mem (h : Hub) (m : Master) (f : MasterX → MasterX) : (h.modMaster m f).mem = h.mem := rfl
@[simp] theorem Hub.modMaster_fresh (h : Hub) (m : Master) (f : MasterX → MasterX) : (h.modMaster m f).fresh = h.fresh := rfl
@[simp] theorem Hub.modMaster_owedStep (h : Hub) (m : Master) (f : MasterX → MasterX) : (h.modMaster m f).owedStep = h.owedStep := rfl
@[simp] theorem Hub.modMaster_powered (h : Hub) (m : Master) (f : MasterX → MasterX) : (h.modMaster m f).powered = h.powered := rfl
@[simp] theorem Hub.modMaster_cut (h : Hub) (m : Master) (f : MasterX → MasterX) : (h.modMaster m f).cut = h.cut := rfl
@[simp] theorem Hub.modMaster_booting (h : Hub) (m : Master) (f : MasterX → MasterX) : (h.modMaster m f).booting = h.booting := rfl
@[simp] theorem Hub.modMaster_failover (h : Hub) (m : Master) (f : MasterX → MasterX) : (h.modMaster m f).failover = h.failover := rfl
@[simp] theorem Hub.modMaster_retired (h : Hub) (m : Master) (f : MasterX → MasterX) : (h.modMaster m f).retired = h.retired := rfl
@[simp] theorem Hub.modMaster_time (h : Hub) (m : Master) (f : MasterX → MasterX) : (h.modMaster m f).time = h.time := rfl
@[simp] theorem Hub.modMaster_spokes (h : Hub) (m : Master) (f : MasterX → MasterX) : (h.modMaster m f).spokes = h.spokes := rfl
@[simp] theorem Hub.modMaster_nodes (h : Hub) (m : Master) (f : MasterX → MasterX) : (h.modMaster m f).nodes = h.nodes := rfl
@[simp] theorem Hub.modMaster_quenchReqs (h : Hub) (m : Master) (f : MasterX → MasterX) : (h.modMaster m f).quenchReqs = h.quenchReqs := rfl
@[simp] theorem Hub.modMaster_ramps (h : Hub) (m : Master) (f : MasterX → MasterX) : (h.modMaster m f).ramps = h.ramps := rfl
@[simp] theorem Hub.modMaster_reheat (h : Hub) (m : Master) (f : MasterX → MasterX) : (h.modMaster m f).reheat = h.reheat := rfl
@[simp] theorem Hub.modMaster_rails (h : Hub) (m : Master) (f : MasterX → MasterX) : (h.modMaster m f).rails = h.rails := rfl
@[simp] theorem Hub.modMaster_ovh (h : Hub) (m : Master) (f : MasterX → MasterX) : (h.modMaster m f).ovh = h.ovh := rfl
@[simp] theorem Hub.modMaster_chipReset (h : Hub) (m : Master) (f : MasterX → MasterX) : (h.modMaster m f).chipReset = h.chipReset := rfl
@[simp] theorem Hub.modMaster_captures (h : Hub) (m : Master) (f : MasterX → MasterX) : (h.modMaster m f).captures = h.captures := rfl
@[simp] theorem Hub.modMaster_captureSeq (h : Hub) (m : Master) (f : MasterX → MasterX) : (h.modMaster m f).captureSeq = h.captureSeq := rfl
@[simp] theorem Hub.modMaster_plans (h : Hub) (m : Master) (f : MasterX → MasterX) : (h.modMaster m f).plans = h.plans := rfl
@[simp] theorem Hub.modMaster_doneJobs (h : Hub) (m : Master) (f : MasterX → MasterX) : (h.modMaster m f).doneJobs = h.doneJobs := rfl
@[simp] theorem Hub.modMaster_heldJobs (h : Hub) (m : Master) (f : MasterX → MasterX) : (h.modMaster m f).heldJobs = h.heldJobs := rfl
@[simp] theorem Hub.modMaster_swg (h : Hub) (m : Master) (f : MasterX → MasterX) : (h.modMaster m f).swg = h.swg := rfl
@[simp] theorem Hub.modMaster_swgSeq (h : Hub) (m : Master) (f : MasterX → MasterX) : (h.modMaster m f).swgSeq = h.swgSeq := rfl
@[simp] theorem Hub.modMaster_swgTurn (h : Hub) (m : Master) (f : MasterX → MasterX) : (h.modMaster m f).swgTurn = h.swgTurn := rfl
@[simp] theorem Hub.modMaster_hostPath (h : Hub) (m : Master) (f : MasterX → MasterX) : (h.modMaster m f).hostPath = h.hostPath := rfl
@[simp] theorem Hub.modMaster_xtrigUntil (h : Hub) (m : Master) (f : MasterX → MasterX) : (h.modMaster m f).xtrigUntil = h.xtrigUntil := rfl
@[simp] theorem Hub.modMaster_spine (h : Hub) (m : Master) (f : MasterX → MasterX) : (h.modMaster m f).spine = h.spine := rfl
@[simp] theorem Hub.modMaster_emberExitAt (h : Hub) (m : Master) (f : MasterX → MasterX) : (h.modMaster m f).emberExitAt = h.emberExitAt := rfl
@[simp] theorem Hub.modMaster_ctxs (h : Hub) (m : Master) (f : MasterX → MasterX) : (h.modMaster m f).ctxs = h.ctxs := rfl
@[simp] theorem Hub.modMaster_wheelNotes (h : Hub) (m : Master) (f : MasterX → MasterX) : (h.modMaster m f).wheelNotes = h.wheelNotes := rfl
@[simp] theorem Hub.modMaster_wfg (h : Hub) (m : Master) (f : MasterX → MasterX) : (h.modMaster m f).wfg = h.wfg := rfl
@[simp] theorem Hub.modMaster_lanes (h : Hub) (m : Master) (f : MasterX → MasterX) : (h.modMaster m f).lanes = h.lanes := rfl
@[simp] theorem Hub.modMaster_resetStarts (h : Hub) (m : Master) (f : MasterX → MasterX) : (h.modMaster m f).resetStarts = h.resetStarts := rfl
@[simp] theorem Hub.modMaster_seeds (h : Hub) (m : Master) (f : MasterX → MasterX) : (h.modMaster m f).seeds = h.seeds := rfl
@[simp] theorem Hub.modMaster_retrains (h : Hub) (m : Master) (f : MasterX → MasterX) : (h.modMaster m f).retrains = h.retrains := rfl
@[simp] theorem Hub.modMaster_emberActs (h : Hub) (m : Master) (f : MasterX → MasterX) : (h.modMaster m f).emberActs = h.emberActs := rfl
@[simp] theorem Hub.modMaster_laneMoves (h : Hub) (m : Master) (f : MasterX → MasterX) : (h.modMaster m f).laneMoves = h.laneMoves := rfl
@[simp] theorem Hub.modMaster_warmReq (h : Hub) (m : Master) (f : MasterX → MasterX) : (h.modMaster m f).warmReq = h.warmReq := rfl
@[simp] theorem Hub.modMaster_ledger (h : Hub) (m : Master) (f : MasterX → MasterX) : (h.modMaster m f).ledger = h.ledger := rfl
@[simp] theorem Hub.modMaster_failoverAt (h : Hub) (m : Master) (f : MasterX → MasterX) : (h.modMaster m f).failoverAt = h.failoverAt := rfl
@[simp] theorem Hub.modMaster_units (h : Hub) (m : Master) (f : MasterX → MasterX) : (h.modMaster m f).units = h.units := rfl
@[simp] theorem Hub.modMaster_cmds (h : Hub) (m : Master) (f : MasterX → MasterX) : (h.modMaster m f).cmds = h.cmds := rfl
@[simp] theorem Hub.modMaster_nextCmd (h : Hub) (m : Master) (f : MasterX → MasterX) : (h.modMaster m f).nextCmd = h.nextCmd := rfl
@[simp] theorem Hub.modMaster_txns (h : Hub) (m : Master) (f : MasterX → MasterX) : (h.modMaster m f).txns = h.txns := rfl
@[simp] theorem Hub.modMaster_cores (h : Hub) (m : Master) (f : MasterX → MasterX) : (h.modMaster m f).cores = h.cores := rfl
@[simp] theorem Hub.modMaster_locks (h : Hub) (m : Master) (f : MasterX → MasterX) : (h.modMaster m f).locks = h.locks := rfl
@[simp] theorem Hub.modMaster_links (h : Hub) (m : Master) (f : MasterX → MasterX) : (h.modMaster m f).links = h.links := rfl
@[simp] theorem Hub.modMaster_mail (h : Hub) (m : Master) (f : MasterX → MasterX) : (h.modMaster m f).mail = h.mail := rfl
@[simp] theorem Hub.modMaster_notices (h : Hub) (m : Master) (f : MasterX → MasterX) : (h.modMaster m f).notices = h.notices := rfl
@[simp] theorem Hub.modMaster_heldNotices (h : Hub) (m : Master) (f : MasterX → MasterX) : (h.modMaster m f).heldNotices = h.heldNotices := rfl
@[simp] theorem Hub.modMaster_heldEvents (h : Hub) (m : Master) (f : MasterX → MasterX) : (h.modMaster m f).heldEvents = h.heldEvents := rfl
@[simp] theorem Hub.modMaster_out (h : Hub) (m : Master) (f : MasterX → MasterX) : (h.modMaster m f).out = h.out := rfl
@[simp] theorem Hub.modMaster_load (h : Hub) (m : Master) (f : MasterX → MasterX) : (h.modMaster m f).load = h.load := rfl
@[simp] theorem Hub.modMaster_offers (h : Hub) (m : Master) (f : MasterX → MasterX) : (h.modMaster m f).offers = h.offers := rfl
@[simp] theorem Hub.modMaster_arms (h : Hub) (m : Master) (f : MasterX → MasterX) : (h.modMaster m f).arms = h.arms := rfl
@[simp] theorem Hub.modMaster_fail (h : Hub) (m : Master) (f : MasterX → MasterX) : (h.modMaster m f).fail = h.fail := rfl
@[simp] theorem Hub.modMaster_upd (h : Hub) (m : Master) (f : MasterX → MasterX) : (h.modMaster m f).upd = h.upd := rfl
@[simp] theorem Hub.modMaster_mapOp (h : Hub) (m : Master) (f : MasterX → MasterX) : (h.modMaster m f).mapOp = h.mapOp := rfl
@[simp] theorem Hub.modMaster_recal (h : Hub) (m : Master) (f : MasterX → MasterX) : (h.modMaster m f).recal = h.recal := rfl
@[simp] theorem Hub.modMaster_boot (h : Hub) (m : Master) (f : MasterX → MasterX) : (h.modMaster m f).boot = h.boot := rfl
@[simp] theorem Hub.modMaster_seq (h : Hub) (m : Master) (f : MasterX → MasterX) : (h.modMaster m f).seq = h.seq := rfl
@[simp] theorem Hub.modMaster_spdm (h : Hub) (m : Master) (f : MasterX → MasterX) : (h.modMaster m f).spdm = h.spdm := rfl
@[simp] theorem Hub.modMaster_sess (h : Hub) (m : Master) (f : MasterX → MasterX) : (h.modMaster m f).sess = h.sess := rfl
@[simp] theorem Hub.modMaster_vyn (h : Hub) (m : Master) (f : MasterX → MasterX) : (h.modMaster m f).vyn = h.vyn := rfl
@[simp] theorem Hub.modMaster_exports (h : Hub) (m : Master) (f : MasterX → MasterX) : (h.modMaster m f).exports = h.exports := rfl
@[simp] theorem Hub.modMaster_rcptKeys (h : Hub) (m : Master) (f : MasterX → MasterX) : (h.modMaster m f).rcptKeys = h.rcptKeys := rfl
@[simp] theorem Hub.modMaster_mctp (h : Hub) (m : Master) (f : MasterX → MasterX) : (h.modMaster m f).mctp = h.mctp := rfl
@[simp] theorem Hub.modMaster_i3c (h : Hub) (m : Master) (f : MasterX → MasterX) : (h.modMaster m f).i3c = h.i3c := rfl
@[simp] theorem Hub.modMaster_tap (h : Hub) (m : Master) (f : MasterX → MasterX) : (h.modMaster m f).tap = h.tap := rfl
@[simp] theorem Hub.reg_modMaster (h : Hub) (m : Master) (f : MasterX → MasterX) (s : Reg) (j : Nat) : (h.modMaster m f).reg s j = h.reg s j := rfl
@[simp] theorem Hub.get_modMaster (h : Hub) (m : Master) (f : MasterX → MasterX) (g : Fld) (j : Nat) : (h.modMaster m f).get g j = h.get g j := rfl
@[simp] theorem Hub.byte_modMaster (h : Hub) (m : Master) (f : MasterX → MasterX) (a' : Nat) : (h.modMaster m f).byte a' = h.byte a' := rfl
@[simp] theorem Hub.core_modMaster (h : Hub) (m : Master) (f : MasterX → MasterX) (c : Nat) : (h.modMaster m f).core c = h.core c := rfl
@[simp] theorem Hub.unit_modMaster (h : Hub) (m : Master) (f : MasterX → MasterX) (u : Nat) : (h.modMaster m f).unit u = h.unit u := rfl
@[simp] theorem Hub.spoke_modMaster (h : Hub) (m : Master) (f : MasterX → MasterX) (n' : Nat) : (h.modMaster m f).spoke n' = h.spoke n' := rfl
@[simp] theorem Hub.lock_modMaster (h : Hub) (m : Master) (f : MasterX → MasterX) (l : Nat) : (h.modMaster m f).lock l = h.lock l := rfl
@[simp] theorem Hub.link_modMaster (h : Hub) (m : Master) (f : MasterX → MasterX) (l : Nat) : (h.modMaster m f).link l = h.link l := rfl

/-! ### `modLock` -/

@[simp] theorem Hub.modLock_regs (h : Hub) (n : Nat) (f : LockX → LockX) : (h.modLock n f).regs = h.regs := rfl
@[simp] theorem Hub.modLock_shadow (h : Hub) (n : Nat) (f : LockX → LockX) : (h.modLock n f).shadow = h.shadow := rfl
@[simp] theorem Hub.modLock_mem (h : Hub) (n : Nat) (f : LockX → LockX) : (h.modLock n f).mem = h.mem := rfl
@[simp] theorem Hub.modLock_fresh (h : Hub) (n : Nat) (f : LockX → LockX) : (h.modLock n f).fresh = h.fresh := rfl
@[simp] theorem Hub.modLock_owedStep (h : Hub) (n : Nat) (f : LockX → LockX) : (h.modLock n f).owedStep = h.owedStep := rfl
@[simp] theorem Hub.modLock_powered (h : Hub) (n : Nat) (f : LockX → LockX) : (h.modLock n f).powered = h.powered := rfl
@[simp] theorem Hub.modLock_cut (h : Hub) (n : Nat) (f : LockX → LockX) : (h.modLock n f).cut = h.cut := rfl
@[simp] theorem Hub.modLock_booting (h : Hub) (n : Nat) (f : LockX → LockX) : (h.modLock n f).booting = h.booting := rfl
@[simp] theorem Hub.modLock_failover (h : Hub) (n : Nat) (f : LockX → LockX) : (h.modLock n f).failover = h.failover := rfl
@[simp] theorem Hub.modLock_retired (h : Hub) (n : Nat) (f : LockX → LockX) : (h.modLock n f).retired = h.retired := rfl
@[simp] theorem Hub.modLock_time (h : Hub) (n : Nat) (f : LockX → LockX) : (h.modLock n f).time = h.time := rfl
@[simp] theorem Hub.modLock_spokes (h : Hub) (n : Nat) (f : LockX → LockX) : (h.modLock n f).spokes = h.spokes := rfl
@[simp] theorem Hub.modLock_nodes (h : Hub) (n : Nat) (f : LockX → LockX) : (h.modLock n f).nodes = h.nodes := rfl
@[simp] theorem Hub.modLock_quenchReqs (h : Hub) (n : Nat) (f : LockX → LockX) : (h.modLock n f).quenchReqs = h.quenchReqs := rfl
@[simp] theorem Hub.modLock_ramps (h : Hub) (n : Nat) (f : LockX → LockX) : (h.modLock n f).ramps = h.ramps := rfl
@[simp] theorem Hub.modLock_reheat (h : Hub) (n : Nat) (f : LockX → LockX) : (h.modLock n f).reheat = h.reheat := rfl
@[simp] theorem Hub.modLock_rails (h : Hub) (n : Nat) (f : LockX → LockX) : (h.modLock n f).rails = h.rails := rfl
@[simp] theorem Hub.modLock_ovh (h : Hub) (n : Nat) (f : LockX → LockX) : (h.modLock n f).ovh = h.ovh := rfl
@[simp] theorem Hub.modLock_chipReset (h : Hub) (n : Nat) (f : LockX → LockX) : (h.modLock n f).chipReset = h.chipReset := rfl
@[simp] theorem Hub.modLock_captures (h : Hub) (n : Nat) (f : LockX → LockX) : (h.modLock n f).captures = h.captures := rfl
@[simp] theorem Hub.modLock_captureSeq (h : Hub) (n : Nat) (f : LockX → LockX) : (h.modLock n f).captureSeq = h.captureSeq := rfl
@[simp] theorem Hub.modLock_plans (h : Hub) (n : Nat) (f : LockX → LockX) : (h.modLock n f).plans = h.plans := rfl
@[simp] theorem Hub.modLock_doneJobs (h : Hub) (n : Nat) (f : LockX → LockX) : (h.modLock n f).doneJobs = h.doneJobs := rfl
@[simp] theorem Hub.modLock_heldJobs (h : Hub) (n : Nat) (f : LockX → LockX) : (h.modLock n f).heldJobs = h.heldJobs := rfl
@[simp] theorem Hub.modLock_swg (h : Hub) (n : Nat) (f : LockX → LockX) : (h.modLock n f).swg = h.swg := rfl
@[simp] theorem Hub.modLock_swgSeq (h : Hub) (n : Nat) (f : LockX → LockX) : (h.modLock n f).swgSeq = h.swgSeq := rfl
@[simp] theorem Hub.modLock_swgTurn (h : Hub) (n : Nat) (f : LockX → LockX) : (h.modLock n f).swgTurn = h.swgTurn := rfl
@[simp] theorem Hub.modLock_hostPath (h : Hub) (n : Nat) (f : LockX → LockX) : (h.modLock n f).hostPath = h.hostPath := rfl
@[simp] theorem Hub.modLock_xtrigUntil (h : Hub) (n : Nat) (f : LockX → LockX) : (h.modLock n f).xtrigUntil = h.xtrigUntil := rfl
@[simp] theorem Hub.modLock_spine (h : Hub) (n : Nat) (f : LockX → LockX) : (h.modLock n f).spine = h.spine := rfl
@[simp] theorem Hub.modLock_emberExitAt (h : Hub) (n : Nat) (f : LockX → LockX) : (h.modLock n f).emberExitAt = h.emberExitAt := rfl
@[simp] theorem Hub.modLock_ctxs (h : Hub) (n : Nat) (f : LockX → LockX) : (h.modLock n f).ctxs = h.ctxs := rfl
@[simp] theorem Hub.modLock_wheelNotes (h : Hub) (n : Nat) (f : LockX → LockX) : (h.modLock n f).wheelNotes = h.wheelNotes := rfl
@[simp] theorem Hub.modLock_wfg (h : Hub) (n : Nat) (f : LockX → LockX) : (h.modLock n f).wfg = h.wfg := rfl
@[simp] theorem Hub.modLock_lanes (h : Hub) (n : Nat) (f : LockX → LockX) : (h.modLock n f).lanes = h.lanes := rfl
@[simp] theorem Hub.modLock_resetStarts (h : Hub) (n : Nat) (f : LockX → LockX) : (h.modLock n f).resetStarts = h.resetStarts := rfl
@[simp] theorem Hub.modLock_seeds (h : Hub) (n : Nat) (f : LockX → LockX) : (h.modLock n f).seeds = h.seeds := rfl
@[simp] theorem Hub.modLock_retrains (h : Hub) (n : Nat) (f : LockX → LockX) : (h.modLock n f).retrains = h.retrains := rfl
@[simp] theorem Hub.modLock_emberActs (h : Hub) (n : Nat) (f : LockX → LockX) : (h.modLock n f).emberActs = h.emberActs := rfl
@[simp] theorem Hub.modLock_laneMoves (h : Hub) (n : Nat) (f : LockX → LockX) : (h.modLock n f).laneMoves = h.laneMoves := rfl
@[simp] theorem Hub.modLock_warmReq (h : Hub) (n : Nat) (f : LockX → LockX) : (h.modLock n f).warmReq = h.warmReq := rfl
@[simp] theorem Hub.modLock_ledger (h : Hub) (n : Nat) (f : LockX → LockX) : (h.modLock n f).ledger = h.ledger := rfl
@[simp] theorem Hub.modLock_failoverAt (h : Hub) (n : Nat) (f : LockX → LockX) : (h.modLock n f).failoverAt = h.failoverAt := rfl
@[simp] theorem Hub.modLock_units (h : Hub) (n : Nat) (f : LockX → LockX) : (h.modLock n f).units = h.units := rfl
@[simp] theorem Hub.modLock_cmds (h : Hub) (n : Nat) (f : LockX → LockX) : (h.modLock n f).cmds = h.cmds := rfl
@[simp] theorem Hub.modLock_nextCmd (h : Hub) (n : Nat) (f : LockX → LockX) : (h.modLock n f).nextCmd = h.nextCmd := rfl
@[simp] theorem Hub.modLock_txns (h : Hub) (n : Nat) (f : LockX → LockX) : (h.modLock n f).txns = h.txns := rfl
@[simp] theorem Hub.modLock_cores (h : Hub) (n : Nat) (f : LockX → LockX) : (h.modLock n f).cores = h.cores := rfl
@[simp] theorem Hub.modLock_masters (h : Hub) (n : Nat) (f : LockX → LockX) : (h.modLock n f).masters = h.masters := rfl
@[simp] theorem Hub.modLock_links (h : Hub) (n : Nat) (f : LockX → LockX) : (h.modLock n f).links = h.links := rfl
@[simp] theorem Hub.modLock_mail (h : Hub) (n : Nat) (f : LockX → LockX) : (h.modLock n f).mail = h.mail := rfl
@[simp] theorem Hub.modLock_notices (h : Hub) (n : Nat) (f : LockX → LockX) : (h.modLock n f).notices = h.notices := rfl
@[simp] theorem Hub.modLock_heldNotices (h : Hub) (n : Nat) (f : LockX → LockX) : (h.modLock n f).heldNotices = h.heldNotices := rfl
@[simp] theorem Hub.modLock_heldEvents (h : Hub) (n : Nat) (f : LockX → LockX) : (h.modLock n f).heldEvents = h.heldEvents := rfl
@[simp] theorem Hub.modLock_out (h : Hub) (n : Nat) (f : LockX → LockX) : (h.modLock n f).out = h.out := rfl
@[simp] theorem Hub.modLock_load (h : Hub) (n : Nat) (f : LockX → LockX) : (h.modLock n f).load = h.load := rfl
@[simp] theorem Hub.modLock_offers (h : Hub) (n : Nat) (f : LockX → LockX) : (h.modLock n f).offers = h.offers := rfl
@[simp] theorem Hub.modLock_arms (h : Hub) (n : Nat) (f : LockX → LockX) : (h.modLock n f).arms = h.arms := rfl
@[simp] theorem Hub.modLock_fail (h : Hub) (n : Nat) (f : LockX → LockX) : (h.modLock n f).fail = h.fail := rfl
@[simp] theorem Hub.modLock_upd (h : Hub) (n : Nat) (f : LockX → LockX) : (h.modLock n f).upd = h.upd := rfl
@[simp] theorem Hub.modLock_mapOp (h : Hub) (n : Nat) (f : LockX → LockX) : (h.modLock n f).mapOp = h.mapOp := rfl
@[simp] theorem Hub.modLock_recal (h : Hub) (n : Nat) (f : LockX → LockX) : (h.modLock n f).recal = h.recal := rfl
@[simp] theorem Hub.modLock_boot (h : Hub) (n : Nat) (f : LockX → LockX) : (h.modLock n f).boot = h.boot := rfl
@[simp] theorem Hub.modLock_seq (h : Hub) (n : Nat) (f : LockX → LockX) : (h.modLock n f).seq = h.seq := rfl
@[simp] theorem Hub.modLock_spdm (h : Hub) (n : Nat) (f : LockX → LockX) : (h.modLock n f).spdm = h.spdm := rfl
@[simp] theorem Hub.modLock_sess (h : Hub) (n : Nat) (f : LockX → LockX) : (h.modLock n f).sess = h.sess := rfl
@[simp] theorem Hub.modLock_vyn (h : Hub) (n : Nat) (f : LockX → LockX) : (h.modLock n f).vyn = h.vyn := rfl
@[simp] theorem Hub.modLock_exports (h : Hub) (n : Nat) (f : LockX → LockX) : (h.modLock n f).exports = h.exports := rfl
@[simp] theorem Hub.modLock_rcptKeys (h : Hub) (n : Nat) (f : LockX → LockX) : (h.modLock n f).rcptKeys = h.rcptKeys := rfl
@[simp] theorem Hub.modLock_mctp (h : Hub) (n : Nat) (f : LockX → LockX) : (h.modLock n f).mctp = h.mctp := rfl
@[simp] theorem Hub.modLock_i3c (h : Hub) (n : Nat) (f : LockX → LockX) : (h.modLock n f).i3c = h.i3c := rfl
@[simp] theorem Hub.modLock_tap (h : Hub) (n : Nat) (f : LockX → LockX) : (h.modLock n f).tap = h.tap := rfl
@[simp] theorem Hub.reg_modLock (h : Hub) (n : Nat) (f : LockX → LockX) (s : Reg) (j : Nat) : (h.modLock n f).reg s j = h.reg s j := rfl
@[simp] theorem Hub.get_modLock (h : Hub) (n : Nat) (f : LockX → LockX) (g : Fld) (j : Nat) : (h.modLock n f).get g j = h.get g j := rfl
@[simp] theorem Hub.byte_modLock (h : Hub) (n : Nat) (f : LockX → LockX) (a' : Nat) : (h.modLock n f).byte a' = h.byte a' := rfl
@[simp] theorem Hub.core_modLock (h : Hub) (n : Nat) (f : LockX → LockX) (c : Nat) : (h.modLock n f).core c = h.core c := rfl
@[simp] theorem Hub.unit_modLock (h : Hub) (n : Nat) (f : LockX → LockX) (u : Nat) : (h.modLock n f).unit u = h.unit u := rfl
@[simp] theorem Hub.spoke_modLock (h : Hub) (n : Nat) (f : LockX → LockX) (n' : Nat) : (h.modLock n f).spoke n' = h.spoke n' := rfl
@[simp] theorem Hub.master_modLock (h : Hub) (n : Nat) (f : LockX → LockX) (m' : Master) : (h.modLock n f).master m' = h.master m' := rfl
@[simp] theorem Hub.link_modLock (h : Hub) (n : Nat) (f : LockX → LockX) (l : Nat) : (h.modLock n f).link l = h.link l := rfl

/-! ### `modLink` -/

@[simp] theorem Hub.modLink_regs (h : Hub) (n : Nat) (f : LinkX → LinkX) : (h.modLink n f).regs = h.regs := rfl
@[simp] theorem Hub.modLink_shadow (h : Hub) (n : Nat) (f : LinkX → LinkX) : (h.modLink n f).shadow = h.shadow := rfl
@[simp] theorem Hub.modLink_mem (h : Hub) (n : Nat) (f : LinkX → LinkX) : (h.modLink n f).mem = h.mem := rfl
@[simp] theorem Hub.modLink_fresh (h : Hub) (n : Nat) (f : LinkX → LinkX) : (h.modLink n f).fresh = h.fresh := rfl
@[simp] theorem Hub.modLink_owedStep (h : Hub) (n : Nat) (f : LinkX → LinkX) : (h.modLink n f).owedStep = h.owedStep := rfl
@[simp] theorem Hub.modLink_powered (h : Hub) (n : Nat) (f : LinkX → LinkX) : (h.modLink n f).powered = h.powered := rfl
@[simp] theorem Hub.modLink_cut (h : Hub) (n : Nat) (f : LinkX → LinkX) : (h.modLink n f).cut = h.cut := rfl
@[simp] theorem Hub.modLink_booting (h : Hub) (n : Nat) (f : LinkX → LinkX) : (h.modLink n f).booting = h.booting := rfl
@[simp] theorem Hub.modLink_failover (h : Hub) (n : Nat) (f : LinkX → LinkX) : (h.modLink n f).failover = h.failover := rfl
@[simp] theorem Hub.modLink_retired (h : Hub) (n : Nat) (f : LinkX → LinkX) : (h.modLink n f).retired = h.retired := rfl
@[simp] theorem Hub.modLink_time (h : Hub) (n : Nat) (f : LinkX → LinkX) : (h.modLink n f).time = h.time := rfl
@[simp] theorem Hub.modLink_spokes (h : Hub) (n : Nat) (f : LinkX → LinkX) : (h.modLink n f).spokes = h.spokes := rfl
@[simp] theorem Hub.modLink_nodes (h : Hub) (n : Nat) (f : LinkX → LinkX) : (h.modLink n f).nodes = h.nodes := rfl
@[simp] theorem Hub.modLink_quenchReqs (h : Hub) (n : Nat) (f : LinkX → LinkX) : (h.modLink n f).quenchReqs = h.quenchReqs := rfl
@[simp] theorem Hub.modLink_ramps (h : Hub) (n : Nat) (f : LinkX → LinkX) : (h.modLink n f).ramps = h.ramps := rfl
@[simp] theorem Hub.modLink_reheat (h : Hub) (n : Nat) (f : LinkX → LinkX) : (h.modLink n f).reheat = h.reheat := rfl
@[simp] theorem Hub.modLink_rails (h : Hub) (n : Nat) (f : LinkX → LinkX) : (h.modLink n f).rails = h.rails := rfl
@[simp] theorem Hub.modLink_ovh (h : Hub) (n : Nat) (f : LinkX → LinkX) : (h.modLink n f).ovh = h.ovh := rfl
@[simp] theorem Hub.modLink_chipReset (h : Hub) (n : Nat) (f : LinkX → LinkX) : (h.modLink n f).chipReset = h.chipReset := rfl
@[simp] theorem Hub.modLink_captures (h : Hub) (n : Nat) (f : LinkX → LinkX) : (h.modLink n f).captures = h.captures := rfl
@[simp] theorem Hub.modLink_captureSeq (h : Hub) (n : Nat) (f : LinkX → LinkX) : (h.modLink n f).captureSeq = h.captureSeq := rfl
@[simp] theorem Hub.modLink_plans (h : Hub) (n : Nat) (f : LinkX → LinkX) : (h.modLink n f).plans = h.plans := rfl
@[simp] theorem Hub.modLink_doneJobs (h : Hub) (n : Nat) (f : LinkX → LinkX) : (h.modLink n f).doneJobs = h.doneJobs := rfl
@[simp] theorem Hub.modLink_heldJobs (h : Hub) (n : Nat) (f : LinkX → LinkX) : (h.modLink n f).heldJobs = h.heldJobs := rfl
@[simp] theorem Hub.modLink_swg (h : Hub) (n : Nat) (f : LinkX → LinkX) : (h.modLink n f).swg = h.swg := rfl
@[simp] theorem Hub.modLink_swgSeq (h : Hub) (n : Nat) (f : LinkX → LinkX) : (h.modLink n f).swgSeq = h.swgSeq := rfl
@[simp] theorem Hub.modLink_swgTurn (h : Hub) (n : Nat) (f : LinkX → LinkX) : (h.modLink n f).swgTurn = h.swgTurn := rfl
@[simp] theorem Hub.modLink_hostPath (h : Hub) (n : Nat) (f : LinkX → LinkX) : (h.modLink n f).hostPath = h.hostPath := rfl
@[simp] theorem Hub.modLink_xtrigUntil (h : Hub) (n : Nat) (f : LinkX → LinkX) : (h.modLink n f).xtrigUntil = h.xtrigUntil := rfl
@[simp] theorem Hub.modLink_spine (h : Hub) (n : Nat) (f : LinkX → LinkX) : (h.modLink n f).spine = h.spine := rfl
@[simp] theorem Hub.modLink_emberExitAt (h : Hub) (n : Nat) (f : LinkX → LinkX) : (h.modLink n f).emberExitAt = h.emberExitAt := rfl
@[simp] theorem Hub.modLink_ctxs (h : Hub) (n : Nat) (f : LinkX → LinkX) : (h.modLink n f).ctxs = h.ctxs := rfl
@[simp] theorem Hub.modLink_wheelNotes (h : Hub) (n : Nat) (f : LinkX → LinkX) : (h.modLink n f).wheelNotes = h.wheelNotes := rfl
@[simp] theorem Hub.modLink_wfg (h : Hub) (n : Nat) (f : LinkX → LinkX) : (h.modLink n f).wfg = h.wfg := rfl
@[simp] theorem Hub.modLink_lanes (h : Hub) (n : Nat) (f : LinkX → LinkX) : (h.modLink n f).lanes = h.lanes := rfl
@[simp] theorem Hub.modLink_resetStarts (h : Hub) (n : Nat) (f : LinkX → LinkX) : (h.modLink n f).resetStarts = h.resetStarts := rfl
@[simp] theorem Hub.modLink_seeds (h : Hub) (n : Nat) (f : LinkX → LinkX) : (h.modLink n f).seeds = h.seeds := rfl
@[simp] theorem Hub.modLink_retrains (h : Hub) (n : Nat) (f : LinkX → LinkX) : (h.modLink n f).retrains = h.retrains := rfl
@[simp] theorem Hub.modLink_emberActs (h : Hub) (n : Nat) (f : LinkX → LinkX) : (h.modLink n f).emberActs = h.emberActs := rfl
@[simp] theorem Hub.modLink_laneMoves (h : Hub) (n : Nat) (f : LinkX → LinkX) : (h.modLink n f).laneMoves = h.laneMoves := rfl
@[simp] theorem Hub.modLink_warmReq (h : Hub) (n : Nat) (f : LinkX → LinkX) : (h.modLink n f).warmReq = h.warmReq := rfl
@[simp] theorem Hub.modLink_ledger (h : Hub) (n : Nat) (f : LinkX → LinkX) : (h.modLink n f).ledger = h.ledger := rfl
@[simp] theorem Hub.modLink_failoverAt (h : Hub) (n : Nat) (f : LinkX → LinkX) : (h.modLink n f).failoverAt = h.failoverAt := rfl
@[simp] theorem Hub.modLink_units (h : Hub) (n : Nat) (f : LinkX → LinkX) : (h.modLink n f).units = h.units := rfl
@[simp] theorem Hub.modLink_cmds (h : Hub) (n : Nat) (f : LinkX → LinkX) : (h.modLink n f).cmds = h.cmds := rfl
@[simp] theorem Hub.modLink_nextCmd (h : Hub) (n : Nat) (f : LinkX → LinkX) : (h.modLink n f).nextCmd = h.nextCmd := rfl
@[simp] theorem Hub.modLink_txns (h : Hub) (n : Nat) (f : LinkX → LinkX) : (h.modLink n f).txns = h.txns := rfl
@[simp] theorem Hub.modLink_cores (h : Hub) (n : Nat) (f : LinkX → LinkX) : (h.modLink n f).cores = h.cores := rfl
@[simp] theorem Hub.modLink_masters (h : Hub) (n : Nat) (f : LinkX → LinkX) : (h.modLink n f).masters = h.masters := rfl
@[simp] theorem Hub.modLink_locks (h : Hub) (n : Nat) (f : LinkX → LinkX) : (h.modLink n f).locks = h.locks := rfl
@[simp] theorem Hub.modLink_mail (h : Hub) (n : Nat) (f : LinkX → LinkX) : (h.modLink n f).mail = h.mail := rfl
@[simp] theorem Hub.modLink_notices (h : Hub) (n : Nat) (f : LinkX → LinkX) : (h.modLink n f).notices = h.notices := rfl
@[simp] theorem Hub.modLink_heldNotices (h : Hub) (n : Nat) (f : LinkX → LinkX) : (h.modLink n f).heldNotices = h.heldNotices := rfl
@[simp] theorem Hub.modLink_heldEvents (h : Hub) (n : Nat) (f : LinkX → LinkX) : (h.modLink n f).heldEvents = h.heldEvents := rfl
@[simp] theorem Hub.modLink_out (h : Hub) (n : Nat) (f : LinkX → LinkX) : (h.modLink n f).out = h.out := rfl
@[simp] theorem Hub.modLink_load (h : Hub) (n : Nat) (f : LinkX → LinkX) : (h.modLink n f).load = h.load := rfl
@[simp] theorem Hub.modLink_offers (h : Hub) (n : Nat) (f : LinkX → LinkX) : (h.modLink n f).offers = h.offers := rfl
@[simp] theorem Hub.modLink_arms (h : Hub) (n : Nat) (f : LinkX → LinkX) : (h.modLink n f).arms = h.arms := rfl
@[simp] theorem Hub.modLink_fail (h : Hub) (n : Nat) (f : LinkX → LinkX) : (h.modLink n f).fail = h.fail := rfl
@[simp] theorem Hub.modLink_upd (h : Hub) (n : Nat) (f : LinkX → LinkX) : (h.modLink n f).upd = h.upd := rfl
@[simp] theorem Hub.modLink_mapOp (h : Hub) (n : Nat) (f : LinkX → LinkX) : (h.modLink n f).mapOp = h.mapOp := rfl
@[simp] theorem Hub.modLink_recal (h : Hub) (n : Nat) (f : LinkX → LinkX) : (h.modLink n f).recal = h.recal := rfl
@[simp] theorem Hub.modLink_boot (h : Hub) (n : Nat) (f : LinkX → LinkX) : (h.modLink n f).boot = h.boot := rfl
@[simp] theorem Hub.modLink_seq (h : Hub) (n : Nat) (f : LinkX → LinkX) : (h.modLink n f).seq = h.seq := rfl
@[simp] theorem Hub.modLink_spdm (h : Hub) (n : Nat) (f : LinkX → LinkX) : (h.modLink n f).spdm = h.spdm := rfl
@[simp] theorem Hub.modLink_sess (h : Hub) (n : Nat) (f : LinkX → LinkX) : (h.modLink n f).sess = h.sess := rfl
@[simp] theorem Hub.modLink_vyn (h : Hub) (n : Nat) (f : LinkX → LinkX) : (h.modLink n f).vyn = h.vyn := rfl
@[simp] theorem Hub.modLink_exports (h : Hub) (n : Nat) (f : LinkX → LinkX) : (h.modLink n f).exports = h.exports := rfl
@[simp] theorem Hub.modLink_rcptKeys (h : Hub) (n : Nat) (f : LinkX → LinkX) : (h.modLink n f).rcptKeys = h.rcptKeys := rfl
@[simp] theorem Hub.modLink_mctp (h : Hub) (n : Nat) (f : LinkX → LinkX) : (h.modLink n f).mctp = h.mctp := rfl
@[simp] theorem Hub.modLink_i3c (h : Hub) (n : Nat) (f : LinkX → LinkX) : (h.modLink n f).i3c = h.i3c := rfl
@[simp] theorem Hub.modLink_tap (h : Hub) (n : Nat) (f : LinkX → LinkX) : (h.modLink n f).tap = h.tap := rfl
@[simp] theorem Hub.reg_modLink (h : Hub) (n : Nat) (f : LinkX → LinkX) (s : Reg) (j : Nat) : (h.modLink n f).reg s j = h.reg s j := rfl
@[simp] theorem Hub.get_modLink (h : Hub) (n : Nat) (f : LinkX → LinkX) (g : Fld) (j : Nat) : (h.modLink n f).get g j = h.get g j := rfl
@[simp] theorem Hub.byte_modLink (h : Hub) (n : Nat) (f : LinkX → LinkX) (a' : Nat) : (h.modLink n f).byte a' = h.byte a' := rfl
@[simp] theorem Hub.core_modLink (h : Hub) (n : Nat) (f : LinkX → LinkX) (c : Nat) : (h.modLink n f).core c = h.core c := rfl
@[simp] theorem Hub.unit_modLink (h : Hub) (n : Nat) (f : LinkX → LinkX) (u : Nat) : (h.modLink n f).unit u = h.unit u := rfl
@[simp] theorem Hub.spoke_modLink (h : Hub) (n : Nat) (f : LinkX → LinkX) (n' : Nat) : (h.modLink n f).spoke n' = h.spoke n' := rfl
@[simp] theorem Hub.master_modLink (h : Hub) (n : Nat) (f : LinkX → LinkX) (m' : Master) : (h.modLink n f).master m' = h.master m' := rfl
@[simp] theorem Hub.lock_modLink (h : Hub) (n : Nat) (f : LinkX → LinkX) (l : Nat) : (h.modLink n f).lock l = h.lock l := rfl

/-! ### `modMail` -/

@[simp] theorem Hub.modMail_regs (h : Hub) (n : Nat) (f : MailX → MailX) : (h.modMail n f).regs = h.regs := rfl
@[simp] theorem Hub.modMail_shadow (h : Hub) (n : Nat) (f : MailX → MailX) : (h.modMail n f).shadow = h.shadow := rfl
@[simp] theorem Hub.modMail_mem (h : Hub) (n : Nat) (f : MailX → MailX) : (h.modMail n f).mem = h.mem := rfl
@[simp] theorem Hub.modMail_fresh (h : Hub) (n : Nat) (f : MailX → MailX) : (h.modMail n f).fresh = h.fresh := rfl
@[simp] theorem Hub.modMail_owedStep (h : Hub) (n : Nat) (f : MailX → MailX) : (h.modMail n f).owedStep = h.owedStep := rfl
@[simp] theorem Hub.modMail_powered (h : Hub) (n : Nat) (f : MailX → MailX) : (h.modMail n f).powered = h.powered := rfl
@[simp] theorem Hub.modMail_cut (h : Hub) (n : Nat) (f : MailX → MailX) : (h.modMail n f).cut = h.cut := rfl
@[simp] theorem Hub.modMail_booting (h : Hub) (n : Nat) (f : MailX → MailX) : (h.modMail n f).booting = h.booting := rfl
@[simp] theorem Hub.modMail_failover (h : Hub) (n : Nat) (f : MailX → MailX) : (h.modMail n f).failover = h.failover := rfl
@[simp] theorem Hub.modMail_retired (h : Hub) (n : Nat) (f : MailX → MailX) : (h.modMail n f).retired = h.retired := rfl
@[simp] theorem Hub.modMail_time (h : Hub) (n : Nat) (f : MailX → MailX) : (h.modMail n f).time = h.time := rfl
@[simp] theorem Hub.modMail_spokes (h : Hub) (n : Nat) (f : MailX → MailX) : (h.modMail n f).spokes = h.spokes := rfl
@[simp] theorem Hub.modMail_nodes (h : Hub) (n : Nat) (f : MailX → MailX) : (h.modMail n f).nodes = h.nodes := rfl
@[simp] theorem Hub.modMail_quenchReqs (h : Hub) (n : Nat) (f : MailX → MailX) : (h.modMail n f).quenchReqs = h.quenchReqs := rfl
@[simp] theorem Hub.modMail_ramps (h : Hub) (n : Nat) (f : MailX → MailX) : (h.modMail n f).ramps = h.ramps := rfl
@[simp] theorem Hub.modMail_reheat (h : Hub) (n : Nat) (f : MailX → MailX) : (h.modMail n f).reheat = h.reheat := rfl
@[simp] theorem Hub.modMail_rails (h : Hub) (n : Nat) (f : MailX → MailX) : (h.modMail n f).rails = h.rails := rfl
@[simp] theorem Hub.modMail_ovh (h : Hub) (n : Nat) (f : MailX → MailX) : (h.modMail n f).ovh = h.ovh := rfl
@[simp] theorem Hub.modMail_chipReset (h : Hub) (n : Nat) (f : MailX → MailX) : (h.modMail n f).chipReset = h.chipReset := rfl
@[simp] theorem Hub.modMail_captures (h : Hub) (n : Nat) (f : MailX → MailX) : (h.modMail n f).captures = h.captures := rfl
@[simp] theorem Hub.modMail_captureSeq (h : Hub) (n : Nat) (f : MailX → MailX) : (h.modMail n f).captureSeq = h.captureSeq := rfl
@[simp] theorem Hub.modMail_plans (h : Hub) (n : Nat) (f : MailX → MailX) : (h.modMail n f).plans = h.plans := rfl
@[simp] theorem Hub.modMail_doneJobs (h : Hub) (n : Nat) (f : MailX → MailX) : (h.modMail n f).doneJobs = h.doneJobs := rfl
@[simp] theorem Hub.modMail_heldJobs (h : Hub) (n : Nat) (f : MailX → MailX) : (h.modMail n f).heldJobs = h.heldJobs := rfl
@[simp] theorem Hub.modMail_swg (h : Hub) (n : Nat) (f : MailX → MailX) : (h.modMail n f).swg = h.swg := rfl
@[simp] theorem Hub.modMail_swgSeq (h : Hub) (n : Nat) (f : MailX → MailX) : (h.modMail n f).swgSeq = h.swgSeq := rfl
@[simp] theorem Hub.modMail_swgTurn (h : Hub) (n : Nat) (f : MailX → MailX) : (h.modMail n f).swgTurn = h.swgTurn := rfl
@[simp] theorem Hub.modMail_hostPath (h : Hub) (n : Nat) (f : MailX → MailX) : (h.modMail n f).hostPath = h.hostPath := rfl
@[simp] theorem Hub.modMail_xtrigUntil (h : Hub) (n : Nat) (f : MailX → MailX) : (h.modMail n f).xtrigUntil = h.xtrigUntil := rfl
@[simp] theorem Hub.modMail_spine (h : Hub) (n : Nat) (f : MailX → MailX) : (h.modMail n f).spine = h.spine := rfl
@[simp] theorem Hub.modMail_emberExitAt (h : Hub) (n : Nat) (f : MailX → MailX) : (h.modMail n f).emberExitAt = h.emberExitAt := rfl
@[simp] theorem Hub.modMail_ctxs (h : Hub) (n : Nat) (f : MailX → MailX) : (h.modMail n f).ctxs = h.ctxs := rfl
@[simp] theorem Hub.modMail_wheelNotes (h : Hub) (n : Nat) (f : MailX → MailX) : (h.modMail n f).wheelNotes = h.wheelNotes := rfl
@[simp] theorem Hub.modMail_wfg (h : Hub) (n : Nat) (f : MailX → MailX) : (h.modMail n f).wfg = h.wfg := rfl
@[simp] theorem Hub.modMail_lanes (h : Hub) (n : Nat) (f : MailX → MailX) : (h.modMail n f).lanes = h.lanes := rfl
@[simp] theorem Hub.modMail_resetStarts (h : Hub) (n : Nat) (f : MailX → MailX) : (h.modMail n f).resetStarts = h.resetStarts := rfl
@[simp] theorem Hub.modMail_seeds (h : Hub) (n : Nat) (f : MailX → MailX) : (h.modMail n f).seeds = h.seeds := rfl
@[simp] theorem Hub.modMail_retrains (h : Hub) (n : Nat) (f : MailX → MailX) : (h.modMail n f).retrains = h.retrains := rfl
@[simp] theorem Hub.modMail_emberActs (h : Hub) (n : Nat) (f : MailX → MailX) : (h.modMail n f).emberActs = h.emberActs := rfl
@[simp] theorem Hub.modMail_laneMoves (h : Hub) (n : Nat) (f : MailX → MailX) : (h.modMail n f).laneMoves = h.laneMoves := rfl
@[simp] theorem Hub.modMail_warmReq (h : Hub) (n : Nat) (f : MailX → MailX) : (h.modMail n f).warmReq = h.warmReq := rfl
@[simp] theorem Hub.modMail_ledger (h : Hub) (n : Nat) (f : MailX → MailX) : (h.modMail n f).ledger = h.ledger := rfl
@[simp] theorem Hub.modMail_failoverAt (h : Hub) (n : Nat) (f : MailX → MailX) : (h.modMail n f).failoverAt = h.failoverAt := rfl
@[simp] theorem Hub.modMail_units (h : Hub) (n : Nat) (f : MailX → MailX) : (h.modMail n f).units = h.units := rfl
@[simp] theorem Hub.modMail_cmds (h : Hub) (n : Nat) (f : MailX → MailX) : (h.modMail n f).cmds = h.cmds := rfl
@[simp] theorem Hub.modMail_nextCmd (h : Hub) (n : Nat) (f : MailX → MailX) : (h.modMail n f).nextCmd = h.nextCmd := rfl
@[simp] theorem Hub.modMail_txns (h : Hub) (n : Nat) (f : MailX → MailX) : (h.modMail n f).txns = h.txns := rfl
@[simp] theorem Hub.modMail_cores (h : Hub) (n : Nat) (f : MailX → MailX) : (h.modMail n f).cores = h.cores := rfl
@[simp] theorem Hub.modMail_masters (h : Hub) (n : Nat) (f : MailX → MailX) : (h.modMail n f).masters = h.masters := rfl
@[simp] theorem Hub.modMail_locks (h : Hub) (n : Nat) (f : MailX → MailX) : (h.modMail n f).locks = h.locks := rfl
@[simp] theorem Hub.modMail_links (h : Hub) (n : Nat) (f : MailX → MailX) : (h.modMail n f).links = h.links := rfl
@[simp] theorem Hub.modMail_notices (h : Hub) (n : Nat) (f : MailX → MailX) : (h.modMail n f).notices = h.notices := rfl
@[simp] theorem Hub.modMail_heldNotices (h : Hub) (n : Nat) (f : MailX → MailX) : (h.modMail n f).heldNotices = h.heldNotices := rfl
@[simp] theorem Hub.modMail_heldEvents (h : Hub) (n : Nat) (f : MailX → MailX) : (h.modMail n f).heldEvents = h.heldEvents := rfl
@[simp] theorem Hub.modMail_out (h : Hub) (n : Nat) (f : MailX → MailX) : (h.modMail n f).out = h.out := rfl
@[simp] theorem Hub.modMail_load (h : Hub) (n : Nat) (f : MailX → MailX) : (h.modMail n f).load = h.load := rfl
@[simp] theorem Hub.modMail_offers (h : Hub) (n : Nat) (f : MailX → MailX) : (h.modMail n f).offers = h.offers := rfl
@[simp] theorem Hub.modMail_arms (h : Hub) (n : Nat) (f : MailX → MailX) : (h.modMail n f).arms = h.arms := rfl
@[simp] theorem Hub.modMail_fail (h : Hub) (n : Nat) (f : MailX → MailX) : (h.modMail n f).fail = h.fail := rfl
@[simp] theorem Hub.modMail_upd (h : Hub) (n : Nat) (f : MailX → MailX) : (h.modMail n f).upd = h.upd := rfl
@[simp] theorem Hub.modMail_mapOp (h : Hub) (n : Nat) (f : MailX → MailX) : (h.modMail n f).mapOp = h.mapOp := rfl
@[simp] theorem Hub.modMail_recal (h : Hub) (n : Nat) (f : MailX → MailX) : (h.modMail n f).recal = h.recal := rfl
@[simp] theorem Hub.modMail_boot (h : Hub) (n : Nat) (f : MailX → MailX) : (h.modMail n f).boot = h.boot := rfl
@[simp] theorem Hub.modMail_seq (h : Hub) (n : Nat) (f : MailX → MailX) : (h.modMail n f).seq = h.seq := rfl
@[simp] theorem Hub.modMail_spdm (h : Hub) (n : Nat) (f : MailX → MailX) : (h.modMail n f).spdm = h.spdm := rfl
@[simp] theorem Hub.modMail_sess (h : Hub) (n : Nat) (f : MailX → MailX) : (h.modMail n f).sess = h.sess := rfl
@[simp] theorem Hub.modMail_vyn (h : Hub) (n : Nat) (f : MailX → MailX) : (h.modMail n f).vyn = h.vyn := rfl
@[simp] theorem Hub.modMail_exports (h : Hub) (n : Nat) (f : MailX → MailX) : (h.modMail n f).exports = h.exports := rfl
@[simp] theorem Hub.modMail_rcptKeys (h : Hub) (n : Nat) (f : MailX → MailX) : (h.modMail n f).rcptKeys = h.rcptKeys := rfl
@[simp] theorem Hub.modMail_mctp (h : Hub) (n : Nat) (f : MailX → MailX) : (h.modMail n f).mctp = h.mctp := rfl
@[simp] theorem Hub.modMail_i3c (h : Hub) (n : Nat) (f : MailX → MailX) : (h.modMail n f).i3c = h.i3c := rfl
@[simp] theorem Hub.modMail_tap (h : Hub) (n : Nat) (f : MailX → MailX) : (h.modMail n f).tap = h.tap := rfl
@[simp] theorem Hub.reg_modMail (h : Hub) (n : Nat) (f : MailX → MailX) (s : Reg) (j : Nat) : (h.modMail n f).reg s j = h.reg s j := rfl
@[simp] theorem Hub.get_modMail (h : Hub) (n : Nat) (f : MailX → MailX) (g : Fld) (j : Nat) : (h.modMail n f).get g j = h.get g j := rfl
@[simp] theorem Hub.byte_modMail (h : Hub) (n : Nat) (f : MailX → MailX) (a' : Nat) : (h.modMail n f).byte a' = h.byte a' := rfl
@[simp] theorem Hub.core_modMail (h : Hub) (n : Nat) (f : MailX → MailX) (c : Nat) : (h.modMail n f).core c = h.core c := rfl
@[simp] theorem Hub.unit_modMail (h : Hub) (n : Nat) (f : MailX → MailX) (u : Nat) : (h.modMail n f).unit u = h.unit u := rfl
@[simp] theorem Hub.spoke_modMail (h : Hub) (n : Nat) (f : MailX → MailX) (n' : Nat) : (h.modMail n f).spoke n' = h.spoke n' := rfl
@[simp] theorem Hub.master_modMail (h : Hub) (n : Nat) (f : MailX → MailX) (m' : Master) : (h.modMail n f).master m' = h.master m' := rfl
@[simp] theorem Hub.lock_modMail (h : Hub) (n : Nat) (f : MailX → MailX) (l : Nat) : (h.modMail n f).lock l = h.lock l := rfl
@[simp] theorem Hub.link_modMail (h : Hub) (n : Nat) (f : MailX → MailX) (l : Nat) : (h.modMail n f).link l = h.link l := rfl

/-! ### `modCtx` -/

@[simp] theorem Hub.modCtx_regs (h : Hub) (n : Nat) (f : CtxX → CtxX) : (h.modCtx n f).regs = h.regs := rfl
@[simp] theorem Hub.modCtx_shadow (h : Hub) (n : Nat) (f : CtxX → CtxX) : (h.modCtx n f).shadow = h.shadow := rfl
@[simp] theorem Hub.modCtx_mem (h : Hub) (n : Nat) (f : CtxX → CtxX) : (h.modCtx n f).mem = h.mem := rfl
@[simp] theorem Hub.modCtx_fresh (h : Hub) (n : Nat) (f : CtxX → CtxX) : (h.modCtx n f).fresh = h.fresh := rfl
@[simp] theorem Hub.modCtx_owedStep (h : Hub) (n : Nat) (f : CtxX → CtxX) : (h.modCtx n f).owedStep = h.owedStep := rfl
@[simp] theorem Hub.modCtx_powered (h : Hub) (n : Nat) (f : CtxX → CtxX) : (h.modCtx n f).powered = h.powered := rfl
@[simp] theorem Hub.modCtx_cut (h : Hub) (n : Nat) (f : CtxX → CtxX) : (h.modCtx n f).cut = h.cut := rfl
@[simp] theorem Hub.modCtx_booting (h : Hub) (n : Nat) (f : CtxX → CtxX) : (h.modCtx n f).booting = h.booting := rfl
@[simp] theorem Hub.modCtx_failover (h : Hub) (n : Nat) (f : CtxX → CtxX) : (h.modCtx n f).failover = h.failover := rfl
@[simp] theorem Hub.modCtx_retired (h : Hub) (n : Nat) (f : CtxX → CtxX) : (h.modCtx n f).retired = h.retired := rfl
@[simp] theorem Hub.modCtx_time (h : Hub) (n : Nat) (f : CtxX → CtxX) : (h.modCtx n f).time = h.time := rfl
@[simp] theorem Hub.modCtx_spokes (h : Hub) (n : Nat) (f : CtxX → CtxX) : (h.modCtx n f).spokes = h.spokes := rfl
@[simp] theorem Hub.modCtx_nodes (h : Hub) (n : Nat) (f : CtxX → CtxX) : (h.modCtx n f).nodes = h.nodes := rfl
@[simp] theorem Hub.modCtx_quenchReqs (h : Hub) (n : Nat) (f : CtxX → CtxX) : (h.modCtx n f).quenchReqs = h.quenchReqs := rfl
@[simp] theorem Hub.modCtx_ramps (h : Hub) (n : Nat) (f : CtxX → CtxX) : (h.modCtx n f).ramps = h.ramps := rfl
@[simp] theorem Hub.modCtx_reheat (h : Hub) (n : Nat) (f : CtxX → CtxX) : (h.modCtx n f).reheat = h.reheat := rfl
@[simp] theorem Hub.modCtx_rails (h : Hub) (n : Nat) (f : CtxX → CtxX) : (h.modCtx n f).rails = h.rails := rfl
@[simp] theorem Hub.modCtx_ovh (h : Hub) (n : Nat) (f : CtxX → CtxX) : (h.modCtx n f).ovh = h.ovh := rfl
@[simp] theorem Hub.modCtx_chipReset (h : Hub) (n : Nat) (f : CtxX → CtxX) : (h.modCtx n f).chipReset = h.chipReset := rfl
@[simp] theorem Hub.modCtx_captures (h : Hub) (n : Nat) (f : CtxX → CtxX) : (h.modCtx n f).captures = h.captures := rfl
@[simp] theorem Hub.modCtx_captureSeq (h : Hub) (n : Nat) (f : CtxX → CtxX) : (h.modCtx n f).captureSeq = h.captureSeq := rfl
@[simp] theorem Hub.modCtx_plans (h : Hub) (n : Nat) (f : CtxX → CtxX) : (h.modCtx n f).plans = h.plans := rfl
@[simp] theorem Hub.modCtx_doneJobs (h : Hub) (n : Nat) (f : CtxX → CtxX) : (h.modCtx n f).doneJobs = h.doneJobs := rfl
@[simp] theorem Hub.modCtx_heldJobs (h : Hub) (n : Nat) (f : CtxX → CtxX) : (h.modCtx n f).heldJobs = h.heldJobs := rfl
@[simp] theorem Hub.modCtx_swg (h : Hub) (n : Nat) (f : CtxX → CtxX) : (h.modCtx n f).swg = h.swg := rfl
@[simp] theorem Hub.modCtx_swgSeq (h : Hub) (n : Nat) (f : CtxX → CtxX) : (h.modCtx n f).swgSeq = h.swgSeq := rfl
@[simp] theorem Hub.modCtx_swgTurn (h : Hub) (n : Nat) (f : CtxX → CtxX) : (h.modCtx n f).swgTurn = h.swgTurn := rfl
@[simp] theorem Hub.modCtx_hostPath (h : Hub) (n : Nat) (f : CtxX → CtxX) : (h.modCtx n f).hostPath = h.hostPath := rfl
@[simp] theorem Hub.modCtx_xtrigUntil (h : Hub) (n : Nat) (f : CtxX → CtxX) : (h.modCtx n f).xtrigUntil = h.xtrigUntil := rfl
@[simp] theorem Hub.modCtx_spine (h : Hub) (n : Nat) (f : CtxX → CtxX) : (h.modCtx n f).spine = h.spine := rfl
@[simp] theorem Hub.modCtx_emberExitAt (h : Hub) (n : Nat) (f : CtxX → CtxX) : (h.modCtx n f).emberExitAt = h.emberExitAt := rfl
@[simp] theorem Hub.modCtx_wheelNotes (h : Hub) (n : Nat) (f : CtxX → CtxX) : (h.modCtx n f).wheelNotes = h.wheelNotes := rfl
@[simp] theorem Hub.modCtx_wfg (h : Hub) (n : Nat) (f : CtxX → CtxX) : (h.modCtx n f).wfg = h.wfg := rfl
@[simp] theorem Hub.modCtx_lanes (h : Hub) (n : Nat) (f : CtxX → CtxX) : (h.modCtx n f).lanes = h.lanes := rfl
@[simp] theorem Hub.modCtx_resetStarts (h : Hub) (n : Nat) (f : CtxX → CtxX) : (h.modCtx n f).resetStarts = h.resetStarts := rfl
@[simp] theorem Hub.modCtx_seeds (h : Hub) (n : Nat) (f : CtxX → CtxX) : (h.modCtx n f).seeds = h.seeds := rfl
@[simp] theorem Hub.modCtx_retrains (h : Hub) (n : Nat) (f : CtxX → CtxX) : (h.modCtx n f).retrains = h.retrains := rfl
@[simp] theorem Hub.modCtx_emberActs (h : Hub) (n : Nat) (f : CtxX → CtxX) : (h.modCtx n f).emberActs = h.emberActs := rfl
@[simp] theorem Hub.modCtx_laneMoves (h : Hub) (n : Nat) (f : CtxX → CtxX) : (h.modCtx n f).laneMoves = h.laneMoves := rfl
@[simp] theorem Hub.modCtx_warmReq (h : Hub) (n : Nat) (f : CtxX → CtxX) : (h.modCtx n f).warmReq = h.warmReq := rfl
@[simp] theorem Hub.modCtx_ledger (h : Hub) (n : Nat) (f : CtxX → CtxX) : (h.modCtx n f).ledger = h.ledger := rfl
@[simp] theorem Hub.modCtx_failoverAt (h : Hub) (n : Nat) (f : CtxX → CtxX) : (h.modCtx n f).failoverAt = h.failoverAt := rfl
@[simp] theorem Hub.modCtx_units (h : Hub) (n : Nat) (f : CtxX → CtxX) : (h.modCtx n f).units = h.units := rfl
@[simp] theorem Hub.modCtx_cmds (h : Hub) (n : Nat) (f : CtxX → CtxX) : (h.modCtx n f).cmds = h.cmds := rfl
@[simp] theorem Hub.modCtx_nextCmd (h : Hub) (n : Nat) (f : CtxX → CtxX) : (h.modCtx n f).nextCmd = h.nextCmd := rfl
@[simp] theorem Hub.modCtx_txns (h : Hub) (n : Nat) (f : CtxX → CtxX) : (h.modCtx n f).txns = h.txns := rfl
@[simp] theorem Hub.modCtx_cores (h : Hub) (n : Nat) (f : CtxX → CtxX) : (h.modCtx n f).cores = h.cores := rfl
@[simp] theorem Hub.modCtx_masters (h : Hub) (n : Nat) (f : CtxX → CtxX) : (h.modCtx n f).masters = h.masters := rfl
@[simp] theorem Hub.modCtx_locks (h : Hub) (n : Nat) (f : CtxX → CtxX) : (h.modCtx n f).locks = h.locks := rfl
@[simp] theorem Hub.modCtx_links (h : Hub) (n : Nat) (f : CtxX → CtxX) : (h.modCtx n f).links = h.links := rfl
@[simp] theorem Hub.modCtx_mail (h : Hub) (n : Nat) (f : CtxX → CtxX) : (h.modCtx n f).mail = h.mail := rfl
@[simp] theorem Hub.modCtx_notices (h : Hub) (n : Nat) (f : CtxX → CtxX) : (h.modCtx n f).notices = h.notices := rfl
@[simp] theorem Hub.modCtx_heldNotices (h : Hub) (n : Nat) (f : CtxX → CtxX) : (h.modCtx n f).heldNotices = h.heldNotices := rfl
@[simp] theorem Hub.modCtx_heldEvents (h : Hub) (n : Nat) (f : CtxX → CtxX) : (h.modCtx n f).heldEvents = h.heldEvents := rfl
@[simp] theorem Hub.modCtx_out (h : Hub) (n : Nat) (f : CtxX → CtxX) : (h.modCtx n f).out = h.out := rfl
@[simp] theorem Hub.modCtx_load (h : Hub) (n : Nat) (f : CtxX → CtxX) : (h.modCtx n f).load = h.load := rfl
@[simp] theorem Hub.modCtx_offers (h : Hub) (n : Nat) (f : CtxX → CtxX) : (h.modCtx n f).offers = h.offers := rfl
@[simp] theorem Hub.modCtx_arms (h : Hub) (n : Nat) (f : CtxX → CtxX) : (h.modCtx n f).arms = h.arms := rfl
@[simp] theorem Hub.modCtx_fail (h : Hub) (n : Nat) (f : CtxX → CtxX) : (h.modCtx n f).fail = h.fail := rfl
@[simp] theorem Hub.modCtx_upd (h : Hub) (n : Nat) (f : CtxX → CtxX) : (h.modCtx n f).upd = h.upd := rfl
@[simp] theorem Hub.modCtx_mapOp (h : Hub) (n : Nat) (f : CtxX → CtxX) : (h.modCtx n f).mapOp = h.mapOp := rfl
@[simp] theorem Hub.modCtx_recal (h : Hub) (n : Nat) (f : CtxX → CtxX) : (h.modCtx n f).recal = h.recal := rfl
@[simp] theorem Hub.modCtx_boot (h : Hub) (n : Nat) (f : CtxX → CtxX) : (h.modCtx n f).boot = h.boot := rfl
@[simp] theorem Hub.modCtx_seq (h : Hub) (n : Nat) (f : CtxX → CtxX) : (h.modCtx n f).seq = h.seq := rfl
@[simp] theorem Hub.modCtx_spdm (h : Hub) (n : Nat) (f : CtxX → CtxX) : (h.modCtx n f).spdm = h.spdm := rfl
@[simp] theorem Hub.modCtx_sess (h : Hub) (n : Nat) (f : CtxX → CtxX) : (h.modCtx n f).sess = h.sess := rfl
@[simp] theorem Hub.modCtx_vyn (h : Hub) (n : Nat) (f : CtxX → CtxX) : (h.modCtx n f).vyn = h.vyn := rfl
@[simp] theorem Hub.modCtx_exports (h : Hub) (n : Nat) (f : CtxX → CtxX) : (h.modCtx n f).exports = h.exports := rfl
@[simp] theorem Hub.modCtx_rcptKeys (h : Hub) (n : Nat) (f : CtxX → CtxX) : (h.modCtx n f).rcptKeys = h.rcptKeys := rfl
@[simp] theorem Hub.modCtx_mctp (h : Hub) (n : Nat) (f : CtxX → CtxX) : (h.modCtx n f).mctp = h.mctp := rfl
@[simp] theorem Hub.modCtx_i3c (h : Hub) (n : Nat) (f : CtxX → CtxX) : (h.modCtx n f).i3c = h.i3c := rfl
@[simp] theorem Hub.modCtx_tap (h : Hub) (n : Nat) (f : CtxX → CtxX) : (h.modCtx n f).tap = h.tap := rfl
@[simp] theorem Hub.reg_modCtx (h : Hub) (n : Nat) (f : CtxX → CtxX) (s : Reg) (j : Nat) : (h.modCtx n f).reg s j = h.reg s j := rfl
@[simp] theorem Hub.get_modCtx (h : Hub) (n : Nat) (f : CtxX → CtxX) (g : Fld) (j : Nat) : (h.modCtx n f).get g j = h.get g j := rfl
@[simp] theorem Hub.byte_modCtx (h : Hub) (n : Nat) (f : CtxX → CtxX) (a' : Nat) : (h.modCtx n f).byte a' = h.byte a' := rfl
@[simp] theorem Hub.core_modCtx (h : Hub) (n : Nat) (f : CtxX → CtxX) (c : Nat) : (h.modCtx n f).core c = h.core c := rfl
@[simp] theorem Hub.unit_modCtx (h : Hub) (n : Nat) (f : CtxX → CtxX) (u : Nat) : (h.modCtx n f).unit u = h.unit u := rfl
@[simp] theorem Hub.spoke_modCtx (h : Hub) (n : Nat) (f : CtxX → CtxX) (n' : Nat) : (h.modCtx n f).spoke n' = h.spoke n' := rfl
@[simp] theorem Hub.master_modCtx (h : Hub) (n : Nat) (f : CtxX → CtxX) (m' : Master) : (h.modCtx n f).master m' = h.master m' := rfl
@[simp] theorem Hub.lock_modCtx (h : Hub) (n : Nat) (f : CtxX → CtxX) (l : Nat) : (h.modCtx n f).lock l = h.lock l := rfl
@[simp] theorem Hub.link_modCtx (h : Hub) (n : Nat) (f : CtxX → CtxX) (l : Nat) : (h.modCtx n f).link l = h.link l := rfl

/-! ### `say` -/

@[simp] theorem Hub.say_regs (h : Hub) (m : Msg) : (h.say m).regs = h.regs := rfl
@[simp] theorem Hub.say_shadow (h : Hub) (m : Msg) : (h.say m).shadow = h.shadow := rfl
@[simp] theorem Hub.say_mem (h : Hub) (m : Msg) : (h.say m).mem = h.mem := rfl
@[simp] theorem Hub.say_fresh (h : Hub) (m : Msg) : (h.say m).fresh = h.fresh := rfl
@[simp] theorem Hub.say_owedStep (h : Hub) (m : Msg) : (h.say m).owedStep = h.owedStep := rfl
@[simp] theorem Hub.say_powered (h : Hub) (m : Msg) : (h.say m).powered = h.powered := rfl
@[simp] theorem Hub.say_cut (h : Hub) (m : Msg) : (h.say m).cut = h.cut := rfl
@[simp] theorem Hub.say_booting (h : Hub) (m : Msg) : (h.say m).booting = h.booting := rfl
@[simp] theorem Hub.say_failover (h : Hub) (m : Msg) : (h.say m).failover = h.failover := rfl
@[simp] theorem Hub.say_retired (h : Hub) (m : Msg) : (h.say m).retired = h.retired := rfl
@[simp] theorem Hub.say_time (h : Hub) (m : Msg) : (h.say m).time = h.time := rfl
@[simp] theorem Hub.say_spokes (h : Hub) (m : Msg) : (h.say m).spokes = h.spokes := rfl
@[simp] theorem Hub.say_nodes (h : Hub) (m : Msg) : (h.say m).nodes = h.nodes := rfl
@[simp] theorem Hub.say_quenchReqs (h : Hub) (m : Msg) : (h.say m).quenchReqs = h.quenchReqs := rfl
@[simp] theorem Hub.say_ramps (h : Hub) (m : Msg) : (h.say m).ramps = h.ramps := rfl
@[simp] theorem Hub.say_reheat (h : Hub) (m : Msg) : (h.say m).reheat = h.reheat := rfl
@[simp] theorem Hub.say_rails (h : Hub) (m : Msg) : (h.say m).rails = h.rails := rfl
@[simp] theorem Hub.say_ovh (h : Hub) (m : Msg) : (h.say m).ovh = h.ovh := rfl
@[simp] theorem Hub.say_chipReset (h : Hub) (m : Msg) : (h.say m).chipReset = h.chipReset := rfl
@[simp] theorem Hub.say_captures (h : Hub) (m : Msg) : (h.say m).captures = h.captures := rfl
@[simp] theorem Hub.say_captureSeq (h : Hub) (m : Msg) : (h.say m).captureSeq = h.captureSeq := rfl
@[simp] theorem Hub.say_plans (h : Hub) (m : Msg) : (h.say m).plans = h.plans := rfl
@[simp] theorem Hub.say_doneJobs (h : Hub) (m : Msg) : (h.say m).doneJobs = h.doneJobs := rfl
@[simp] theorem Hub.say_heldJobs (h : Hub) (m : Msg) : (h.say m).heldJobs = h.heldJobs := rfl
@[simp] theorem Hub.say_swg (h : Hub) (m : Msg) : (h.say m).swg = h.swg := rfl
@[simp] theorem Hub.say_swgSeq (h : Hub) (m : Msg) : (h.say m).swgSeq = h.swgSeq := rfl
@[simp] theorem Hub.say_swgTurn (h : Hub) (m : Msg) : (h.say m).swgTurn = h.swgTurn := rfl
@[simp] theorem Hub.say_hostPath (h : Hub) (m : Msg) : (h.say m).hostPath = h.hostPath := rfl
@[simp] theorem Hub.say_xtrigUntil (h : Hub) (m : Msg) : (h.say m).xtrigUntil = h.xtrigUntil := rfl
@[simp] theorem Hub.say_spine (h : Hub) (m : Msg) : (h.say m).spine = h.spine := rfl
@[simp] theorem Hub.say_emberExitAt (h : Hub) (m : Msg) : (h.say m).emberExitAt = h.emberExitAt := rfl
@[simp] theorem Hub.say_ctxs (h : Hub) (m : Msg) : (h.say m).ctxs = h.ctxs := rfl
@[simp] theorem Hub.say_wheelNotes (h : Hub) (m : Msg) : (h.say m).wheelNotes = h.wheelNotes := rfl
@[simp] theorem Hub.say_wfg (h : Hub) (m : Msg) : (h.say m).wfg = h.wfg := rfl
@[simp] theorem Hub.say_lanes (h : Hub) (m : Msg) : (h.say m).lanes = h.lanes := rfl
@[simp] theorem Hub.say_resetStarts (h : Hub) (m : Msg) : (h.say m).resetStarts = h.resetStarts := rfl
@[simp] theorem Hub.say_seeds (h : Hub) (m : Msg) : (h.say m).seeds = h.seeds := rfl
@[simp] theorem Hub.say_retrains (h : Hub) (m : Msg) : (h.say m).retrains = h.retrains := rfl
@[simp] theorem Hub.say_emberActs (h : Hub) (m : Msg) : (h.say m).emberActs = h.emberActs := rfl
@[simp] theorem Hub.say_laneMoves (h : Hub) (m : Msg) : (h.say m).laneMoves = h.laneMoves := rfl
@[simp] theorem Hub.say_warmReq (h : Hub) (m : Msg) : (h.say m).warmReq = h.warmReq := rfl
@[simp] theorem Hub.say_ledger (h : Hub) (m : Msg) : (h.say m).ledger = h.ledger := rfl
@[simp] theorem Hub.say_failoverAt (h : Hub) (m : Msg) : (h.say m).failoverAt = h.failoverAt := rfl
@[simp] theorem Hub.say_units (h : Hub) (m : Msg) : (h.say m).units = h.units := rfl
@[simp] theorem Hub.say_cmds (h : Hub) (m : Msg) : (h.say m).cmds = h.cmds := rfl
@[simp] theorem Hub.say_nextCmd (h : Hub) (m : Msg) : (h.say m).nextCmd = h.nextCmd := rfl
@[simp] theorem Hub.say_txns (h : Hub) (m : Msg) : (h.say m).txns = h.txns := rfl
@[simp] theorem Hub.say_cores (h : Hub) (m : Msg) : (h.say m).cores = h.cores := rfl
@[simp] theorem Hub.say_masters (h : Hub) (m : Msg) : (h.say m).masters = h.masters := rfl
@[simp] theorem Hub.say_locks (h : Hub) (m : Msg) : (h.say m).locks = h.locks := rfl
@[simp] theorem Hub.say_links (h : Hub) (m : Msg) : (h.say m).links = h.links := rfl
@[simp] theorem Hub.say_mail (h : Hub) (m : Msg) : (h.say m).mail = h.mail := rfl
@[simp] theorem Hub.say_notices (h : Hub) (m : Msg) : (h.say m).notices = h.notices := rfl
@[simp] theorem Hub.say_heldNotices (h : Hub) (m : Msg) : (h.say m).heldNotices = h.heldNotices := rfl
@[simp] theorem Hub.say_heldEvents (h : Hub) (m : Msg) : (h.say m).heldEvents = h.heldEvents := rfl
@[simp] theorem Hub.say_load (h : Hub) (m : Msg) : (h.say m).load = h.load := rfl
@[simp] theorem Hub.say_offers (h : Hub) (m : Msg) : (h.say m).offers = h.offers := rfl
@[simp] theorem Hub.say_arms (h : Hub) (m : Msg) : (h.say m).arms = h.arms := rfl
@[simp] theorem Hub.say_fail (h : Hub) (m : Msg) : (h.say m).fail = h.fail := rfl
@[simp] theorem Hub.say_upd (h : Hub) (m : Msg) : (h.say m).upd = h.upd := rfl
@[simp] theorem Hub.say_mapOp (h : Hub) (m : Msg) : (h.say m).mapOp = h.mapOp := rfl
@[simp] theorem Hub.say_recal (h : Hub) (m : Msg) : (h.say m).recal = h.recal := rfl
@[simp] theorem Hub.say_boot (h : Hub) (m : Msg) : (h.say m).boot = h.boot := rfl
@[simp] theorem Hub.say_seq (h : Hub) (m : Msg) : (h.say m).seq = h.seq := rfl
@[simp] theorem Hub.say_spdm (h : Hub) (m : Msg) : (h.say m).spdm = h.spdm := rfl
@[simp] theorem Hub.say_sess (h : Hub) (m : Msg) : (h.say m).sess = h.sess := rfl
@[simp] theorem Hub.say_vyn (h : Hub) (m : Msg) : (h.say m).vyn = h.vyn := rfl
@[simp] theorem Hub.say_exports (h : Hub) (m : Msg) : (h.say m).exports = h.exports := rfl
@[simp] theorem Hub.say_rcptKeys (h : Hub) (m : Msg) : (h.say m).rcptKeys = h.rcptKeys := rfl
@[simp] theorem Hub.say_mctp (h : Hub) (m : Msg) : (h.say m).mctp = h.mctp := rfl
@[simp] theorem Hub.say_i3c (h : Hub) (m : Msg) : (h.say m).i3c = h.i3c := rfl
@[simp] theorem Hub.say_tap (h : Hub) (m : Msg) : (h.say m).tap = h.tap := rfl
@[simp] theorem Hub.reg_say (h : Hub) (m : Msg) (s : Reg) (j : Nat) : (h.say m).reg s j = h.reg s j := rfl
@[simp] theorem Hub.get_say (h : Hub) (m : Msg) (g : Fld) (j : Nat) : (h.say m).get g j = h.get g j := rfl
@[simp] theorem Hub.byte_say (h : Hub) (m : Msg) (a' : Nat) : (h.say m).byte a' = h.byte a' := rfl
@[simp] theorem Hub.core_say (h : Hub) (m : Msg) (c : Nat) : (h.say m).core c = h.core c := rfl
@[simp] theorem Hub.unit_say (h : Hub) (m : Msg) (u : Nat) : (h.say m).unit u = h.unit u := rfl
@[simp] theorem Hub.spoke_say (h : Hub) (m : Msg) (n' : Nat) : (h.say m).spoke n' = h.spoke n' := rfl
@[simp] theorem Hub.master_say (h : Hub) (m : Msg) (m' : Master) : (h.say m).master m' = h.master m' := rfl
@[simp] theorem Hub.lock_say (h : Hub) (m : Msg) (l : Nat) : (h.say m).lock l = h.lock l := rfl
@[simp] theorem Hub.link_say (h : Hub) (m : Msg) (l : Nat) : (h.say m).link l = h.link l := rfl

/-! ### `drew` -/

@[simp] theorem Hub.drew_regs (h : Hub) : (h.drew).regs = h.regs := rfl
@[simp] theorem Hub.drew_shadow (h : Hub) : (h.drew).shadow = h.shadow := rfl
@[simp] theorem Hub.drew_mem (h : Hub) : (h.drew).mem = h.mem := rfl
@[simp] theorem Hub.drew_owedStep (h : Hub) : (h.drew).owedStep = h.owedStep := rfl
@[simp] theorem Hub.drew_powered (h : Hub) : (h.drew).powered = h.powered := rfl
@[simp] theorem Hub.drew_cut (h : Hub) : (h.drew).cut = h.cut := rfl
@[simp] theorem Hub.drew_booting (h : Hub) : (h.drew).booting = h.booting := rfl
@[simp] theorem Hub.drew_failover (h : Hub) : (h.drew).failover = h.failover := rfl
@[simp] theorem Hub.drew_retired (h : Hub) : (h.drew).retired = h.retired := rfl
@[simp] theorem Hub.drew_time (h : Hub) : (h.drew).time = h.time := rfl
@[simp] theorem Hub.drew_spokes (h : Hub) : (h.drew).spokes = h.spokes := rfl
@[simp] theorem Hub.drew_nodes (h : Hub) : (h.drew).nodes = h.nodes := rfl
@[simp] theorem Hub.drew_quenchReqs (h : Hub) : (h.drew).quenchReqs = h.quenchReqs := rfl
@[simp] theorem Hub.drew_ramps (h : Hub) : (h.drew).ramps = h.ramps := rfl
@[simp] theorem Hub.drew_reheat (h : Hub) : (h.drew).reheat = h.reheat := rfl
@[simp] theorem Hub.drew_rails (h : Hub) : (h.drew).rails = h.rails := rfl
@[simp] theorem Hub.drew_ovh (h : Hub) : (h.drew).ovh = h.ovh := rfl
@[simp] theorem Hub.drew_chipReset (h : Hub) : (h.drew).chipReset = h.chipReset := rfl
@[simp] theorem Hub.drew_captures (h : Hub) : (h.drew).captures = h.captures := rfl
@[simp] theorem Hub.drew_captureSeq (h : Hub) : (h.drew).captureSeq = h.captureSeq := rfl
@[simp] theorem Hub.drew_plans (h : Hub) : (h.drew).plans = h.plans := rfl
@[simp] theorem Hub.drew_doneJobs (h : Hub) : (h.drew).doneJobs = h.doneJobs := rfl
@[simp] theorem Hub.drew_heldJobs (h : Hub) : (h.drew).heldJobs = h.heldJobs := rfl
@[simp] theorem Hub.drew_swg (h : Hub) : (h.drew).swg = h.swg := rfl
@[simp] theorem Hub.drew_swgSeq (h : Hub) : (h.drew).swgSeq = h.swgSeq := rfl
@[simp] theorem Hub.drew_swgTurn (h : Hub) : (h.drew).swgTurn = h.swgTurn := rfl
@[simp] theorem Hub.drew_hostPath (h : Hub) : (h.drew).hostPath = h.hostPath := rfl
@[simp] theorem Hub.drew_xtrigUntil (h : Hub) : (h.drew).xtrigUntil = h.xtrigUntil := rfl
@[simp] theorem Hub.drew_spine (h : Hub) : (h.drew).spine = h.spine := rfl
@[simp] theorem Hub.drew_emberExitAt (h : Hub) : (h.drew).emberExitAt = h.emberExitAt := rfl
@[simp] theorem Hub.drew_ctxs (h : Hub) : (h.drew).ctxs = h.ctxs := rfl
@[simp] theorem Hub.drew_wheelNotes (h : Hub) : (h.drew).wheelNotes = h.wheelNotes := rfl
@[simp] theorem Hub.drew_wfg (h : Hub) : (h.drew).wfg = h.wfg := rfl
@[simp] theorem Hub.drew_lanes (h : Hub) : (h.drew).lanes = h.lanes := rfl
@[simp] theorem Hub.drew_resetStarts (h : Hub) : (h.drew).resetStarts = h.resetStarts := rfl
@[simp] theorem Hub.drew_seeds (h : Hub) : (h.drew).seeds = h.seeds := rfl
@[simp] theorem Hub.drew_retrains (h : Hub) : (h.drew).retrains = h.retrains := rfl
@[simp] theorem Hub.drew_emberActs (h : Hub) : (h.drew).emberActs = h.emberActs := rfl
@[simp] theorem Hub.drew_laneMoves (h : Hub) : (h.drew).laneMoves = h.laneMoves := rfl
@[simp] theorem Hub.drew_warmReq (h : Hub) : (h.drew).warmReq = h.warmReq := rfl
@[simp] theorem Hub.drew_ledger (h : Hub) : (h.drew).ledger = h.ledger := rfl
@[simp] theorem Hub.drew_failoverAt (h : Hub) : (h.drew).failoverAt = h.failoverAt := rfl
@[simp] theorem Hub.drew_units (h : Hub) : (h.drew).units = h.units := rfl
@[simp] theorem Hub.drew_cmds (h : Hub) : (h.drew).cmds = h.cmds := rfl
@[simp] theorem Hub.drew_nextCmd (h : Hub) : (h.drew).nextCmd = h.nextCmd := rfl
@[simp] theorem Hub.drew_txns (h : Hub) : (h.drew).txns = h.txns := rfl
@[simp] theorem Hub.drew_cores (h : Hub) : (h.drew).cores = h.cores := rfl
@[simp] theorem Hub.drew_masters (h : Hub) : (h.drew).masters = h.masters := rfl
@[simp] theorem Hub.drew_locks (h : Hub) : (h.drew).locks = h.locks := rfl
@[simp] theorem Hub.drew_links (h : Hub) : (h.drew).links = h.links := rfl
@[simp] theorem Hub.drew_mail (h : Hub) : (h.drew).mail = h.mail := rfl
@[simp] theorem Hub.drew_notices (h : Hub) : (h.drew).notices = h.notices := rfl
@[simp] theorem Hub.drew_heldNotices (h : Hub) : (h.drew).heldNotices = h.heldNotices := rfl
@[simp] theorem Hub.drew_heldEvents (h : Hub) : (h.drew).heldEvents = h.heldEvents := rfl
@[simp] theorem Hub.drew_out (h : Hub) : (h.drew).out = h.out := rfl
@[simp] theorem Hub.drew_load (h : Hub) : (h.drew).load = h.load := rfl
@[simp] theorem Hub.drew_offers (h : Hub) : (h.drew).offers = h.offers := rfl
@[simp] theorem Hub.drew_arms (h : Hub) : (h.drew).arms = h.arms := rfl
@[simp] theorem Hub.drew_fail (h : Hub) : (h.drew).fail = h.fail := rfl
@[simp] theorem Hub.drew_upd (h : Hub) : (h.drew).upd = h.upd := rfl
@[simp] theorem Hub.drew_mapOp (h : Hub) : (h.drew).mapOp = h.mapOp := rfl
@[simp] theorem Hub.drew_recal (h : Hub) : (h.drew).recal = h.recal := rfl
@[simp] theorem Hub.drew_boot (h : Hub) : (h.drew).boot = h.boot := rfl
@[simp] theorem Hub.drew_seq (h : Hub) : (h.drew).seq = h.seq := rfl
@[simp] theorem Hub.drew_spdm (h : Hub) : (h.drew).spdm = h.spdm := rfl
@[simp] theorem Hub.drew_sess (h : Hub) : (h.drew).sess = h.sess := rfl
@[simp] theorem Hub.drew_vyn (h : Hub) : (h.drew).vyn = h.vyn := rfl
@[simp] theorem Hub.drew_exports (h : Hub) : (h.drew).exports = h.exports := rfl
@[simp] theorem Hub.drew_rcptKeys (h : Hub) : (h.drew).rcptKeys = h.rcptKeys := rfl
@[simp] theorem Hub.drew_mctp (h : Hub) : (h.drew).mctp = h.mctp := rfl
@[simp] theorem Hub.drew_i3c (h : Hub) : (h.drew).i3c = h.i3c := rfl
@[simp] theorem Hub.drew_tap (h : Hub) : (h.drew).tap = h.tap := rfl
@[simp] theorem Hub.reg_drew (h : Hub) (s : Reg) (j : Nat) : (h.drew).reg s j = h.reg s j := rfl
@[simp] theorem Hub.get_drew (h : Hub) (g : Fld) (j : Nat) : (h.drew).get g j = h.get g j := rfl
@[simp] theorem Hub.byte_drew (h : Hub) (a' : Nat) : (h.drew).byte a' = h.byte a' := rfl
@[simp] theorem Hub.core_drew (h : Hub) (c : Nat) : (h.drew).core c = h.core c := rfl
@[simp] theorem Hub.unit_drew (h : Hub) (u : Nat) : (h.drew).unit u = h.unit u := rfl
@[simp] theorem Hub.spoke_drew (h : Hub) (n' : Nat) : (h.drew).spoke n' = h.spoke n' := rfl
@[simp] theorem Hub.master_drew (h : Hub) (m' : Master) : (h.drew).master m' = h.master m' := rfl
@[simp] theorem Hub.lock_drew (h : Hub) (l : Nat) : (h.drew).lock l = h.lock l := rfl
@[simp] theorem Hub.link_drew (h : Hub) (l : Nat) : (h.drew).link l = h.link l := rfl

end Sys2Proof.Machine
end

