-- ==== Sys2Proof/Laws/Parts.lean ====
section
/-! SUPPORT. The hub's parts read after a change of one, how a command acts on the state, and a register write that is
carried out. -/

namespace Sys2Proof.Machine

open Sys2Proof

/-! ### Parts: what is read back -/

theorem Hub.spoke_modSpoke (h : Hub) (n m : Nat) (f : SpokeX → SpokeX) :
    (h.modSpoke n f).spoke m = if m = n then f (h.spoke n) else h.spoke m := by
  simp only [Hub.spoke, Hub.modSpoke, aGet_aPut]
theorem Hub.node_modNode (h : Hub) (n m : Nat) (f : NodeX → NodeX) :
    (h.modNode n f).node m = if m = n then f (h.node n) else h.node m := by
  simp only [Hub.node, Hub.modNode, aGet_aPut]
theorem Hub.unit_modUnit (h : Hub) (n m : Nat) (f : UnitX → UnitX) :
    (h.modUnit n f).unit m = if m = n then f (h.unit n) else h.unit m := by
  simp only [Hub.unit, Hub.modUnit, aGet_aPut]
theorem Hub.core_modCore (h : Hub) (n m : Nat) (f : CoreX → CoreX) :
    (h.modCore n f).core m = if m = n then f (h.core n) else h.core m := by
  simp only [Hub.core, Hub.modCore, aGet_aPut]
theorem Hub.lock_modLock (h : Hub) (n m : Nat) (f : LockX → LockX) :
    (h.modLock n f).lock m = if m = n then f (h.lock n) else h.lock m := by
  simp only [Hub.lock, Hub.modLock, aGet_aPut]
theorem Hub.link_modLink (h : Hub) (n m : Nat) (f : LinkX → LinkX) :
    (h.modLink n f).link m = if m = n then f (h.link n) else h.link m := by
  simp only [Hub.link, Hub.modLink, aGet_aPut]
theorem Hub.mailbox_modMail (h : Hub) (n m : Nat) (f : MailX → MailX) :
    (h.modMail n f).mailbox m = if m = n then f (h.mailbox n) else h.mailbox m := by
  simp only [Hub.mailbox, Hub.modMail, aGet_aPut]
theorem Hub.ctx_modCtx (h : Hub) (n m : Nat) (f : CtxX → CtxX) :
    (h.modCtx n f).ctx m = if m = n then f (h.ctx n) else h.ctx m := by
  simp only [Hub.ctx, Hub.modCtx, aGet_aPut]
theorem Hub.txn_modTxn (h : Hub) (n m : Nat) (f : TxnX → TxnX) :
    (h.modTxn n f).txn m = if m = n then f (h.txn n) else h.txn m := by
  simp only [Hub.txn, Hub.modTxn, aGet_aPut]
theorem Hub.master_modMaster (h : Hub) (m : Master) (f : MasterX → MasterX) :
    (h.modMaster m f).master m = f (h.master m) := by
  simp only [Hub.master, Hub.modMaster, aGet_aPut, if_true]

@[simp] theorem Hub.master_wrote (h : Hub) (m : Master) (st : Status) :
    (h.wrote m st).master m = { h.master m with wstat := st } := Hub.master_modMaster h m _
@[simp] theorem Hub.master_gave (h : Hub) (m : Master) (v : Word) :
    (h.gave m v).master m = { h.master m with rdata := v, wstat := .ok } := Hub.master_modMaster h m _

/-! ### How a command acts -/

@[simp] theorem State.liftIf_true (s : State) (f : Nat → Hub → Hub) :
    s.liftIf true f = .next { s with hub := f s.clk.chipTime s.hub } := rfl
theorem State.liftIf_of (s : State) {ok : Bool} (f : Nat → Hub → Hub) (h : ok = true) :
    s.liftIf ok f = .next { s with hub := f s.clk.chipTime s.hub } := by subst h; rfl
/-- A command over the hub alone answers the state with the hub changed, or is refused. -/
theorem State.liftIf_next {s t : State} {ok : Bool} {f : Nat → Hub → Hub} (h : s.liftIf ok f = .next t) :
    ok = true ∧ t = { s with hub := f s.clk.chipTime s.hub } := by
  cases ok with
  | true => exact ⟨rfl, (Host.Outcome.next.inj h).symm⟩
  | false => cases h

/-! ### A register write that nothing refuses -/

/-- No claim stands while no transaction is prepared (R433). -/
theorem Hub.claimed_none (h : Hub) (m : Master) (w : TxnWay)
    (hn : ∀ x, x < 16 → h.get F.TXN_STATE_state x ≠ 3) : h.claimed m w = false := by
  unfold Hub.claimed Hub.claimedBy
  rw [List.any_eq_false]
  intro y hy
  have := hn y (List.mem_range.mp hy)
  simp [this]

/-- A write that no transaction, refusal or level stops is its body (R567). -/
theorem Hub.runCmd_body (h : Hub) (t : Nat) (m : Master) (level : Nat) (k : RegCmd)
    (h1 : level ≤ h.levelOf m) (h2 : h.openTxn m = none) (h3 : ∀ x, x < 16 → h.get F.TXN_STATE_state x ≠ 3)
    (h4 : k.pre h = none) (h5 : k.gate h = none) : h.runCmd t m level k = k.body t h := by
  have hc := Hub.claimed_none h m k.txn h3
  obtain ⟨pre, gate, txn, body⟩ := k
  simp only at h4 h5 hc
  unfold Hub.runCmd
  rw [h2]
  cases txn <;> simp [Hub.runCmdIn, if_neg (Nat.not_lt.mpr h1), hc, h4, h5]

/-- The state that a register write which nothing stops leaves. -/
theorem State.cmd_body (s : State) (m : Master) (level : Nat) (k : RegCmd) (h0 : m.ok = true)
    (h1 : level ≤ s.hub.levelOf m) (h2 : s.hub.openTxn m = none)
    (h3 : ∀ x, x < 16 → s.hub.get F.TXN_STATE_state x ≠ 3) (h4 : k.pre s.hub = none) (h5 : k.gate s.hub = none) :
    s.cmd m level k = .next { s with
      hub := ((k.body s.clk.chipTime s.hub).2).wrote m (k.body s.clk.chipTime s.hub).1 } := by
  unfold State.cmd
  rw [State.liftIf_of _ _ h0, Hub.runCmd_body _ _ _ _ _ h1 h2 h3 h4 h5]

/-- A write of a master below its level is refused with AUTH and counted (R480). -/
theorem Hub.runCmd_auth (h : Hub) (t : Nat) (m : Master) (level : Nat) (k : RegCmd)
    (h1 : h.levelOf m < level) (h2 : h.openTxn m = none) (h4 : k.pre h = none) :
    h.runCmd t m level k = (.auth, h.authRefused) := by
  obtain ⟨pre, gate, txn, body⟩ := k
  unfold Hub.runCmd
  rw [h2]
  cases txn <;> simp_all [Hub.runCmdIn]

end Sys2Proof.Machine
end

