-- ==== Sys2Proof/Laws/Commands.lean ====
section
/-! SUPPORT. When a command completes, by the way it acts on the state: one lemma for each. -/

namespace Sys2Proof.Machine

open Sys2Proof

/-- A command that acts on the hub at the present Chip Time. -/
theorem Completes.of_lift {i : Instr} {s : State} {p : State → Prop} (f : Nat → Hub → Hub)
    (he : exec i s = s.lift f) (hp : p { s with hub := f s.clk.chipTime s.hub }) : Completes i s p := ⟨_, he, hp⟩

/-- A command that acts on the hub, where it names parts that exist. -/
theorem Completes.of_liftIf {i : Instr} {s : State} {p : State → Prop} {ok : Bool} (f : Nat → Hub → Hub)
    (he : exec i s = s.liftIf ok f) (hok : ok = true) (hp : p { s with hub := f s.clk.chipTime s.hub }) :
    Completes i s p := ⟨_, he.trans (State.liftIf_of s f hok), hp⟩

/-- A timed event that is due. -/
theorem Completes.of_liftAt {i : Instr} {s : State} {p : State → Prop} {due : Option Nat} {d : Nat} (f : Nat → Hub → Hub)
    (he : exec i s = s.liftAt due f) (hd : due = some d)
    (hp : p { s with clk := s.clk.reach d, hub := f (s.clk.reach d).chipTime s.hub }) :
    Completes i s p := by
  subst hd; exact ⟨_, he, hp⟩

/-- A command that acts on the hub and its clock. -/
theorem Completes.of_liftClk {i : Instr} {s : State} {p : State → Prop} (f : Clock → Hub → Clock × Hub)
    (he : exec i s = s.liftClk f) (hp : p { s with clk := (f s.clk s.hub).1, hub := (f s.clk s.hub).2 }) :
    Completes i s p := ⟨_, he, hp⟩

/-- A register write that nothing refuses: it ends with its body's status. -/
theorem Completes.of_cmd {i : Instr} {s : State} {p : State → Prop} {m : Master} {level : Nat} (k : RegCmd)
    (he : exec i s = s.cmd m level k) (ha : Admits s m level) (hpre : k.pre s.hub = none) (hgate : k.gate s.hub = none)
    (hp : p { s with hub := ((k.body s.clk.chipTime s.hub).2).wrote m (k.body s.clk.chipTime s.hub).1 }) :
    Completes i s p :=
  ⟨_, he.trans (State.cmd_body s m level k ha.master ha.level ha.noTxn ha.noClaim hpre hgate), hp⟩

/-- The same, where the body ends with OK and leaves the hub `h`: what remains is the hub itself. -/
theorem Completes.of_cmd_ok {i : Instr} {s : State} {p : Hub → Prop} {m : Master} {level : Nat} (k : RegCmd) (h : Hub)
    (he : exec i s = s.cmd m level k) (ha : Admits s m level) (hpre : k.pre s.hub = none) (hgate : k.gate s.hub = none)
    (hb : k.body s.clk.chipTime s.hub = (.ok, h)) (hp : p (h.wrote m .ok)) :
    Completes i s (Accepts s m p) := by
  apply Completes.of_cmd k he ha hpre hgate
  rw [hb]
  exact ⟨by simp, rfl, rfl, hp⟩

end Sys2Proof.Machine
end

