-- ==== Sys2Proof/Laws/Instr.lean ====
section
/-! SUPPORT. What an instruction of a Striker core that is carried out leaves. -/

namespace Sys2Proof.Machine

open Sys2Proof

theorem coreOk_bounds {c : Nat} (h : coreOk c = true) : c / 2048 < 32 ∧ 2032 ≤ c % 2048 ∧ c % 2048 ≤ 2041 := by
  have hd : dieOf c = c / 2048 := rfl
  have hl : localOf c = c % 2048 := rfl
  unfold coreOk at h
  rw [← hd, ← hl]
  by_cases h1 : dieOf c = 0 ∨ dieOf c = 4
  · simp only [if_pos h1, Bool.and_eq_true, decide_eq_true_eq] at h
    omega
  · by_cases h2 : dieOf c < 8
    · simp only [if_neg h1, if_pos h2, Bool.or_eq_true, beq_iff_eq] at h
      omega
    · simp only [if_neg h1, if_neg h2, Bool.and_eq_true, decide_eq_true_eq, beq_iff_eq] at h
      omega

theorem coreIdx_lt (c : Nat) (h : coreOk c = true) : coreIdx c < 512 := by
  have := coreOk_bounds h
  unfold coreIdx
  simp only [dieOf, localOf]
  omega

/-- Two cores share no copy of a core's registers. -/
theorem coreIdx_inj {c d : Nat} (hc : coreOk c = true) (hd : coreOk d = true) (h : coreIdx c = coreIdx d) : c = d := by
  have := coreOk_bounds hc
  have := coreOk_bounds hd
  unfold coreIdx at h
  simp only [dieOf, localOf] at h
  omega

@[simp] theorem Hub.pc_modCore (h : Hub) (c d : Nat) (f : CoreX → CoreX) : (h.modCore c f).pc d = h.pc d := rfl
@[simp] theorem Hub.gpr_modCore (h : Hub) (c d : Nat) (r : RegNo) (f : CoreX → CoreX) :
    (h.modCore c f).gpr d r = h.gpr d r := rfl
@[simp] theorem Hub.cget_modCore (h : Hub) (g : Fld) (c d : Nat) (f : CoreX → CoreX) :
    (h.modCore c f).cget g d = h.cget g d := rfl
@[simp] theorem Hub.rd_modCore (h : Hub) (a n c : Nat) (f : CoreX → CoreX) : (h.modCore c f).rd a n = h.rd a n := rfl

/-- A core whose next instruction neither ends a step nor was asked to halt goes on at a boundary. -/
theorem Hub.boundary_id (t c : Nat) (h : Hub) (h1 : h.cget F.STK_DBG_STATUS_steps_left c = 0)
    (h2 : (h.core c).haltAsked = false) : h.boundary t c = h := by
  unfold Hub.boundary
  simp [h1, h2]

/-- A core that no WATCHDOG held off awaits, or one in its handler, goes on. -/
theorem Hub.takeWatchdog_id (c : Nat) (h : Hub)
    (h1 : (h.core c).wdogRaised = true → h.cget F.STK_CAUSE_active c ≠ 0) : h.takeWatchdog c = h := by
  unfold Hub.takeWatchdog
  split
  · next e => exact absurd e.2.2 (h1 e.1)
  · rfl

/-- The state with another hub. -/
def State.withHub (s : State) (h : Hub) : State := { s with hub := h }

/-- An instruction of a core that is carried out is its effect, on the hub with the resume's breakpoint skip spent. -/
theorem State.instr_runs {s : State} {c : Nat} (hr : Runs s c) (f : Nat → Hub → Effect) :
    s.instr c f = .next (s.withHub
      ((f s.clk.chipTime (s.hub.modCore c fun x => { x with bpSkip := false })).finish s.clk.chipTime c
        (s.hub.modCore c fun x => { x with bpSkip := false }))) := by
  obtain ⟨h1, h2, h3, h4, h5, h6, _⟩ := hr
  unfold State.instr
  rw [State.liftIf_of _ _ h1]
  unfold Hub.instr
  have h3' : ¬ localSize c ≤ (s.hub.pc c).toNat := by omega
  simp [h2, h3', h4, State.withHub]

theorem wait_idle_of_ready {h : Hub} {c : Nat} (hr : h.ready c = true) : (h.core c).wait = .idle := by
  unfold Hub.ready at hr
  simp at hr
  exact hr.2

theorem Hub.gpr_setGpr_same (h : Hub) (c : Nat) (r : RegNo) (v : Word) :
    (h.setGpr c r v).gpr c r = if r = 0 then 0 else v := by
  unfold Hub.gpr Hub.setGpr
  split <;> simp

theorem Hub.reg_setGpr (h : Hub) (c : Nat) (rd : RegNo) (v : Word) (r : Reg) (i : Nat)
    (hn : ¬ (rd ≠ 0 ∧ r = .STK_DBG_GPR ∧ i = coreIdx c * 32 + rd.toNat)) : (h.setGpr c rd v).reg r i = h.reg r i := by
  unfold Hub.setGpr
  split
  · rfl
  · next hrd =>
    rw [Hub.reg_setReg]
    split
    · next hx => exact absurd ⟨hrd, hx⟩ hn
    · rfl

@[simp] theorem Hub.setGpr_mem (h : Hub) (c : Nat) (rd : RegNo) (v : Word) : (h.setGpr c rd v).mem = h.mem := by
  unfold Hub.setGpr; split <;> rfl
@[simp] theorem Hub.setGpr_cores (h : Hub) (c : Nat) (rd : RegNo) (v : Word) : (h.setGpr c rd v).cores = h.cores := by
  unfold Hub.setGpr; split <;> rfl
@[simp] theorem Hub.setGpr_core (h : Hub) (c d : Nat) (rd : RegNo) (v : Word) : (h.setGpr c rd v).core d = h.core d := by
  unfold Hub.setGpr; split <;> rfl
/-- The hub with another memory. -/
def Hub.withMem (h : Hub) (m : List Host.Cell) : Hub := { h with mem := m }

@[simp] theorem Hub.others_setReg (h : Hub) (r : Reg) (i : Nat) (v : Word) : (h.setReg r i v).others = h.others := rfl
@[simp] theorem Hub.others_modCore (h : Hub) (c : Nat) (f : CoreX → CoreX) : (h.modCore c f).others = h.others := rfl
@[simp] theorem Hub.others_withMem (h : Hub) (m : List Host.Cell) : (h.withMem m).others = h.others := rfl
@[simp] theorem Hub.others_setGpr (h : Hub) (c : Nat) (rd : RegNo) (v : Word) : (h.setGpr c rd v).others = h.others := by
  unfold Hub.setGpr; split <;> rfl

/-- What a completed instruction leaves that jumps to `p` with the hub `h`, which differs from the hub it began in only
in rd and in memory. -/
theorem State.left_of {s : State} {c : Nat} (hr : Runs s c) (rd : RegNo) (v p : Word) (at_ : Nat → Prop)
    (m : List Host.Cell) (hm : ∀ a, ¬ at_ a → aGet memDefault m a = s.hub.byte a) :
    Left s (s.withHub (Hub.retire s.clk.chipTime c p
      (((s.hub.modCore c fun x => { x with bpSkip := false }).setGpr c rd v).withMem m))) c rd v p at_ := by
  obtain ⟨h1, h2, h3, h4, h5, h6, h7⟩ := hr
  have hw := wait_idle_of_ready h2
  generalize hG : ((s.hub.modCore c fun x => { x with bpSkip := false }).setGpr c rd v).withMem m = G
  have gc : ∀ d, G.core d = (s.hub.modCore c fun x => { x with bpSkip := false }).core d := by
    intro d; subst hG; exact Hub.setGpr_core _ _ _ _ _
  have gr : ∀ r i, ¬ (rd ≠ 0 ∧ r = .STK_DBG_GPR ∧ i = coreIdx c * 32 + rd.toNat) → G.reg r i = s.hub.reg r i := by
    intro r i hn; subst hG; exact (Hub.reg_setGpr _ c rd v r i hn)
  have gi : G.reg .STK_INSTRET (coreIdx c) = s.hub.reg .STK_INSTRET (coreIdx c) := by
    apply gr; rintro ⟨_, h, _⟩; cases h
  have gg : G.gpr c rd = if rd = 0 then 0 else v := by
    subst hG; exact Hub.gpr_setGpr_same _ _ _ _
  have gm : G.mem = m := by subst hG; rfl
  have grest : G.others = s.hub.others := by rw [← hG]; simp
  generalize hX : ((G.setPc c p).modCore c (fun x => { x with wait := .idle })).setReg .STK_INSTRET (coreIdx c)
    (G.reg .STK_INSTRET (coreIdx c) + 1) = X
  have hreg : ∀ r i, X.reg r i =
      if r = .STK_INSTRET ∧ i = coreIdx c then s.hub.reg .STK_INSTRET (coreIdx c) + 1
      else if r = .STK_DBG_PC ∧ i = coreIdx c then p else G.reg r i := by
    intro r i
    rw [← hX, Hub.reg_setReg, gi, Hub.reg_modCore, Hub.setPc, Hub.reg_setReg]
  have hcore : ∀ d, X.core d = if d = c then { s.hub.core c with bpSkip := false } else s.hub.core d := by
    intro d
    have e : X.core d = ((G.setPc c p).modCore c (fun x => { x with wait := .idle })).core d := by
      rw [← hX, Hub.core_setReg]
    rw [e, Hub.core_modCore, Hub.setPc, Hub.core_setReg, Hub.core_setReg, gc, gc, Hub.core_modCore, Hub.core_modCore]
    split
    · simp only [if_true]
      rw [← hw]
    · rfl
  have hsl : X.cget F.STK_DBG_STATUS_steps_left c = 0 := by
    rw [← h5]
    have e : X.reg .STK_DBG_STATUS (coreIdx c) = s.hub.reg .STK_DBG_STATUS (coreIdx c) := by
      rw [hreg, if_neg (by rintro ⟨h, _⟩; cases h), if_neg (by rintro ⟨h, _⟩; cases h)]
      apply gr; rintro ⟨_, h, _⟩; cases h
    show bits (X.reg .STK_DBG_STATUS (coreIdx c)).toNat _ _ = _
    rw [e]; rfl
  have hb : Hub.retire s.clk.chipTime c p G = X := by
    have e : Hub.retire s.clk.chipTime c p G = (X.boundary s.clk.chipTime c).takeWatchdog c := by
      rw [← hX]; unfold Hub.retire; rfl
    have hx : X.boundary s.clk.chipTime c = X := by
      apply Hub.boundary_id _ _ _ hsl
      rw [hcore, if_pos rfl]
      exact h6
    rw [e, hx]
    apply Hub.takeWatchdog_id
    rw [hcore, if_pos rfl]
    have ec : X.reg .STK_CAUSE (coreIdx c) = s.hub.reg .STK_CAUSE (coreIdx c) := by
      rw [hreg, if_neg (by rintro ⟨h, _⟩; cases h), if_neg (by rintro ⟨h, _⟩; cases h)]
      apply gr; rintro ⟨_, h, _⟩; cases h
    show _ → bits (X.reg .STK_CAUSE (coreIdx c)).toNat _ _ ≠ _
    rw [ec]
    exact h7
  have hmem : X.mem = m := by rw [← gm, ← hX]; simp [Hub.setPc]
  have hrest : X.others = s.hub.others := by rw [← grest, ← hX]; simp [Hub.setPc]
  rw [hb]
  clear hX hb
  refine ⟨?_, ?_, ?_, ?_, ?_, ?_, ?_, ?_, rfl, rfl⟩
  · rw [← gg]
    show X.gpr c rd = G.gpr c rd
    unfold Hub.gpr
    rw [hreg]
    simp
  · show X.reg _ _ = p
    rw [hreg]; simp
  · show X.reg _ _ = _
    rw [hreg]; simp
  · intro r i hn
    show X.reg r i = s.hub.reg r i
    simp only [InstrReg, not_or] at hn
    rw [hreg, if_neg hn.2.1, if_neg hn.1]
    exact gr r i hn.2.2
  · intro a ha
    show aGet memDefault X.mem a = _
    rw [hmem]; exact hm a ha
  · show X.core c = _
    rw [hcore, if_pos rfl]
  · intro d hd
    show X.core d = _
    rw [hcore, if_neg hd]
  · exact hrest

/-- A register instruction that is carried out. -/
theorem State.left_setGpr {s : State} {c : Nat} (hr : Runs s c) (rd : RegNo) (v p : Word) :
    Left s (s.withHub (Hub.retire s.clk.chipTime c p
      ((s.hub.modCore c fun x => { x with bpSkip := false }).setGpr c rd v))) c rd v p fun _ => False := by
  have := State.left_of hr rd v p (fun _ => False) s.hub.mem (fun _ _ => rfl)
  have e : ((s.hub.modCore c fun x => { x with bpSkip := false }).setGpr c rd v).withMem s.hub.mem =
      (s.hub.modCore c fun x => { x with bpSkip := false }).setGpr c rd v := by
    unfold Hub.setGpr; split <;> rfl
  rwa [e] at this

end Sys2Proof.Machine
end

