-- ==== Sys2Proof/Laws/Trace.lean ====
section
/-! SUPPORT. What a trace record leaves on its way to the collectors and the matrices: everything but the spokes'
queues, the matrices' offers, the wait-for engine's notes and the registers that count records. -/

namespace Sys2Proof.Machine

open Sys2Proof

/-- The hub without what a record on its way may change. -/
def Hub.untraced (h : Hub) : Hub := { h with regs := [], spokes := [], offers := [], ctxs := [], wfg := {} }

/-- What a record leaves. -/
structure Traced (h h' : Hub) : Prop where
  regs : ∀ r i, ¬ TraceReg r → h'.reg r i = h.reg r i
  rest : h'.untraced = h.untraced
  spoke : ∀ n, (h'.spoke n).lag = (h.spoke n).lag ∧ (h'.spoke n).floor = (h.spoke n).floor ∧
    (h'.spoke n).trimLeft = (h.spoke n).trimLeft ∧ (h'.spoke n).trimTotal = (h.spoke n).trimTotal ∧
    (h'.spoke n).ppq = (h.spoke n).ppq

theorem Traced.refl (h : Hub) : Traced h h := ⟨fun _ _ _ => rfl, rfl, fun _ => ⟨rfl, rfl, rfl, rfl, rfl⟩⟩
theorem Traced.trans {a b c : Hub} (h1 : Traced a b) (h2 : Traced b c) : Traced a c :=
  ⟨fun _ _ hr => (h2.regs _ _ hr).trans (h1.regs _ _ hr), h2.rest.trans h1.rest, fun n => by
    obtain ⟨a1, a2, a3, a4, a5⟩ := h1.spoke n
    obtain ⟨b1, b2, b3, b4, b5⟩ := h2.spoke n
    exact ⟨b1.trans a1, b2.trans a2, b3.trans a3, b4.trans a4, b5.trans a5⟩⟩

theorem Traced.put (h : Hub) (f : Fld) (i v : Nat) (hf : TraceReg f.reg) : Traced h (h.put f i v) :=
  ⟨fun _ j hr => Hub.reg_put_reg h i j v (fun e => hr (e ▸ hf)), rfl, fun _ => ⟨rfl, rfl, rfl, rfl, rfl⟩⟩

theorem Traced.wfgSees (h : Hub) (r : Rec) : Traced h (h.wfgSees r) := by
  unfold Hub.wfgSees
  split
  · exact ⟨fun _ _ _ => rfl, rfl, fun _ => ⟨rfl, rfl, rfl, rfl, rfl⟩⟩
  · split
    · exact ⟨fun _ _ _ => rfl, rfl, fun _ => ⟨rfl, rfl, rfl, rfl, rfl⟩⟩
    · exact Traced.refl h

theorem Traced.offer (h : Hub) (m p : Nat) (o : Offer) (lv : Nat) : Traced h (h.offer m p o lv) := by
  unfold Hub.offer
  dsimp only
  split
  · split
    · exact Traced.put h F.TRG_STATUS_eval_drops _ _ (Or.inr (Or.inr (Or.inl rfl)))
    · exact Traced.put h F.HTRG_STATUS_eval_drops _ _ (Or.inr (Or.inr (Or.inr rfl)))
  · exact ⟨fun _ _ _ => rfl, rfl, fun _ => ⟨rfl, rfl, rfl, rfl, rfl⟩⟩

theorem Traced.modSpoke (h : Hub) (n : Nat) (f : SpokeX → SpokeX)
    (hf : ∀ x, (f x).lag = x.lag ∧ (f x).floor = x.floor ∧ (f x).trimLeft = x.trimLeft ∧
      (f x).trimTotal = x.trimTotal ∧ (f x).ppq = x.ppq) : Traced h (h.modSpoke n f) := by
  refine ⟨fun _ _ _ => rfl, rfl, fun m => ?_⟩
  rw [Hub.spoke_modSpoke]
  split
  · next e => subst e; exact hf _
  · exact ⟨rfl, rfl, rfl, rfl, rfl⟩

theorem Traced.sbump (h : Hub) (f : Fld) (n k v : Nat) (hf : TraceReg f.reg) : Traced h (h.sbump f n k v) :=
  Traced.put h f _ _ hf

theorem Traced.fifoPush (h : Hub) (t n : Nat) (r : Rec) : Traced h (h.fifoPush t n r) := by
  unfold Hub.fifoPush
  dsimp only
  split
  · refine Traced.trans (b := h.modSpoke n _) (Traced.modSpoke h n _ ?_)
      (Traced.sbump _ F.TRC_LOSS_TOTAL_dropped _ _ _ (Or.inr (Or.inl rfl)))
    exact fun x => ⟨rfl, rfl, rfl, rfl, rfl⟩
  · split
    · exact Traced.modSpoke h n _ fun x => ⟨rfl, rfl, rfl, rfl, rfl⟩
    · refine Traced.trans (b := h.modSpoke n _) (Traced.modSpoke h n _ ?_)
        (Traced.put _ F.TRC_COLLECT_fifo_peak _ _ (Or.inl rfl))
      exact fun x => ⟨rfl, rfl, rfl, rfl, rfl⟩

theorem Traced.collect (h : Hub) (t n : Nat) (r : Rec) : Traced h (h.collect t n r) := by
  unfold Hub.collect
  dsimp only
  have h1 : Traced h ((h.wfgSees r).offer (nodeOf n) n (.record r) (classLevel r.cls)) :=
    (Traced.wfgSees h r).trans (Traced.offer _ _ _ _ _)
  generalize (h.wfgSees r).offer (nodeOf n) n (.record r) (classLevel r.cls) = g at h1
  have h2 : Traced h (if 6 ≤ classLevel r.cls then g.offer 8 32 (.record r) (classLevel r.cls) else g) := by
    split
    · exact h1.trans (Traced.offer _ _ _ _ _)
    · exact h1
  generalize (if 6 ≤ classLevel r.cls then g.offer 8 32 (.record r) (classLevel r.cls) else g) = k at h2
  split
  · exact h2.trans (Traced.fifoPush _ _ _ _)
  · exact h2

/-- A record that a hub source or a spoke writes. -/
theorem Traced.emit (h : Hub) (t src cls : Nat) (ctx : Option Nat) (pay : Nat) : Traced h (h.emit t src cls ctx pay) :=
  Traced.collect h t _ _

/-! ### What a record leaves as it was -/

@[simp] theorem Hub.reg_emit (h : Hub) (t src cls : Nat) (ctx : Option Nat) (pay : Nat) {r : Reg} (i : Nat) (hr : ¬ TraceReg r) :
    (h.emit t src cls ctx pay).reg r i = h.reg r i := (Traced.emit h t src cls ctx pay).regs r i hr
@[simp] theorem Hub.get_emit (h : Hub) (t src cls : Nat) (ctx : Option Nat) (pay : Nat) {f : Fld} (i : Nat) (hf : ¬ TraceReg f.reg) :
    (h.emit t src cls ctx pay).get f i = h.get f i := by
  simp only [Hub.get, Hub.reg_emit _ _ _ _ _ _ _ hf]
@[simp] theorem Hub.emit_shadow (h : Hub) (t src cls : Nat) (ctx : Option Nat) (pay : Nat) :
    (h.emit t src cls ctx pay).shadow = h.shadow :=
  (congrArg Hub.shadow (Traced.emit h t src cls ctx pay).rest :)
@[simp] theorem Hub.emit_mem (h : Hub) (t src cls : Nat) (ctx : Option Nat) (pay : Nat) :
    (h.emit t src cls ctx pay).mem = h.mem :=
  (congrArg Hub.mem (Traced.emit h t src cls ctx pay).rest :)
@[simp] theorem Hub.emit_fresh (h : Hub) (t src cls : Nat) (ctx : Option Nat) (pay : Nat) :
    (h.emit t src cls ctx pay).fresh = h.fresh :=
  (congrArg Hub.fresh (Traced.emit h t src cls ctx pay).rest :)
@[simp] theorem Hub.emit_owedStep (h : Hub) (t src cls : Nat) (ctx : Option Nat) (pay : Nat) :
    (h.emit t src cls ctx pay).owedStep = h.owedStep :=
  (congrArg Hub.owedStep (Traced.emit h t src cls ctx pay).rest :)
@[simp] theorem Hub.emit_powered (h : Hub) (t src cls : Nat) (ctx : Option Nat) (pay : Nat) :
    (h.emit t src cls ctx pay).powered = h.powered :=
  (congrArg Hub.powered (Traced.emit h t src cls ctx pay).rest :)
@[simp] theorem Hub.emit_cut (h : Hub) (t src cls : Nat) (ctx : Option Nat) (pay : Nat) :
    (h.emit t src cls ctx pay).cut = h.cut :=
  (congrArg Hub.cut (Traced.emit h t src cls ctx pay).rest :)
@[simp] theorem Hub.emit_booting (h : Hub) (t src cls : Nat) (ctx : Option Nat) (pay : Nat) :
    (h.emit t src cls ctx pay).booting = h.booting :=
  (congrArg Hub.booting (Traced.emit h t src cls ctx pay).rest :)
@[simp] theorem Hub.emit_failover (h : Hub) (t src cls : Nat) (ctx : Option Nat) (pay : Nat) :
    (h.emit t src cls ctx pay).failover = h.failover :=
  (congrArg Hub.failover (Traced.emit h t src cls ctx pay).rest :)
@[simp] theorem Hub.emit_retired (h : Hub) (t src cls : Nat) (ctx : Option Nat) (pay : Nat) :
    (h.emit t src cls ctx pay).retired = h.retired :=
  (congrArg Hub.retired (Traced.emit h t src cls ctx pay).rest :)
@[simp] theorem Hub.emit_time (h : Hub) (t src cls : Nat) (ctx : Option Nat) (pay : Nat) :
    (h.emit t src cls ctx pay).time = h.time :=
  (congrArg Hub.time (Traced.emit h t src cls ctx pay).rest :)
@[simp] theorem Hub.emit_nodes (h : Hub) (t src cls : Nat) (ctx : Option Nat) (pay : Nat) :
    (h.emit t src cls ctx pay).nodes = h.nodes :=
  (congrArg Hub.nodes (Traced.emit h t src cls ctx pay).rest :)
@[simp] theorem Hub.emit_quenchReqs (h : Hub) (t src cls : Nat) (ctx : Option Nat) (pay : Nat) :
    (h.emit t src cls ctx pay).quenchReqs = h.quenchReqs :=
  (congrArg Hub.quenchReqs (Traced.emit h t src cls ctx pay).rest :)
@[simp] theorem Hub.emit_ramps (h : Hub) (t src cls : Nat) (ctx : Option Nat) (pay : Nat) :
    (h.emit t src cls ctx pay).ramps = h.ramps :=
  (congrArg Hub.ramps (Traced.emit h t src cls ctx pay).rest :)
@[simp] theorem Hub.emit_reheat (h : Hub) (t src cls : Nat) (ctx : Option Nat) (pay : Nat) :
    (h.emit t src cls ctx pay).reheat = h.reheat :=
  (congrArg Hub.reheat (Traced.emit h t src cls ctx pay).rest :)
@[simp] theorem Hub.emit_rails (h : Hub) (t src cls : Nat) (ctx : Option Nat) (pay : Nat) :
    (h.emit t src cls ctx pay).rails = h.rails :=
  (congrArg Hub.rails (Traced.emit h t src cls ctx pay).rest :)
@[simp] theorem Hub.emit_ovh (h : Hub) (t src cls : Nat) (ctx : Option Nat) (pay : Nat) :
    (h.emit t src cls ctx pay).ovh = h.ovh :=
  (congrArg Hub.ovh (Traced.emit h t src cls ctx pay).rest :)
@[simp] theorem Hub.emit_chipReset (h : Hub) (t src cls : Nat) (ctx : Option Nat) (pay : Nat) :
    (h.emit t src cls ctx pay).chipReset = h.chipReset :=
  (congrArg Hub.chipReset (Traced.emit h t src cls ctx pay).rest :)
@[simp] theorem Hub.emit_captures (h : Hub) (t src cls : Nat) (ctx : Option Nat) (pay : Nat) :
    (h.emit t src cls ctx pay).captures = h.captures :=
  (congrArg Hub.captures (Traced.emit h t src cls ctx pay).rest :)
@[simp] theorem Hub.emit_captureSeq (h : Hub) (t src cls : Nat) (ctx : Option Nat) (pay : Nat) :
    (h.emit t src cls ctx pay).captureSeq = h.captureSeq :=
  (congrArg Hub.captureSeq (Traced.emit h t src cls ctx pay).rest :)
@[simp] theorem Hub.emit_plans (h : Hub) (t src cls : Nat) (ctx : Option Nat) (pay : Nat) :
    (h.emit t src cls ctx pay).plans = h.plans :=
  (congrArg Hub.plans (Traced.emit h t src cls ctx pay).rest :)
@[simp] theorem Hub.emit_doneJobs (h : Hub) (t src cls : Nat) (ctx : Option Nat) (pay : Nat) :
    (h.emit t src cls ctx pay).doneJobs = h.doneJobs :=
  (congrArg Hub.doneJobs (Traced.emit h t src cls ctx pay).rest :)
@[simp] theorem Hub.emit_heldJobs (h : Hub) (t src cls : Nat) (ctx : Option Nat) (pay : Nat) :
    (h.emit t src cls ctx pay).heldJobs = h.heldJobs :=
  (congrArg Hub.heldJobs (Traced.emit h t src cls ctx pay).rest :)
@[simp] theorem Hub.emit_swg (h : Hub) (t src cls : Nat) (ctx : Option Nat) (pay : Nat) :
    (h.emit t src cls ctx pay).swg = h.swg :=
  (congrArg Hub.swg (Traced.emit h t src cls ctx pay).rest :)
@[simp] theorem Hub.emit_swgSeq (h : Hub) (t src cls : Nat) (ctx : Option Nat) (pay : Nat) :
    (h.emit t src cls ctx pay).swgSeq = h.swgSeq :=
  (congrArg Hub.swgSeq (Traced.emit h t src cls ctx pay).rest :)
@[simp] theorem Hub.emit_swgTurn (h : Hub) (t src cls : Nat) (ctx : Option Nat) (pay : Nat) :
    (h.emit t src cls ctx pay).swgTurn = h.swgTurn :=
  (congrArg Hub.swgTurn (Traced.emit h t src cls ctx pay).rest :)
@[simp] theorem Hub.emit_hostPath (h : Hub) (t src cls : Nat) (ctx : Option Nat) (pay : Nat) :
    (h.emit t src cls ctx pay).hostPath = h.hostPath :=
  (congrArg Hub.hostPath (Traced.emit h t src cls ctx pay).rest :)
@[simp] theorem Hub.emit_xtrigUntil (h : Hub) (t src cls : Nat) (ctx : Option Nat) (pay : Nat) :
    (h.emit t src cls ctx pay).xtrigUntil = h.xtrigUntil :=
  (congrArg Hub.xtrigUntil (Traced.emit h t src cls ctx pay).rest :)
@[simp] theorem Hub.emit_spine (h : Hub) (t src cls : Nat) (ctx : Option Nat) (pay : Nat) :
    (h.emit t src cls ctx pay).spine = h.spine :=
  (congrArg Hub.spine (Traced.emit h t src cls ctx pay).rest :)
@[simp] theorem Hub.emit_emberExitAt (h : Hub) (t src cls : Nat) (ctx : Option Nat) (pay : Nat) :
    (h.emit t src cls ctx pay).emberExitAt = h.emberExitAt :=
  (congrArg Hub.emberExitAt (Traced.emit h t src cls ctx pay).rest :)
@[simp] theorem Hub.emit_wheelNotes (h : Hub) (t src cls : Nat) (ctx : Option Nat) (pay : Nat) :
    (h.emit t src cls ctx pay).wheelNotes = h.wheelNotes :=
  (congrArg Hub.wheelNotes (Traced.emit h t src cls ctx pay).rest :)
@[simp] theorem Hub.emit_lanes (h : Hub) (t src cls : Nat) (ctx : Option Nat) (pay : Nat) :
    (h.emit t src cls ctx pay).lanes = h.lanes :=
  (congrArg Hub.lanes (Traced.emit h t src cls ctx pay).rest :)
@[simp] theorem Hub.emit_resetStarts (h : Hub) (t src cls : Nat) (ctx : Option Nat) (pay : Nat) :
    (h.emit t src cls ctx pay).resetStarts = h.resetStarts :=
  (congrArg Hub.resetStarts (Traced.emit h t src cls ctx pay).rest :)
@[simp] theorem Hub.emit_seeds (h : Hub) (t src cls : Nat) (ctx : Option Nat) (pay : Nat) :
    (h.emit t src cls ctx pay).seeds = h.seeds :=
  (congrArg Hub.seeds (Traced.emit h t src cls ctx pay).rest :)
@[simp] theorem Hub.emit_retrains (h : Hub) (t src cls : Nat) (ctx : Option Nat) (pay : Nat) :
    (h.emit t src cls ctx pay).retrains = h.retrains :=
  (congrArg Hub.retrains (Traced.emit h t src cls ctx pay).rest :)
@[simp] theorem Hub.emit_emberActs (h : Hub) (t src cls : Nat) (ctx : Option Nat) (pay : Nat) :
    (h.emit t src cls ctx pay).emberActs = h.emberActs :=
  (congrArg Hub.emberActs (Traced.emit h t src cls ctx pay).rest :)
@[simp] theorem Hub.emit_laneMoves (h : Hub) (t src cls : Nat) (ctx : Option Nat) (pay : Nat) :
    (h.emit t src cls ctx pay).laneMoves = h.laneMoves :=
  (congrArg Hub.laneMoves (Traced.emit h t src cls ctx pay).rest :)
@[simp] theorem Hub.emit_warmReq (h : Hub) (t src cls : Nat) (ctx : Option Nat) (pay : Nat) :
    (h.emit t src cls ctx pay).warmReq = h.warmReq :=
  (congrArg Hub.warmReq (Traced.emit h t src cls ctx pay).rest :)
@[simp] theorem Hub.emit_ledger (h : Hub) (t src cls : Nat) (ctx : Option Nat) (pay : Nat) :
    (h.emit t src cls ctx pay).ledger = h.ledger :=
  (congrArg Hub.ledger (Traced.emit h t src cls ctx pay).rest :)
@[simp] theorem Hub.emit_failoverAt (h : Hub) (t src cls : Nat) (ctx : Option Nat) (pay : Nat) :
    (h.emit t src cls ctx pay).failoverAt = h.failoverAt :=
  (congrArg Hub.failoverAt (Traced.emit h t src cls ctx pay).rest :)
@[simp] theorem Hub.emit_units (h : Hub) (t src cls : Nat) (ctx : Option Nat) (pay : Nat) :
    (h.emit t src cls ctx pay).units = h.units :=
  (congrArg Hub.units (Traced.emit h t src cls ctx pay).rest :)
@[simp] theorem Hub.emit_cmds (h : Hub) (t src cls : Nat) (ctx : Option Nat) (pay : Nat) :
    (h.emit t src cls ctx pay).cmds = h.cmds :=
  (congrArg Hub.cmds (Traced.emit h t src cls ctx pay).rest :)
@[simp] theorem Hub.emit_nextCmd (h : Hub) (t src cls : Nat) (ctx : Option Nat) (pay : Nat) :
    (h.emit t src cls ctx pay).nextCmd = h.nextCmd :=
  (congrArg Hub.nextCmd (Traced.emit h t src cls ctx pay).rest :)
@[simp] theorem Hub.emit_txns (h : Hub) (t src cls : Nat) (ctx : Option Nat) (pay : Nat) :
    (h.emit t src cls ctx pay).txns = h.txns :=
  (congrArg Hub.txns (Traced.emit h t src cls ctx pay).rest :)
@[simp] theorem Hub.emit_cores (h : Hub) (t src cls : Nat) (ctx : Option Nat) (pay : Nat) :
    (h.emit t src cls ctx pay).cores = h.cores :=
  (congrArg Hub.cores (Traced.emit h t src cls ctx pay).rest :)
@[simp] theorem Hub.emit_masters (h : Hub) (t src cls : Nat) (ctx : Option Nat) (pay : Nat) :
    (h.emit t src cls ctx pay).masters = h.masters :=
  (congrArg Hub.masters (Traced.emit h t src cls ctx pay).rest :)
@[simp] theorem Hub.emit_locks (h : Hub) (t src cls : Nat) (ctx : Option Nat) (pay : Nat) :
    (h.emit t src cls ctx pay).locks = h.locks :=
  (congrArg Hub.locks (Traced.emit h t src cls ctx pay).rest :)
@[simp] theorem Hub.emit_links (h : Hub) (t src cls : Nat) (ctx : Option Nat) (pay : Nat) :
    (h.emit t src cls ctx pay).links = h.links :=
  (congrArg Hub.links (Traced.emit h t src cls ctx pay).rest :)
@[simp] theorem Hub.emit_mail (h : Hub) (t src cls : Nat) (ctx : Option Nat) (pay : Nat) :
    (h.emit t src cls ctx pay).mail = h.mail :=
  (congrArg Hub.mail (Traced.emit h t src cls ctx pay).rest :)
@[simp] theorem Hub.emit_notices (h : Hub) (t src cls : Nat) (ctx : Option Nat) (pay : Nat) :
    (h.emit t src cls ctx pay).notices = h.notices :=
  (congrArg Hub.notices (Traced.emit h t src cls ctx pay).rest :)
@[simp] theorem Hub.emit_heldNotices (h : Hub) (t src cls : Nat) (ctx : Option Nat) (pay : Nat) :
    (h.emit t src cls ctx pay).heldNotices = h.heldNotices :=
  (congrArg Hub.heldNotices (Traced.emit h t src cls ctx pay).rest :)
@[simp] theorem Hub.emit_heldEvents (h : Hub) (t src cls : Nat) (ctx : Option Nat) (pay : Nat) :
    (h.emit t src cls ctx pay).heldEvents = h.heldEvents :=
  (congrArg Hub.heldEvents (Traced.emit h t src cls ctx pay).rest :)
@[simp] theorem Hub.emit_out (h : Hub) (t src cls : Nat) (ctx : Option Nat) (pay : Nat) :
    (h.emit t src cls ctx pay).out = h.out :=
  (congrArg Hub.out (Traced.emit h t src cls ctx pay).rest :)
@[simp] theorem Hub.emit_load (h : Hub) (t src cls : Nat) (ctx : Option Nat) (pay : Nat) :
    (h.emit t src cls ctx pay).load = h.load :=
  (congrArg Hub.load (Traced.emit h t src cls ctx pay).rest :)
@[simp] theorem Hub.emit_arms (h : Hub) (t src cls : Nat) (ctx : Option Nat) (pay : Nat) :
    (h.emit t src cls ctx pay).arms = h.arms :=
  (congrArg Hub.arms (Traced.emit h t src cls ctx pay).rest :)
@[simp] theorem Hub.emit_fail (h : Hub) (t src cls : Nat) (ctx : Option Nat) (pay : Nat) :
    (h.emit t src cls ctx pay).fail = h.fail :=
  (congrArg Hub.fail (Traced.emit h t src cls ctx pay).rest :)
@[simp] theorem Hub.emit_upd (h : Hub) (t src cls : Nat) (ctx : Option Nat) (pay : Nat) :
    (h.emit t src cls ctx pay).upd = h.upd :=
  (congrArg Hub.upd (Traced.emit h t src cls ctx pay).rest :)
@[simp] theorem Hub.emit_mapOp (h : Hub) (t src cls : Nat) (ctx : Option Nat) (pay : Nat) :
    (h.emit t src cls ctx pay).mapOp = h.mapOp :=
  (congrArg Hub.mapOp (Traced.emit h t src cls ctx pay).rest :)
@[simp] theorem Hub.emit_recal (h : Hub) (t src cls : Nat) (ctx : Option Nat) (pay : Nat) :
    (h.emit t src cls ctx pay).recal = h.recal :=
  (congrArg Hub.recal (Traced.emit h t src cls ctx pay).rest :)
@[simp] theorem Hub.emit_boot (h : Hub) (t src cls : Nat) (ctx : Option Nat) (pay : Nat) :
    (h.emit t src cls ctx pay).boot = h.boot :=
  (congrArg Hub.boot (Traced.emit h t src cls ctx pay).rest :)
@[simp] theorem Hub.emit_seq (h : Hub) (t src cls : Nat) (ctx : Option Nat) (pay : Nat) :
    (h.emit t src cls ctx pay).seq = h.seq :=
  (congrArg Hub.seq (Traced.emit h t src cls ctx pay).rest :)
@[simp] theorem Hub.emit_spdm (h : Hub) (t src cls : Nat) (ctx : Option Nat) (pay : Nat) :
    (h.emit t src cls ctx pay).spdm = h.spdm :=
  (congrArg Hub.spdm (Traced.emit h t src cls ctx pay).rest :)
@[simp] theorem Hub.emit_sess (h : Hub) (t src cls : Nat) (ctx : Option Nat) (pay : Nat) :
    (h.emit t src cls ctx pay).sess = h.sess :=
  (congrArg Hub.sess (Traced.emit h t src cls ctx pay).rest :)
@[simp] theorem Hub.emit_vyn (h : Hub) (t src cls : Nat) (ctx : Option Nat) (pay : Nat) :
    (h.emit t src cls ctx pay).vyn = h.vyn :=
  (congrArg Hub.vyn (Traced.emit h t src cls ctx pay).rest :)
@[simp] theorem Hub.emit_exports (h : Hub) (t src cls : Nat) (ctx : Option Nat) (pay : Nat) :
    (h.emit t src cls ctx pay).exports = h.exports :=
  (congrArg Hub.exports (Traced.emit h t src cls ctx pay).rest :)
@[simp] theorem Hub.emit_rcptKeys (h : Hub) (t src cls : Nat) (ctx : Option Nat) (pay : Nat) :
    (h.emit t src cls ctx pay).rcptKeys = h.rcptKeys :=
  (congrArg Hub.rcptKeys (Traced.emit h t src cls ctx pay).rest :)
@[simp] theorem Hub.emit_mctp (h : Hub) (t src cls : Nat) (ctx : Option Nat) (pay : Nat) :
    (h.emit t src cls ctx pay).mctp = h.mctp :=
  (congrArg Hub.mctp (Traced.emit h t src cls ctx pay).rest :)
@[simp] theorem Hub.emit_i3c (h : Hub) (t src cls : Nat) (ctx : Option Nat) (pay : Nat) :
    (h.emit t src cls ctx pay).i3c = h.i3c :=
  (congrArg Hub.i3c (Traced.emit h t src cls ctx pay).rest :)
@[simp] theorem Hub.emit_tap (h : Hub) (t src cls : Nat) (ctx : Option Nat) (pay : Nat) :
    (h.emit t src cls ctx pay).tap = h.tap :=
  (congrArg Hub.tap (Traced.emit h t src cls ctx pay).rest :)

end Sys2Proof.Machine
end

