-- ==== Sys2Proof/Tests/States.lean ====
section
/-! SUPPORT. The small states that the tests start from: a hub that is up, and what is set on top of it. -/

namespace Sys2Proof.Tests

open Sys2Proof Sys2Proof.Machine

/-- A spoke core of die 0. -/
abbrev sc : Nat := 0x7F8
/-- A Hearth core of die 0. -/
abbrev hc : Nat := 0x7F0
/-- The spoke core of die 1. -/
abbrev sc1 : Nat := 2048 + 0x7F8
/-- A unit of compute die 8. -/
abbrev unit8 : Nat := 0x4000
/-- An address in Hearth scratch. -/
abbrev scratch : Nat := 0x40000000

/-- Core `c` is released at PC 0 with level 4. -/
def coreUp (c : Nat) (h : Hub) : Hub :=
  (h.modCore c fun x => { x with released := true }).put F.STK_AUTH_level (coreIdx c) 4
    |>.put F.STK_DBG_STATUS_core_state (coreIdx c) 0

/-- A hub that has come up: powered and started, every domain on, host 0 with a session of level 4, and a Hearth core and
a spoke core released. -/
def upHub : Hub :=
  let h : Hub := { powered := true, booting := false, boot := { done := [1, 2, 3, 4, 5, 6, 7] } }
  let h := (h.put F.HRT_STATE_state 0 1).put F.TIM_STATUS_pll_locked 0 1
  let h := (h.put F.HRT_PWR_DOM_on 0 (2 ^ 64 - 1)).put F.HRT_PWR_DOM_on 1 (2 ^ 64 - 1)
  let h := (h.put F.AUT_SESS_open 0 1).put F.AUT_SESS_level 0 4
  coreUp sc (coreUp hc h)

/-- The machine with that hub, at Chip Time 1,000,000, with something set on top. -/
def st (f : Hub → Hub := id) : State :=
  { clk := { chipTime := 1000000, started := true }, hub := f upHub, pending := [] }

/-- Host 0. -/
abbrev m0 : Master := .host 0
/-- A host whose session is not open. -/
abbrev m1 : Master := .host 1

/-- The state after some commands, each of which answers one. -/
def after (l : List (State → Out)) (s : State) : State :=
  l.foldl (fun s f => match f s with
    | .next t => t
    | _ => s) s
/-- Change the hub of a state. -/
def onHub (f : Hub → Hub) (s : State) : State := { s with hub := f s.hub }

/-! ### Cores -/

/-- A general register of the spoke core. -/
def gp (r : RegNo) (v : Nat) : Hub → Hub := Hub.setGpr sc r (BitVec.ofNat 64 v)
/-- A field of one of the spoke core's registers. -/
def cp (f : Fld) (v : Nat) : Hub → Hub := Hub.put f (coreIdx sc) v
/-- A field of copy `i` of a register. -/
def pf (f : Fld) (v : Nat) (i : Nat := 0) : Hub → Hub := Hub.put f i v
/-- What the spoke core keeps beside its registers. -/
def core (f : CoreX → CoreX) : Hub → Hub := Hub.modCore sc f
/-- The spoke core waits. -/
def waits (w : Wait) : Hub → Hub := core fun x => { x with wait := w }
/-- The PC of the spoke core. -/
def pc (a : Nat) : Hub → Hub := Hub.setPc sc (BitVec.ofNat 64 a)
/-- A takeover is under way, whatever its phase. -/
def failing (h : Hub) : Hub := { h with failover := true }
/-- The chip is escalated. -/
def retiredX (h : Hub) : Hub := { h with retired := true }
/-- The hub is in BOOT. -/
def inBoot (h : Hub) : Hub := { h with booting := true }
/-- Eight bytes at a hub address. -/
def at8 (a v : Nat) : Hub → Hub := fun h => h.wr a 8 v
/-- A posted write of the spoke core. -/
def posted1 (a : Nat) : Posted := { issued := 999000, level := 4, addr := a, width := 0, value := 77 }
/-- A slot with descriptor `desc` and `k` records waiting, and slot `n` of core `c` so. -/
def slotOf (desc k : Nat) (due : Option Nat := none) : Slot := { desc, fifo := List.replicate k 9, due }
@[inherit_doc slotOf] def slotX (c n desc k : Nat) (due : Option Nat := none) : Hub → Hub :=
  Hub.modCore c fun x => { x with slots := aPut (fun _ => { desc := 2 ^ 64 }) n (slotOf desc k due) x.slots }
/-- The watchdog of the spoke core runs out at `n`. -/
def wdogAt (n : Nat) : Hub → Hub := core fun x => { x with wdogDue := some n }
/-- Posted writes of the spoke core. -/
def posts (l : List Posted) : Hub → Hub := core fun x => { x with posted := l }
/-- Refused actions of a trigger matrix or a transaction of the spoke core. -/
def refusedActs : Hub → Hub := core fun x => { x with refused := 3, firstFail := some (77, 0x100) }
/-- Messages for core `c`. -/
def inbox (c : Nat) (l : List (Nat × Word)) : Hub → Hub := Hub.modCore c fun x => { x with inbox := l }
/-- STK_XCTL.exit has been written. -/
def exits : Hub → Hub := core fun x => { x with exitArmed := true }
/-- Lock `l` is held by `m`. -/
def owns (m : Master) (l due : Nat) (ws : List LockWaiter) (h : Hub) : Hub :=
  (((h.put F.LCK_STATE_held l 1).put F.LCK_STATE_owner_kind l m.kind).put F.LCK_STATE_owner_id l m.id).modLock l fun _ =>
    { due, waiters := ws }
/-- A waiter for a lock. -/
def lockWaiter (m : Master) (l : Nat) : LockWaiter := { who := m, limit := l, viaReg := true }
/-- A debugger is attached to the spoke core. -/
def debugged (m : Master) : Hub → Hub := cp F.STK_DBG_STATUS_owner_id m.id ∘ cp F.STK_DBG_STATUS_owner_kind m.kind ∘
  cp F.STK_DBG_CTL_attach 1

/-- A word has been typed. -/
def typed : Hub → Hub := fun h => h.setReg .STK_VT_IN (coreIdx sc) 77

/-! ### Time, trace and units -/

/-- Chip Time has not started. -/
def notStarted : State := { st id with clk := {} }
/-- The filter of spoke 8 leaves the unit's records out. -/
def filtered : Hub → Hub := fun h => h.sput F.TRC_FILTER_unit_hi 8 0 0x7DF

/-- The alignment role and state, and its runs of good and bad measurements. -/
def role (r x g b : Nat) (h : Hub) : Hub :=
  let h := (h.put F.TIM_XCHIP_CFG_role 0 r).put F.TIM_STATUS_xchip_state 0 x
  { h with time := { h.time with goodRun := g, badRun := b } }
/-- A record. -/
def recA : Rec := mkRec 7 unit8 0x21 none 5
/-- `k` records wait in the collector of spoke `n`. -/
def fifoOf (n k : Nat) : Hub → Hub := Hub.modSpoke n fun x => { x with fifo := List.replicate k recA }
/-- A record of level 7, and it at the front of the collector of spoke 8. -/
def rec7 : Rec := mkRec 7 unit8 0xE0 none 5
@[inherit_doc rec7] def fifo7 : Hub → Hub := Hub.modSpoke 8 fun x => { x with fifo := [rec7] }
/-- Level 7 records of the unit wait for the collector. -/
def heldOf (k : Nat) : Hub → Hub := Hub.modSpoke 8 fun x => { x with held := List.replicate k recA }
/-- `k` records wait in the trace writer of node 0. -/
def writerOf (k : Nat) : Hub → Hub := Hub.modNode 0 fun x => { x with fifo := List.replicate k recA }
/-- The trace segment of node `p` is set up. -/
def segOf (acc : Bool) (p : Nat) (h : Hub) : Hub :=
  ((h.modNode p fun x => { x with accept := acc }).put F.TRC_RING_CFG_seg_size 0 1
    |>.sput F.TRC_SEG_BASE_base p 0 (0x100000 + p * 4096)).sput F.TRC_SEG_STATUS_wptr p 0 64
/-- The state of the unit. -/
def unitIs (v : Nat) : Hub → Hub := Hub.uput F.SPK_UNIT_STATE_state unit8 v
/-- What the unit keeps beside its registers. -/
def onUnit (f : UnitX → UnitX) : Hub → Hub := Hub.modUnit unit8 f
/-- A window word of the unit. -/
def winOf (w : Nat) (v : Option Word) : Hub → Hub := onUnit fun x => { x with win := aPut (fun _ => none) w v x.win }
/-- h5 names window word `w` of the unit. -/
def winTarget (w : Nat) : Hub → Hub := gp 5 (unit8 + w * 65536) ∘ gp 6 0x77
/-- `n` pokes wait for the unit. -/
def pokes (n : Nat) : Hub → Hub :=
  Hub.modSpoke 8 fun x => { x with ppq := List.replicate n { unit := unit8, off13 := 1, stager := sc, data := 5 } }
/-- A halt request whose deferral is `d`, and one of a unit under way. -/
def haltX (d : Option Countdown) : HaltX := { cause := 1, since := 0, defer := d }
@[inherit_doc haltX] def halting (d : Option Countdown) (u : Nat := unit8) : Hub → Hub :=
  Hub.modUnit u fun x => { x with halt := some (haltX d) }
/-- A NOWAIT HALT of the unit by host 0 is under way. -/
def nowaitHalt (h : Hub) : Hub :=
  { h with cmds := [(0, { op := .halt, nowait := true, group := false, reply := .reg m0, units := [{ unit := unit8 }] })] }
/-- The unit is to fall silent after `n` more accesses. -/
def mutes (n : Nat) : Hub → Hub := onUnit fun x => { x with mute := some n }
/-- The unit alone is in halt group 3. -/
def inGroup3 : Hub → Hub := fun h => h.sput F.SPK_HGRP_member (dieOf unit8) 12 1
/-- A step of the unit, and it under way. -/
def stepX (hl : Bool) (l : Countdown) : StepX := { count := 3, cause := 1, limit := l, halting := hl }
@[inherit_doc stepX] def stepping (hl : Bool) (l : Countdown) : Hub → Hub :=
  onUnit fun x => { x with step := some (stepX hl l) }
/-- The quench acknowledgement, the reset or the probe of the unit is due. -/
def ackAt (n : Nat) : Hub → Hub := onUnit fun x => { x with ackDue := some n }
@[inherit_doc ackAt] def resetAt (n : Nat) (part : Bool) : Hub → Hub :=
  onUnit fun x => { x with resetDue := some n, partReset := part }
@[inherit_doc ackAt] def probeAt (n : Nat) : Hub → Hub := onUnit fun x => { x with probeDue := some n }
/-- A trim of spoke 8 is under way. -/
def trims (left : Int) : Hub → Hub := Hub.modSpoke 8 fun x => { x with trimLeft := left, trimTotal := 4 }
/-- Records of spoke 8 have been lost. -/
def lossy : Hub → Hub := Hub.modSpoke 8 fun x => { x with loss := [(1, { count := 3, due := 100 })] }
/-- The trace writer of node 0 is to stop. -/
def stopAt (n : Nat) : Hub → Hub := Hub.modNode 0 fun x => { x with stopDue := some n }
/-- A run-control command, or a quench, of host 0 is under way. -/
def rcBusy : Hub → Hub := Hub.modMaster m0 fun x => { x with rcCmd := some 3 }
@[inherit_doc rcBusy] def quenchBusy : Hub → Hub := Hub.modMaster m0 fun x => { x with qchBusy := true }
/-- A shadow field. -/
def shadow (f : Fld) (i v : Nat) (h : Hub) : Hub :=
  h.setShadow f.reg i (BitVec.ofNat 64 (setBits (h.shadowReg f.reg i).toNat f.lo f.len v))

/-! ### Quench -/

/-- A quench request. -/
def quenchReq (m : Nat) : QuenchReq := { source := 3, unit := 7, mask := m }
/-- Quench requests wait at the root. -/
def asksQuench (l : List Nat) (h : Hub) : Hub := { h with quenchReqs := l.map quenchReq }
/-- A ramp of the rails of die 0 and die 8. -/
def chan0 : ChanRamp :=
  { node := 0, rails := [{ k := 0, clk := 160, start := 0 }, { k := 1, clk := 160, start := 0, target := 9 }], due := 100
    pace := 3, last := 0 }
/-- A ramp down or up of dies 0 and 8. -/
def ramp (settle : Option Nat) (up : Bool := false) : RampX := { up, began := 50, mask := 0x101, chans := [chan0], settleDue := settle }
/-- A ramp is under way. -/
def ramping (x : RampX) (h : Hub) : Hub := { h with ramps := h.ramps ++ [x] }
/-- The dividers of dies 0 and 8. -/
def notch (v : Nat) : Hub → Hub := Hub.setBlw F.BLW_RAIL_notch 8 v ∘ Hub.setBlw F.BLW_RAIL_notch 0 v
/-- The ballast of dies 0 and 8. -/
def ballast (v : Nat) : Hub → Hub := Hub.setBlw F.BLW_RAIL_code 8 v ∘ Hub.setBlw F.BLW_RAIL_code 0 v
/-- Dies are quenched. -/
def quenched (m : Nat) (h : Hub) : Hub := (h.put F.HRT_QCH_STATUS_dies_quenched 0 m).put F.HRT_STATE_quench_held 0 1
/-- A Reheat, and it under way. -/
def reheatX (m : Nat) (started : Option Nat) : ReheatX := { mask := m, accepted := 50, started }
@[inherit_doc reheatX] def reheats (m : Nat) (started : Option Nat) (ph : Nat) (h : Hub) : Hub :=
  Hub.put F.HRT_QCH_STATUS_reheat_phase 0 ph { h with reheat := some (reheatX m started) }

/-! ### Triggers, recipes, links, transactions -/

/-- A trigger's four words. -/
def entry (m e w0 w1 w2 w3 : Nat) (h : Hub) : Hub :=
  [w0, w1, w2, w3].zipIdx.foldl (fun h x =>
    h.setReg (trgWord m e x.2).reg (trgWord m e x.2).copy (BitVec.ofNat 64 x.1)) h
/-- What a trigger matrix has been offered. -/
def offered (m : Nat) (l : List (Nat × Offer)) (h : Hub) : Hub := { h with offers := aPut (fun _ => []) m l h.offers }
/-- A write of `n` bytes beside the start of the scratch. -/
def put (o n v : Nat) (h : Hub) : Hub := h.wr (scratch + o) n v
/-- A recipe image of two sections in the scratch. -/
def recipe (lvl magic : Nat) : Hub → Hub :=
  put 146 2 1 ∘ put 144 2 1 ∘ put 128 1 3 ∘ put 112 8 0x1122334455667788 ∘
  put 104 4 16 ∘ put 100 4 128 ∘ put 96 4 16 ∘ put 88 1 4 ∘
  put 80 4 16 ∘ put 76 4 112 ∘ put 72 4 16 ∘ put 64 1 1 ∘
  put 36 4 144 ∘ put 32 4 344 ∘ put 24 4 77 ∘ put 16 4 32 ∘ put 12 4 16 ∘ put 9 1 2 ∘ put 8 1 lvl ∘ put 7 1 7 ∘
  put 4 2 1 ∘ put 0 4 magic
/-- A recipe load, and it under way. -/
def loadOf (c l : Nat) : LoadX := { image := scratch, target := c, level := l }
@[inherit_doc loadOf] def loading (c l : Nat) (h : Hub) : Hub :=
  Hub.put F.HRT_RCP_STATUS_busy 0 1 { h with load := some (loadOf c l) }
/-- A link's state. -/
def linkX (l v : Nat) (b : Bool) (f : LinkX → LinkX) (h : Hub) : Hub :=
  ((h.lput F.BNK_LINK_state l v).setBanked l b).modLink l f
/-- Link 47 is to bank. -/
def bankAt (n : Nat) : Hub → Hub := linkX 47 2 false fun x => { x with bankDue := some n }
/-- Link 47 is banked, in state `v`, with words it has received. -/
def bankedX (v keep : Nat) (rx : List Word) (returning : Bool) : Hub → Hub :=
  linkX 47 v true fun x => { x with bankedAt := 100, keepDue := keep, rx, returning }
/-- An external trigger is held. -/
def xtrigTill (n : Nat) (h : Hub) : Hub := { h with xtrigUntil := n }
/-- A transaction of a master. -/
def txn (x : Nat) (m : Master) (v : Nat) (f : TxnX → TxnX) (h : Hub) : Hub :=
  (((h.put F.TXN_STATE_state x v).put F.TXN_OWNER_kind x m.kind).put F.TXN_OWNER_id x m.id).modTxn x f
/-- The spoke core has transaction 15 open. -/
def opened (f : TxnX → TxnX) : Hub → Hub :=
  cp F.STK_TXN_id 15 ∘ cp F.STK_TXN_open 1 ∘ txn 15 (.core sc) 1 f
/-- Staged writes of a transaction. -/
def staged (l : List Nat) : TxnX → TxnX := fun x => { x with acts := l.map fun a => .write a 5 }
/-- A transaction that ended. -/
def ended (n : Nat) : TxnX → TxnX := fun x => { x with endedAt := n }
/-- A commit instant. -/
def commitAt (x t : Nat) : Hub → Hub := Hub.put F.TXN_TIME_commit_time x t
/-- An ARM, and it waiting. -/
def armX (r : Reg) (v : Nat) (due : Option Nat) : ArmX := { due, vals := [(r.key 0, some (BitVec.ofNat 64 v))], cmds := [] }
@[inherit_doc armX] def armed (g : CfgGroup) (r : Reg) (v : Nat) (due : Option Nat) (h : Hub) : Hub :=
  Hub.setArm g (some (armX r v due)) (h.setShadow r 0 (BitVec.ofNat 64 v))

/-! ### Captures, jobs -/

/-- A capture plan in the scratch, of an SRAM region of two blocks and a scan region. -/
def plan (flags fallback : Nat) (regions : Nat := 2) : Hub → Hub :=
  put 96 1 1 ∘ put 98 2 unit8 ∘ put 80 8 8192 ∘ put 66 2 unit8 ∘
  put 24 8 99 ∘ put 16 4 0x100 ∘ put 14 2 fallback ∘ put 13 1 0xFF ∘ put 12 1 1 ∘ put 8 4 regions ∘ put 6 2 flags ∘
  put 4 2 1 ∘ put 0 4 0x4E4C5043
/-- A capture that h5 names is asked for. -/
def planned : State := st (gp 5 scratch ∘ unitIs 2 ∘ plan 0 0)
/-- It has been started. -/
def started1 : State := after [execCapt sc 7 5] planned
/-- It has its space. -/
def sized : State := after [execSizingDone 0] started1
/-- A capture whose plan has a fallback has its space. -/
def fallsBack : State := after [execCapt sc 7 5, execSizingDone 0] (st (gp 5 scratch ∘ plan 0 10))
/-- Four captures run. -/
def full : State := after (List.replicate 4 (execCapt sc 7 5)) planned
/-- Change every capture. -/
def onCaptures (f : CaptureX → CaptureX) : State → State :=
  onHub fun h => { h with captures := h.captures.map fun e => (e.1, f e.2) }
/-- The plan in the scratch is registered as number 63. -/
def registered : State → State := onHub fun h => { h with plans := [(63, h.readPlan scratch)] }
/-- The captures have ended with a status, or have an export. -/
def closedWith (n : Nat) : State → State := onCaptures fun x => { x with state := 4, status := n }
@[inherit_doc closedWith] def exporting : State → State := onCaptures fun x => { x with exports := 1 }
/-- Every region of a capture is finished, its blocks with status `n`. -/
def finished (n : Nat) : State → State :=
  onCaptures fun x => { x with plan := { x.plan with regions := x.plan.regions.map fun r =>
    { r with scanOk := true, blk := (List.range r.blocks).map fun i => (i, { status := n, size := 4 }) } } }
/-- Capture 4, a region of the capture in slot 0, and Swage job 0; a stand-in where there is none. -/
def captureOf (s : State) : CaptureX := (s.hub.capture 4).getD { slot := 0, plan := s.hub.readPlan scratch }
@[inherit_doc captureOf] def regionOf (s : State) (r : Nat) : RegionX :=
  ((s.hub.openRegion 0 r).map fun e => e.2.2).getD
    { kind := 0, coder := 0, unit := 0, dest := 0, off := 0, len := 0, blocks := 0 }
@[inherit_doc captureOf] def jobOf (s : State) : SwgJob :=
  (s.hub.job 0).getD { handle := 0, issuer := 0, desc := s.hub.readJob scratch }
/-- A Swage job in the scratch. -/
def swgDesc (op coder len chain limit : Nat) : Hub → Hub :=
  put 0x108 4 8192 ∘ put 0x100 8 (scratch + 0x10000) ∘ put 40 8 limit ∘ put 32 8 chain ∘ put 24 8 len ∘
  put 16 8 (scratch + 0x1000) ∘ put 7 1 coder ∘ put 6 1 op ∘ put 4 2 1 ∘ put 0 4 0x44475753
/-- A COMPRESS job that h5 names. -/
def jobAsked : State := st (gp 5 scratch ∘ swgDesc 0 1 8192 (scratch + 0x100) 0)
/-- It has been taken. -/
def jobTaken : State := after [execSwg sc 7 5] jobAsked
/-- Change every job. -/
def onJobs (f : SwgJob → SwgJob) : State → State :=
  onHub fun h => { h with swg := h.swg.map fun e => (e.1, f e.2) }
/-- An output buffer, and the job with it. -/
def bufX : SwgBuf := { desc := scratch + 0x100, addr := scratch + 0x10000, size := 8192, next := 0 }
@[inherit_doc bufX] def jobFills : State := onJobs (fun j => { j with bufs := [bufX] }) jobTaken

/-- The job is cancelled. -/
def jobCancelled : State := onJobs (fun j => { j with cancelled := true }) jobTaken
/-- Eight descriptors wait. -/
def jobFull : State := onJobs (fun j => { j with queue := List.replicate 8 5 }) jobTaken
/-- A job that checks 128 bytes, which begin with a STORED block of eight zeros. -/
def jobChecks : State :=
  onJobs (fun j => { j with desc := { j.desc with op := 2, source := scratch + 0x20000, length := 128 } })
    (onHub (put 0x20018 4 0x8C28B28A ∘ put 0x20004 2 8 ∘ put 0x20002 2 64 ∘ put 0x20000 1 1) jobTaken)

/-- A transfer of requester `r`. -/
def transfer (r : Nat) : Transfer := { req := r, dest := .here 4, beats := 40, resp := 0, trigger := false }
/-- Every output's quota window is the present one. -/
def windowsNow (h : Hub) : Hub := (List.range 88).foldl (fun h k => h.modOut k fun x => { x with window := 1000000 }) h

/-! ### Hang watch, recovery -/

/-- An entry of a wheel. -/
def inflight (q : Nat) (due : Option Nat := none) (ex : Bool := false) : Inflight :=
  { seq := q, cls := 1, queue := 3, engine := unit8, time := 900000, budget := some 5, due, expired := ex }
/-- The entries of a context. -/
def ctxOf (c : Nat) (l : List Inflight) : Hub → Hub := Hub.modCtx c fun x => { x with inflight := l }
/-- The watch mode of a context. -/
def watch (c m home : Nat) (h : Hub) : Hub :=
  h.put F.HWT_CTX_CFG_mode c m |>.put F.HWT_CTX_CFG_home c home |>.put F.HWT_CTX_CFG_budget_us c 77
/-- A sync object. -/
def obj (o : Nat) (x : ObjX) : Hub → Hub := Hub.modObj o fun _ => x
/-- A waiter of an object. -/
def waiter (c v : Nat) : Waiter := { ctx := c, unit := unit8, value := v, began := 5 }
/-- An analysis, and it wanted. -/
def analysisX (n : Nat) : Analysis := { trigger := n, dumps := [] }
@[inherit_doc analysisX] def wantsAnalysis (n : Nat) (h : Hub) : Hub := { h with wfg := { h.wfg with wanted := some (analysisX n) } }
/-- The step and the rest of a recovery lane. -/
def laneX (p step : Nat) (f : LaneX → LaneX) : Hub → Hub := fun h => (h.setStep p step).modLane p f

/-- What a lane waits for. -/
def drainFor (n : Nat) : LaneX → LaneX := fun x => { x with fenceOnly := true, drain := some (.runs n) }
@[inherit_doc drainFor] def holdFor (n : Nat) : LaneX → LaneX := fun x => { x with hold := some (.runs n), asked := true }
@[inherit_doc drainFor] def askedIt : LaneX → LaneX := fun x => { x with asked := true }
@[inherit_doc drainFor] def releaseAt (n : Nat) : LaneX → LaneX := fun x => { x with release := some n }
@[inherit_doc drainFor] def checkAt (n : Nat) : LaneX → LaneX := fun x => { x with check := some n }
@[inherit_doc drainFor] def limitAt (n : Nat) : LaneX → LaneX := fun x => { x with limit := some n }
@[inherit_doc drainFor] def trains (mem links : List (Nat × Nat)) : LaneX → LaneX := fun x => { x with mem, links }

/-! ### The ledger -/

/-- The ledger beside its registers. -/
def ledger (f : LedgerX → LedgerX) : Hub → Hub := Hub.modLedger f
/-- A batch whose entry stands in slot `e`. -/
def batch (e : Nat) : BatchX :=
  { start := 0, entry := e, count := 5, firstSeq := 1, lastHash := [1, 2], epoch := 3, lastSeq := 9, time := 55 }
/-- A closed tag. -/
def closedTag : ClosedX := { account := 5, tag := 6, acc := {}, at_ := 9 }

/-- The open batch has `n` records, and the batches that wait. -/
def records (n : Nat) (l : List BatchX) : Hub → Hub := ledger fun l' => { l' with openCount := n, batches := l }
/-- The chain has started, with a calibration window of `n` epochs. -/
def chainUp (n : Nat) : Hub → Hub := ledger fun l => { l with started := true, windowEpochs := n }
/-- The sums of a calibration window, and a solve of them under way. -/
def sums0 : SumsX := {}
@[inherit_doc sums0] def solving : Hub → Hub := ledger fun l => { l with solving := some (sums0, 5, 6) }
/-- Every closed tag's place is taken. -/
def tagsFull : Hub → Hub := ledger fun l => { l with closed := List.replicate 4096 closedTag }
/-- A coefficient set waits. -/
def coefsWait : Hub → Hub := ledger fun l => { l with loaded := some { values := [] } }

/-! ### Handover, update, ports, start-up -/

/-- A takeover is under way. -/
def takeover (phase : Nat) (h : Hub) : Hub :=
  { h.put F.HRT_FO_STATUS_phase 0 phase with failover := true, failoverAt := 5 }
/-- The handover instant, or the old Hearth's limit. -/
def handoverAt (n : Nat) (h : Hub) : Hub := { h with fail := { h.fail with handover := some n } }
@[inherit_doc handoverAt] def peerAt (n : Nat) (h : Hub) : Hub := { h with fail := { h.fail with peerDue := some n } }
/-- The stage that start-up shows. -/
def stageIs (n : Nat) : Hub → Hub := Hub.put F.HRT_BOOT_STATUS_stage 0 n
/-- A public key at `a`: the base point of P-384. -/
def keyAt (a : Nat) : Hub → Hub := fun h => h.setBytes a (bytesBE 48 p384G.x ++ bytesBE 48 p384G.y)
/-- The booted slot. -/
def booted (n : Nat) (h : Hub) : Hub := { h with boot := { h.boot with slot := some n } }
/-- The spokes still to be measured. -/
def recals (l : List Nat) (h : Hub) : Hub := { h with recal := l }
/-- A chip warm reset has been asked for. -/
def warmAsked (n : Nat) (h : Hub) : Hub := { h with warmReq := some n }
/-- The host path is healthy and the spill buffer valid. -/
def hostUp (h : Hub) : Hub := { h with hostPath := true }.put F.CRU_SPILL_valid 0 1
/-- The PCIe endpoint has been discovered. -/
def discovered : Hub → Hub := Hub.modEndpoint 1 fun x => { x with discovered := true, eid := 77 }
/-- A flash operation, and it in progress. -/
def updX (op slot off len : Nat) : UpdX := { op, slot, offset := off, length := len, src := scratch }
@[inherit_doc updX] def updates (op slot off len : Nat) (h : Hub) : Hub := { h with upd := some (updX op slot off len) }
/-- A map-out or map-in is in progress. -/
def maps (b : Bool) (g : Nat) (h : Hub) : Hub := { h with mapOp := some { mapIn := b, group := g } }
/-- How far an SPDM connection is. -/
def conn (ch : Chan) (n : Nat) (hs : Option Nat) : Hub → Hub := Hub.modConn ch fun x => { x with done := n, handshake := hs }
/-- A session's record, before those of higher numbers. -/
def session (n : Nat) (x : SessX) (h : Hub) : Hub := { h with sess := (n, x) :: h.sess }
/-- A session of a channel. -/
def sessX (ch : Chan) (phase : Nat) : SessX := { chan := ch, id := 77, phase, maxLevel := 3, lastAt := 50 }
/-- An open session. -/
def sessionOpen (n level : Nat) (ch : Chan) : Hub → Hub :=
  session n (sessX ch 3) ∘ Hub.put F.AUT_SESS_level n level ∘ Hub.put F.AUT_SESS_open n 1
/-- What a Vynuond link keeps. -/
def vlinkX (k : Nat) (f : VynX → VynX) : Hub → Hub := Hub.modVlink k f
/-- The Vynuond port is UP. -/
def vynUp : Hub → Hub :=
  vlinkX 0 fun x => { x with state := 3, version := 1, payload := 1, held := ⟨5, 5, 5⟩, given := ⟨5, 5, 5⟩ }
/-- A Vynuond link in a state, expecting sequence 65535, with one credit of each class given. -/
def vynAt (n : Nat) : Hub → Hub := vlinkX 0 fun x => { x with state := n, rxNext := 65535, given := ⟨1, 1, 1⟩ }
/-- A sent frame is kept. -/
def replays : Hub → Hub := vlinkX 0 fun x => { x with
  state := 3, replay := [{ frame := { cls := 0, seq := 65535, ack := 0, body := .nak 3 }, at_ := 5 }] }
/-- Every host session is taken. -/
def allTaken (ch : Chan) (h : Hub) : Hub := (List.range 16).foldl (fun h n => session n (sessX ch 3) h) h
/-- A frame's header. -/
def frameHdr (opcode seq length : Nat) (crc : Bool) : VynHdr :=
  { jtag := false, version := 1, opcode, cls := 0, more := false, length, seq, ack := 5, crcOk := crc }
/-- A sealed, closed capture, and it as capture 4. -/
def sealedX : CaptureX := { slot := 0, plan := planned.hub.readPlan scratch, state := 4, manifest := 4096 }
@[inherit_doc sealedX] def sealedCapture (h : Hub) : Hub := h.setCapture 4 sealedX
/-- An export of capture 4 by master `m`, with a destination or none, and it as export 0. -/
def exportOf (m : Master) (dest : Option (Nat × Nat)) (ready : Bool) (image : List Byte) (reads : List ReadX) : ExportX :=
  { capture := 4, owner := m, recipient := none, recode := false, verify := false, draw := 0, dest, ready, image, reads }
@[inherit_doc exportOf] def exportX (m : Master) (dest : Option (Nat × Nat)) (ready : Bool) (image : List Byte)
    (reads : List ReadX) (h : Hub) : Hub :=
  { h with exports := [(0, exportOf m dest ready image reads)] }
/-- Start-up stands at stage `n` with some stages finished. -/
def bootAt (n : Nat) (done : List Nat) (f : BootX → BootX) (h : Hub) : Hub :=
  { h.put F.HRT_BOOT_STATUS_stage 0 n with booting := true, boot := f { done } }
/-- A chip reset sequence, and it under way. -/
def seqX (release : Option Nat) (last : Bool) : SeqX := { began := 5, release, last }
@[inherit_doc seqX] def sequence (release : Option Nat) (last : Bool) (h : Hub) : Hub :=
  { h with seq := some (seqX release last), chipReset := some 5, booting := true
           boot := { done := [1, 2, 3, 4, 5, 6] } }
/-- The image of slot 1 has no entries. -/
def noEntries : Hub → Hub := fun h => h.wr (slotBase 1 + 12) 2 0
/-- What start-up has found. -/
def bootedAt (n : Nat) : BootX → BootX := fun x => { x with slot := some n }
@[inherit_doc bootedAt] def bootFailed : BootX → BootX := fun x => { x with failed := true }
/-- The phase of Ember mode. -/
def ember (n : Nat) (h : Hub) : Hub := (h.put F.HRT_EMBER_STATUS_phase 0 n).put F.HRT_STATE_ember 0 1

end Sys2Proof.Tests
end

