-- ==== Sys2Proof/Tests/Meets.lean ====
section
/-! SUPPORT. How a test shows that a state meets the terms of a statement: each term from a finite check of it. -/

namespace Sys2Proof.Tests

open Sys2Proof Sys2Proof.Machine

/-- The conditions of `Runs`, which a finite check decides. -/
theorem runs_of {s : State} {c : Nat} (h : coreOk c = true ∧ s.hub.ready c = true ∧ (s.hub.pc c).toNat < localSize c ∧
    s.hub.breakpointHit c (s.hub.pc c).toNat = false ∧ s.hub.cget F.STK_DBG_STATUS_steps_left c = 0 ∧
    (s.hub.core c).haltAsked = false ∧ ((s.hub.core c).wdogRaised = true → s.hub.cget F.STK_CAUSE_active c ≠ 0)) :
    Runs s c :=
  ⟨h.1, h.2.1, h.2.2.1, h.2.2.2.1, h.2.2.2.2.1, h.2.2.2.2.2.1, h.2.2.2.2.2.2⟩

/-- The conditions of `Admits`, which a finite check decides. -/
theorem admits_of {s : State} {m : Master} {l : Nat} (h : m.ok = true ∧ l ≤ s.hub.levelOf m ∧ s.hub.openTxn m = none ∧
    ∀ x, x < 16 → s.hub.get F.TXN_STATE_state x ≠ 3) : Admits s m l :=
  ⟨h.1, h.2.1, h.2.2.1, h.2.2.2⟩

/-- A hub that keeps nothing for any unit, with no command and no wait, is quiet. -/
theorem quiet_of {h : Hub} (e : h.cmds = [] ∧ h.wfg.objs = [] ∧ h.units = []) : h.Quiet := by
  refine ⟨e.1, e.2.1, fun u => ?_⟩
  unfold Hub.unit
  rw [e.2.2]
  exact ⟨rfl, rfl⟩

/-- A result is `v`, when a comparison of it with `v` says so. -/
theorem ok_of {ε α : Type} [DecidableEq α] {x : Except ε α} {v : α}
    (h : (match x with
      | .ok y => decide (y = v)
      | .error _ => false) = true) : x = .ok v := by
  cases x with
  | ok y => rw [of_decide_eq_true h]
  | error e => exact absurd h (by simp)

/-- A result is the error `v`, when a comparison of it with `v` says so. -/
theorem error_of {ε α : Type} [DecidableEq ε] {x : Except ε α} {v : ε}
    (h : (match x with
      | .ok _ => false
      | .error y => decide (y = v)) = true) : x = .error v := by
  cases x with
  | ok y => exact absurd h (by simp)
  | error e => rw [of_decide_eq_true h]

/-- A list does not begin with `n` when its head is not `n`. -/
theorem head_ne {l : List Nat} {n : Nat} (h : l.head? ≠ some n) : ∀ rest : List Nat, l ≠ n :: rest :=
  fun _ e => h (by rw [e]; rfl)

end Sys2Proof.Tests
end

