-- ==== Sys2Proof/Tests/Slice0.lean ====
section
/-! SUPPORT. Tests: words written out from the encodings of R101 to R106, one ill-formed command for each check, single
commands on small states, and the states that meet the terms of statements that Tests/Terms1 to 3 leave out. -/

namespace Sys2Proof.Tests

open Sys2Proof Sys2Proof.Machine

set_option Elab.async false

/-! ### Words of the instructions (R101, R105, R106) -/

theorem test_decode_arithmetic :
    decodeStriker sc 0x04000000 = some (.add sc 0 0 0) ∧ decodeStriker sc 0x0822FFFF = some (.addi sc 1 2 0xFFFF) ∧
    decodeStriker sc 0x10809815 = some (.ori sc 4 0 0x9815) ∧ decodeStriker sc 0x1822003F = some (.shli sc 1 2 63) ∧
    decodeStriker sc 0x20485815 = some (.lui sc 2 1 0x5815) := by decide
theorem test_decode_memory_and_flow :
    decodeStriker sc 0x28640008 = some (.ld sc 3 4 8) ∧ decodeStriker sc 0x50A6FFFF = some (.sb sc 5 6 0xFFFF) ∧
    decodeStriker sc 0x58220002 = some (.beq sc 1 2 2) ∧ decodeStriker sc 0x703FFFFF = some (.jal sc 1 0x1FFFFF) ∧
    decodeStriker sc 0x74220004 = some (.jalr sc 1 2 4) ∧ decodeStriker sc 0x80220008 = some (.hld sc 1 2 8) := by decide
theorem test_decode_special_and_access :
    decodeStriker sc 0xF8200010 = some (.sprr sc 1 0x10) ∧ decodeStriker sc 0xF8028010 = some (.sprw sc 0x10 2) ∧
    decodeStriker sc 0x90220018 = some (.peek sc 1 2 3) ∧ decodeStriker sc 0x98A6000B = some (.poke sc 5 6 1 true true) ∧
    decodeStriker sc 0xA0220003 = some (.halt sc 1 2 true true) ∧ decodeStriker sc 0xA8221800 = some (.step sc 1 2 3 false) := by
  decide
theorem test_decode_hub_instructions :
    decodeStriker sc 0xAC220000 = some (.quench sc 1 2) ∧ decodeStriker sc 0xC0221800 = some (.waitev sc 1 2 3) ∧
    decodeStriker sc 0xE0220000 = some (.capt sc 1 2) ∧ decodeStriker sc 0xEC221801 = some (.txc sc 1 2 3) ∧
    decodeStriker sc 0xF0221800 = some (.lck sc 1 2 3) ∧ decodeStriker sc 0xF4200003 = some (.lgrSeal sc 1) ∧
    decodeStriker sc 0xFC021802 = some (.send sc 2 3) := by decide
/-- R102: the all-zero word, LUI with hw 3, a shift with bit 6 set, and a field that the instruction does not use. -/
theorem test_decode_illegal :
    decodeStriker sc 0 = none ∧ decodeStriker sc 0x20585815 = none ∧ decodeStriker sc 0x18220040 = none ∧
    decodeStriker sc 0xF4210003 = none ∧ decodeStriker sc 0x0400000E = none := by decide

/-! ### Ill-formed commands -/

/-- A frame header with another frame's opcode. -/
def otherHdr : VynHdr := frameHdr 0x03 0 0 true

/-- An ill-formed command for each check on cores, units and masters, and on the parts of time, trace and run control. -/
theorem test_ill_formed_parts :
    [Instr.checkWord 32 0, .timStep (.core 0) 0, .timStep (.host 16) 0, .timStep (.sess 4) 0, .unitEvent 0xFFFF 0 none 0,
     .lossRecordTimer 40 0, .lossRecordTimer 0 7, .ringStop 8, .add 0 0 0 0, .handshakeSilence ⟨0xFFFF, 0⟩,
     .lckWaitLimit 256 m0, .lockAcquire m0 0 (2 ^ 32), .recipeLoad m0 (2 ^ 48) 0, .recipeLoad m0 0 65536,
     .slotTimerExpiry sc 64, .triggerEval 9, .rcCmdHalt m0 65536 false false, .rcCmdStep m0 0 false 65536,
     .qchCmdQuench m0 (2 ^ 32), .rampNotchStep 32, .linkBanked 48, .fabricLinkStateChange 0 6,
     .fabricLinkStateChange 0 4].all (fun i => !wellFormed i) = true := by decide
/-- The same for captures, the spine, the hang watch and the wait-for engine. -/
theorem test_ill_formed_captures :
    [Instr.planRegister m0 64 0, .planRegister m0 0 (2 ^ 48), .sizingDone 4, .blockCommit 0 0 0 [],
     .scanReadDone 0 ⟨0, 8⟩ true, .sramPortSilence 32 0, .captureCancel m0 65536, .swageBlock 8 0, .swageBlock 0 4,
     .swgChainAppend m0 0 (2 ^ 48), .arbiterDecision 8 0 [] [], .arbiterDecision 0 11 [] [],
     .arbiterDecision 0 0 [⟨48, .here 0, 1, 0, false⟩] [], .maxwaitRead m0 0 48, .cmdDispatchNotice 2048 0 0 0 unit8,
     .cmdDispatchNotice 0 (2 ^ 32) 0 0 unit8, .cmdDispatchNotice 0 0 16 0 unit8, .cmdDispatchNotice 0 0 0 256 unit8,
     .stepBegin 0 (2 ^ 32), .syncSignalReport 65536 0 false 0 unit8 false, .syncSignalReport 0 (2 ^ 32) false 0 unit8 false,
     .syncSignalReport 0 0 false 2048 unit8 false, .staleReread 0 0 [(2048, unit8, 0)], .wfgDump m0 1 0,
     .wfgDump m0 0 65536, .objDeclare m0 0 4 false 0].all (fun i => !wellFormed i) = true := by decide
/-- The same for recovery, the ledger, transactions, update, the ports and start-up. -/
theorem test_ill_formed_ports :
    [Instr.rcvRecover m0 8 0, .rcvRecover m0 0 16, .rcvUnitReset m0 65536, .selfRefreshConfirm 16,
     .memoryTrainDone 32 true [], .sampleBoundary [] [],
     .sampleBoundary (List.replicate 32 ⟨0, 0⟩) [.count 0xFFFF none 0 0], .pmbusCheck [],
     .pmbusCheck (List.replicate 8 (.values 0 256 0 0)), .pmbusStretchTimeout 8, .ldgTagCmd m0 0 (2 ^ 48),
     .txnCommit m0 16, .updErase m0 2 0 0, .updErase m0 0 (2 ^ 24) 0, .mapOut m0 64, .heartbeat 20,
     .spdmUnsupportedRequest .i3c 0x84, .vynLinkTrained 3, .hello otherHdr 0 0 ⟨0, 0, 0⟩, .autReq 0 0 8 false,
     .vynRead 0 0 8 (2 ^ 64) 0, .innerUnknown 0 0 0x20, .hostExport m0 65536 0 false false 0, .rcptRegister m0 8 0,
     .setEndpointId .i3c 256, .mctpUnsupportedCmd .i3c 1, .mctpDiscard .i3c 5, .entdaa 128, .setmrl 65536,
     .reqDoorbell 16 0, .jtagBypass 1, .sibOpen 0 32 0, .sibOpen 0 0 64, .registerWrite m0 (2 ^ 64) 0 0,
     .trimsStageDone [], .trimsStageDone (List.replicate 32 4095), .computeDieRelease [(0xFFFF, 0)] [],
     .computeDieRelease [(unit8, 7)] [], .computeDieRelease [] [0xFFFF], .powerDomainFault 119].all
      (fun i => !wellFormed i) = true := by decide

/-! ### Single commands -/

/-- R105: addition wraps. -/
theorem test_add_wraps : (after [exec (.add sc 7 5 6)] (st (gp 5 (2 ^ 64 - 1) ∘ gp 6 2))).hub.gpr sc 7 = 1 := by
  decide +kernel
/-- R105: MULH gives the high half of the signed product, here of -1 and 1. -/
theorem test_mulh_signed :
    (after [exec (.mulh sc 7 5 6)] (st (gp 5 (2 ^ 64 - 1) ∘ gp 6 1))).hub.gpr sc 7 = BitVec.ofNat 64 (2 ^ 64 - 1) := by
  decide +kernel
/-- R105: the worked address 0x0010_5815_0000. -/
theorem test_lui_builds_an_address :
    (after [exec (.lui sc 1 1 0x10), exec (.lui sc 2 0 0x5815), exec (.or sc 1 1 2)] (st id)).hub.gpr sc 1 =
      0x001058150000 := by decide +kernel
/-- R86: h0 reads zero. -/
theorem test_h0_discards : (after [exec (.addi sc 0 0 5)] (st id)).hub.gpr sc 0 = 0 := by decide +kernel
/-- R95, R97: a posted store reaches scratch when it completes. -/
theorem test_hst_posts :
    (after [exec (.hst sc 6 5 0)] (st (gp 5 scratch ∘ gp 6 77))).hub.rd scratch 8 = 0 ∧
    (after [exec (.hst sc 6 5 0), exec (.postedWriteComplete sc)] (st (gp 5 scratch ∘ gp 6 77))).hub.rd scratch 8 = 77 := by
  decide +kernel
/-- R174: a RUNNING unit asked to halt is HALT_PENDING, and HALTED when it answers. -/
theorem test_halt_and_ack :
    (after [exec (.rcCmdHalt m0 unit8 false false)] (st id)).hub.runState unit8 = .haltPending ∧
    (after [exec (.rcCmdHalt m0 unit8 false false), exec (.unitHaltAck unit8 false 0)] (st id)).hub.runState unit8 =
      .halted := by decide +kernel
/-- R58: a step moves Chip Time forward by its ticks. -/
theorem test_time_step : (after [exec (.timStep m0 4000)] (st id)).clk.chipTime = 1004000 := by decide +kernel
/-- R112: a reserved op code of a command register refuses the write. -/
theorem test_reserved_reason : ((after [exec (.rcvRecover m0 0 5)] (st id)).hub.master m0).wstat = .reserved := by
  decide +kernel
/-- The first command of a queue is carried out first. -/
theorem test_queue_is_fifo :
    (match step { st id with pending := [.timStep m0 4, .pllLock] } with
      | .next t => t.pending
      | _ => []) = [.pllLock] := by decide +kernel

/-! ### States that meet the terms of statements -/

/-- What an ARM of a group asks, and its three cases. -/
def armTerms (g : GroupId) (s d r : State) : Bool :=
  [s, d, r].all (fun s => !s.hub.armOff g && !s.hub.armWaits g) && !s.hub.groupDiffers g &&
    d.hub.groupDiffers g && d.hub.groupRefusal g == none && r.hub.groupDiffers g && (r.hub.groupRefusal g).isSome

theorem met_ArmsLatchTheShadow :
    Admits st m0 4 ∧
    armTerms (.pkg .wfg) st (st (shadow F.WFG_CFG_silence_ms 0 77)) (st (shadow F.WFG_CFG_silence_ms 0 0)) = true ∧
    armTerms (.trg 0) st (st (shadow F.TRG_ENTRY_word 1 256 ∘ shadow F.TRG_ENTRY_word 0 16720145 ∘
      shadow F.TRG_ENTRY_word 3 (4 + 65536))) (st (shadow F.TRG_ENTRY_word 4 255)) = true ∧
    armTerms (.spn 0) st (st (shadow F.SPN_QUOTA_urgent_beats 0 77)) (st (shadow F.SPN_QUOTA_urgent_beats 0 5000)) = true ∧
    armTerms .pat st (st (shadow F.PAT_DATA_data 5 77)) (st (shadow F.PAT_ADDR_mode 5 3)) = true :=
  ⟨admits_of (by decide +kernel), by decide +kernel, by decide +kernel, by decide +kernel, by decide +kernel⟩

theorem met_ExceptionsAreTaken_fetch :
    encodeStriker (.add sc 5 5 6) = some (sc, 77934592) ∧ coreOk sc = true ∧
    (let s := st (pc 0x10000)
     s.hub.ready sc = true ∧ localSize sc ≤ (s.hub.pc sc).toNat ∧ s.hub.cget F.STK_CAUSE_active sc = 0 ∧
     s.hub.cget F.STK_DBG_STATUS_steps_left sc = 0 ∧ (s.hub.core sc).haltAsked = false) ∧
    (st (waits (.fence 3))).hub.ready sc = false := by decide +kernel

/-- A scan region that a running capture reads needs its unit's segment. -/
theorem needs_segment {h : Hub} {e : Nat × CaptureX} {r : RegionX} (he : e ∈ h.captures) (hs : e.2.state = 2)
    (hr : r ∈ e.2.plan.regions) (ho : r.omitted = none) (hk : r.kind = 1) (hb : r.blk.length < r.blocks) :
    h.scanSegments.contains (dieOf r.unit * 64 + Config.scanSegment r.unit % 64) = true := by
  simp only [Hub.scanSegments, List.contains_iff_mem, List.mem_flatMap]
  refine ⟨e, he, ?_⟩
  rw [if_neg (by simp [hs])]
  exact List.mem_map.2 ⟨r, List.mem_filter.2 ⟨hr, by simp [ho, hk, hb]⟩, rfl⟩
theorem met_PortsAnswer_segment :
    19 < 20 ∧ dieOf (regionOf sized 1).unit < 32 ∧ Config.scanSegment (regionOf sized 1).unit % 64 < 64 ∧
    (onHub (sessionOpen 19 3 .vyn) sized).hub.flag F.AUT_SESS_open 19 = true ∧
    3 ≤ (onHub (sessionOpen 19 3 .vyn) sized).hub.get F.AUT_SESS_level 19 ∧
    (onHub (sessionOpen 19 3 .vyn) sized).hub.scanSegments.contains
      (dieOf (regionOf sized 1).unit * 64 + Config.scanSegment (regionOf sized 1).unit % 64) = true :=
  ⟨by decide, by decide +kernel, Nat.mod_lt _ (by decide), by decide +kernel, by decide +kernel,
    needs_segment (e := (4, captureOf sized)) (by decide +kernel) (by decide +kernel) (by decide +kernel)
      (by decide +kernel) (by decide +kernel) (by decide +kernel)⟩

theorem met_LinksAreBankedAndReturn_full :
    let s := st (bankedX 4 5 (List.replicate (Config.linkRxBuffer 47) 0) false)
    47 < 48 ∧ s.hub.linkState 47 = 4 ∧ Config.linkRxBuffer 47 ≤ (s.hub.link 47).rx.length := by
  refine ⟨by decide, by decide +kernel, ?_⟩
  show _ ≤ (List.replicate (Config.linkRxBuffer 47) (0 : Word)).length
  simp

theorem met_VynuondFramesAreReceived_replay :
    (st replays).hub.replayNext 65535 = some (0, 400005) ∧ (st vynUp).hub.replayNext 5 = none := by decide +kernel

/-- What a store gives is its default or one of its entries. -/
theorem aGet_default_or_mem {α : Type} (d : Nat → α) (k : Nat) (m : List (Nat × α)) :
    aGet d m k = d k ∨ ∃ e, e ∈ m ∧ e.2 = aGet d m k := by
  induction m with
  | nil => exact .inl rfl
  | cons x m ih =>
    unfold aGet at ih ⊢
    rw [aFind]
    by_cases e : x.1 = k
    · rw [if_pos e]
      exact .inr ⟨x, List.mem_cons_self, rfl⟩
    · rw [if_neg e]
      exact ih.imp id fun ⟨y, hy, h⟩ => ⟨y, List.mem_cons_of_mem _ hy, h⟩
theorem met_TheHearthIsHandedOver_nothing_held :
    let s := st (takeover 2 ∘ handoverAt 2000000)
    s.hub.handoverDue = some 2000000 ∧ (∀ c op, (s.hub.core c).wait ≠ .hearth op) ∧ s.hub.lanes = [] ∧
      (∀ p, p < 8 → s.hub.step p = 0) ∧ s.hub.heldNotices = [] ∧ s.hub.heldEvents = [] ∧ s.hub.heldJobs = [] := by
  refine ⟨by decide +kernel, fun c op e => ?_, by decide +kernel⟩
  have idle : ∀ e, e ∈ (st (takeover 2 ∘ handoverAt 2000000)).hub.cores → e.2.wait = .idle := by decide +kernel
  rcases aGet_default_or_mem (fun _ => ({} : CoreX)) c (st (takeover 2 ∘ handoverAt 2000000)).hub.cores with h | ⟨x, hx, h⟩
  · rw [Hub.core, h] at e; cases e
  · rw [Hub.core, ← h, idle x hx] at e; cases e

/-- A hub whose one object has `n` waits of one kind. -/
def waitsFor (n : Nat) (h : Hub) : Hub :=
  { h with wfg := { h.wfg with objs := [(5, { engine := some 7, waiters := List.replicate n (waiter 7 3) })] } }
theorem waits_waitsFor (n : Nat) (h : Hub) : ((waitsFor n h).modObj 5 fun x => { x with engine := some 7 }).waits.length = n := by
  have ne : ({ engine := some 7, waiters := List.replicate n (waiter 7 3) } : ObjX) ≠ {} := fun e => by
    simpa using congrArg ObjX.engine e
  have o : (waitsFor n h).obj 5 = { engine := some 7, waiters := List.replicate n (waiter 7 3) } := rfl
  unfold Hub.modObj
  rw [o]
  simp [Hub.waits, Hub.showWfg, waitsFor, aPut, aDrop, aInsert, ne]
theorem live_waitsFor (n : Nat) (h : Hub) : ((waitsFor n h).obj 5).live = (waitsFor n h).obj 5 := by
  have o : (waitsFor n h).obj 5 = { engine := some 7, waiters := List.replicate n (waiter 7 3) } := rfl
  rw [o]
  simp [ObjX.live, waiter]
theorem met_TheWaitForEngineKeepsItsObjects_full :
    5 < 65536 ∧ 9 < 2 ^ 32 ∧ 7 < 2048 ∧ unitOk unit8 = true ∧
      (st (waitsFor 8192)).hub.obj 5 = { engine := some 7, waiters := List.replicate 8192 (waiter 7 3) } ∧
      ((st (waitsFor 8192)).hub.obj 5).value < 3 ∧ ((st (waitsFor 8192)).hub.obj 5).live = (st (waitsFor 8192)).hub.obj 5 ∧
      8192 ≤ ((st (waitsFor 8192)).hub.modObj 5 fun x => { x with engine := some 7 }).waits.length := by
  exact ⟨by decide, by decide, by decide, by decide, rfl, by decide, live_waitsFor 8192 _,
    Nat.le_of_eq (waits_waitsFor 8192 _).symm⟩

theorem met_SwageJobs_check :
    let j := jobOf jobChecks
    j.cancelled = false ∧ j.desc.op = 2 ∧ ∃ d,
      decodeBlock (jobChecks.hub.bytes (j.desc.source + j.pos) (min 4160 (j.desc.length - j.pos))) = .ok d ∧
        j.pos + d.advance < j.desc.length := by
  refine ⟨by decide +kernel, by decide +kernel, ?_⟩
  refine ⟨_, ok_of (v := { data := List.replicate 8 0, advance := 64 }) (by decide +kernel), by decide +kernel⟩

/-! ### The whole machine -/

/-- A step answers a next state. -/
def answers (s : State) : Bool :=
  match step s with
  | .next _ => true
  | _ => false
/-- A state from which `i` comes next. -/
def queued (i : Instr) : State := { st with pending := [i] }
theorem met_ChipTimeNeverGoesBack :
    (queued (.timStep m0 4)).clk.started = true ∧ (queued (.timStep m0 4)).pending.head? ≠ some .coldReset ∧
    answers (queued (.timStep m0 4)) = true ∧ (queued (.timStep m0 4)).clk.chipTime < 2 ^ 64 ∧
    (queued (.timStep m0 4)).clk.phase < 1000000 ∧ movesTime .pllLossOfLock = false ∧
    answers (queued .pllLossOfLock) = true ∧ (queued .coldReset).pending.head? = some .coldReset ∧
    answers (queued .coldReset) = true ∧ answers st = true ∧ ∀ c, (st.hub.core c).posted = [] := by
  refine ⟨by decide +kernel, by decide +kernel, by decide +kernel, by decide +kernel, by decide +kernel, by decide +kernel,
    by decide +kernel, by decide +kernel, by decide +kernel, by decide +kernel, fun c => ?_⟩
  have none : ∀ e, e ∈ st.hub.cores → e.2.posted = [] := by decide +kernel
  rcases aGet_default_or_mem (fun _ => ({} : CoreX)) c st.hub.cores with h | ⟨x, hx, h⟩
  · rw [Hub.core, h]
  · rw [Hub.core, ← h, none x hx]
theorem met_StepRunsFrontCommand : st.pending = [] := rfl
theorem met_CanonicalFormKept : st.Canonical ∧ answers (queued (.timStep m0 4)) = true := by
  unfold State.Canonical
  decide +kernel
theorem met_StrikerWordsRoundTrip :
    encodeStriker (.add sc 5 5 6) = some (sc, 77934592) ∧ 77934592 < 2 ^ 32 ∧
    decodeStriker sc 77934592 = some (.add sc 5 5 6) ∧ bits 0x20585815 26 6 = 8 ∧ bits 0x20585815 19 2 = 3 := by decide
theorem met_WellFormedCommandsRun : wellFormed (.timStep m0 4) = true := by decide

end Sys2Proof.Tests
end

