-- ==== Sys2Proof/Tests/Terms1.lean ====
section
/-! SUPPORT. Tests: for each case of the statements named here, a state and operands that meet its terms (part 1 of 3). -/

namespace Sys2Proof.Tests

open Sys2Proof Sys2Proof.Machine

set_option Elab.async false

theorem met_AluResults :
    (Runs (st (gp 5 (2 ^ 64 - 1) ∘ gp 6 70)) sc ∧ 2#2 ≠ 3) ∧
    (Runs (st (gp 5 (2 ^ 64 - 1) ∘ gp 6 70)) sc ∧ 3#2 = 3 ∧ (st (gp 5 (2 ^ 64 - 1) ∘ gp 6 70)).hub.cget
      F.STK_CAUSE_active sc = 0) :=
  ⟨⟨runs_of (by decide +kernel), by decide +kernel⟩, ⟨runs_of (by decide +kernel), by decide +kernel⟩⟩

theorem met_BellowsSteps :
    (8 < 32 ∧ (∃ x, x ∈ (st (ramping (ramp none))).hub.stepOf false 8 ∧ True)) ∧
    (8 < 32 ∧ (∃ x, x ∈ (st (ramping (ramp none) ∘ notch 16 ∘ ballast 11)).hub.stepOf true 8 ∧ (st (ramping (ramp
      none) ∘ notch 16 ∘ ballast 11)).hub.blw F.BLW_RAIL_code 8 < 255)) ∧
    (0 < 32 ∧ (st (gp 5 (2 ^ 32 - 1))).hub.stepOf false 0 = none) ∧
    (0 < 32 ∧ (st (gp 5 (2 ^ 32 - 1))).hub.stepOf true 0 = none) ∧
    ((st (ramping (ramp (some 2000000)) ∘ notch 16 ∘ ballast 9)).hub.settling = some (ramp (some 2000000), 2000000)) ∧
    ((st (gp 5 (2 ^ 32 - 1))).hub.settling = none) :=
  ⟨by decide +kernel, by decide +kernel, by decide +kernel, by decide +kernel, by decide +kernel, by decide +kernel⟩

theorem met_BranchesAndJumps :
    (Runs (st (pc 8 ∘ gp 5 65532 ∘ gp 6 65532)) sc ∧ ((st (pc 8 ∘ gp 5 65532 ∘ gp 6 65532)).hub.core sc).exitArmed =
      false) ∧
    (Runs (st (exits ∘ pc 64)) sc ∧ ((st (exits ∘ pc 64)).hub.core sc).exitArmed = true) :=
  ⟨⟨runs_of (by decide +kernel), by decide +kernel⟩, ⟨runs_of (by decide +kernel), by decide +kernel⟩⟩

theorem met_CapturesEnd :
    (0 < 4 ∧ (finished 0 sized).hub.slotCapture 0 = some (4, captureOf (finished 0 sized)) ∧ (finished 0
      sized).hub.capture 4 = some (captureOf (finished 0 sized)) ∧ (captureOf (finished 0 sized)).state = 2 ∧
      (captureOf (finished 0 sized)).cancelled = false ∧ (∀ (r : RegionX), r ∈ (captureOf (finished 0
      sized)).plan.regions → r.finished = true ∧ r.keptBlocks = []) ∧ (∀ (p : Nat), p < 8 → (finished 0
      sized).hub.step p ≠ 3) ∧ (finished 0 sized).hub.mapOp = none) ∧
    (3 < 4 ∧ (finished 0 sized).hub.slotCapture 3 = none) ∧
    (Admits (finished 0 sized) m0 3 ∧ 0 < 65536 ∧ (finished 0 sized).hub.capture 0 = none) ∧
    (Admits (onHub sealedCapture planned) m0 3 ∧ 4 < 65536 ∧ (∃ x, x ∈ (onHub sealedCapture planned).hub.capture 4 ∧
      x.state = 4)) ∧
    (Admits (finished 0 sized) m0 3 ∧ 4 < 65536 ∧ (∃ x, x ∈ (finished 0 sized).hub.capture 4 ∧ x.state ≠ 4)) ∧
    (Admits (onHub sealedCapture planned) m0 3 ∧ 4 < 65536 ∧ (∃ x, x ∈ (onHub sealedCapture planned).hub.capture 4 ∧
      x.state = 4 ∧ x.exports = 0)) ∧
    (Admits (exporting (onHub sealedCapture planned)) m0 3 ∧ 4 < 65536 ∧ (∃ x, x ∈ (exporting (onHub sealedCapture
      planned)).hub.capture 4 ∧ x.state = 4 ∧ x.exports ≠ 0)) :=
  ⟨by decide +kernel, by decide +kernel, ⟨admits_of (by decide +kernel), by decide +kernel⟩, ⟨admits_of
    (by decide +kernel), by decide +kernel⟩, ⟨admits_of (by decide +kernel), by decide +kernel⟩, ⟨admits_of
    (by decide +kernel), by decide +kernel⟩, ⟨admits_of (by decide +kernel), by decide +kernel⟩⟩

theorem met_CapturesRead :
    (0 < 4 ∧ sized.hub.openRegion 0 4 = none ∧ (List.replicate 4096 0).length = 4096) ∧
    (0 < 4 ∧ sized.hub.openRegion 0 4 = none ∧ 0 < 8) ∧
    (0 < 4 ∧ started1.hub.slotCapture 0 = some (4, captureOf started1) ∧ (captureOf started1).state = 1 ∧
      started1.hub.get F.HRT_EMBER_STATUS_phase = 0 ∧ (∃ h', h' ∈ Hub.placeCapture 4 started1.hub ∧ True)) ∧
    (0 < 4 ∧ (onHub (pf F.CRU_GROUPS_mapped_in 0) started1).hub.slotCapture 0 = some (4, captureOf started1) ∧
      (captureOf started1).state = 1 ∧ (onHub (pf F.CRU_GROUPS_mapped_in 0) started1).hub.get F.HRT_EMBER_STATUS_phase
      = 0 ∧ Hub.placeCapture 4 (onHub (pf F.CRU_GROUPS_mapped_in 0) started1).hub = none ∧ (∀ (p : Nat), p < 8 →
      (onHub (pf F.CRU_GROUPS_mapped_in 0) started1).hub.step p ≠ 3) ∧ (onHub (pf F.CRU_GROUPS_mapped_in 0)
      started1).hub.mapOp = none ∧ (onHub (pf F.CRU_GROUPS_mapped_in 0) started1).hub.capture 4 = some (captureOf
      started1)) ∧
    (0 < 4 ∧ sized.hub.openRegion 0 0 = some (4, captureOf sized, regionOf sized 0) ∧ sized.hub.capture 4 = some
      (captureOf sized) ∧ (0 < (regionOf sized 0).blocks ∧ aFind 0 (regionOf sized 0).blk = none ∧ sized.hub.mayRead 4
      (regionOf sized 0).spoke ((captureOf sized).scans (regionOf sized 0) 0) (regionOf sized 0) = true ∧
      sized.hub.baseWaits 4 (regionOf sized 0) = false ∧ (captureOf sized).scanWaits (regionOf sized 0) 0 = false) ∧
      (2 ≤ (regionOf sized 0).kind ∨ (List.replicate 4096 0).length = 4096)) ∧
    (0 < 4 ∧ sized.hub.openRegion 0 0 = some (4, captureOf sized, regionOf sized 0) ∧ sized.hub.capture 4 = some
      (captureOf sized) ∧ (0 < (regionOf sized 0).blocks ∧ aFind 0 (regionOf sized 0).blk = none ∧ sized.hub.mayRead 4
      (regionOf sized 0).spoke ((captureOf sized).scans (regionOf sized 0) 0) (regionOf sized 0) = true ∧
      sized.hub.baseWaits 4 (regionOf sized 0) = false ∧ (captureOf sized).scanWaits (regionOf sized 0) 0 = false) ∧
      (List.replicate 4096 0).length = 4096 ∧ (regionOf sized 0).kind = 0 ∧ (regionOf sized 0).predictive = false ∧
      (regionOf sized 0).target = 0 ∧ (regionOf sized 0).area = [(4295098368, 65536)] ∧ 4096 * (0 + 1) ≤ 65536 ∧
      sized.hub.spokeOn (dieOf (regionOf sized 0).unit) = true) ∧
    (0 < 4 ∧ sized.hub.openRegion 0 1 = some (4, captureOf sized, regionOf sized 1) ∧ sized.hub.capture 4 = some
      (captureOf sized) ∧ 0 < 8 ∧ (regionOf sized 1).kind = 1 ∧ (regionOf sized 1).scanOk = false ∧
      sized.hub.regionBarred (regionOf sized 1) = none ∧ (regionOf sized 1).retried.contains 0 = false) ∧
    (0 < 4 ∧ sized.hub.openRegion 0 0 = some (4, captureOf sized, regionOf sized 0) ∧ sized.hub.capture 4 = some
      (captureOf sized) ∧ (regionOf sized 0).kind = 0 ∧ 0 < (regionOf sized 0).blocks ∧ aFind 0 (regionOf sized 0).blk
      = none) ∧
    (8 < 32 ∧ 0 < 8 ∧ (4, captureOf sized) ∈ sized.hub.captures ∧ (captureOf sized).state = 2 ∧ regionOf sized 0 ∈
      (captureOf sized).plan.regions ∧ (regionOf sized 0).kind = 0 ∧ 0 ∈ (regionOf sized 0).unread ∧ (regionOf sized
      0).bank 0 = (8, 0)) ∧
    (0 < 4 ∧ fallsBack.hub.fallbackDue 0 = some 41000000) :=
  ⟨by decide +kernel, by decide +kernel, by decide +kernel, by decide +kernel, by decide +kernel, by decide +kernel,
    by decide +kernel, by decide +kernel, by decide +kernel, by decide +kernel⟩

theorem met_CapturesStart :
    (Runs planned sc ∧ 5 ≠ statusReg ∧ planned.hub.failover = false ∧ planned.hub.checkPlan (BitVec.toNat
      (planned.hub.gpr sc 5)) (planned.hub.coreLevel sc) = Except.ok (planned.hub.readPlan scratch) ∧
      planned.hub.captureRefusal (planned.hub.readPlan scratch) = none) ∧
    (Runs full sc ∧ 5 ≠ statusReg ∧ full.hub.failover = false ∧ full.hub.checkPlan (BitVec.toNat (full.hub.gpr sc 5))
      (full.hub.coreLevel sc) = Except.ok (planned.hub.readPlan scratch) ∧ full.hub.captureRefusal
      (planned.hub.readPlan scratch) = some Status.busy) ∧
    (Runs planned sc ∧ 5 ≠ statusReg ∧ planned.hub.failover = false ∧ planned.hub.checkPlan (BitVec.toNat
      (planned.hub.gpr sc 0)) (planned.hub.coreLevel sc) = Except.error Status.unmapped) ∧
    (Runs (onHub (gp 5 4 ∘ sealedCapture) planned) sc ∧ 5 ≠ statusReg ∧ BitVec.toNat ((onHub (gp 5 4 ∘ sealedCapture)
      planned).hub.gpr sc 5) < 65536 ∧ (onHub (gp 5 4 ∘ sealedCapture) planned).hub.jobOutcome (BitVec.toNat ((onHub
      (gp 5 4 ∘ sealedCapture) planned).hub.gpr sc 5)) = some (Status.ok, 4096, true)) ∧
    (Runs planned sc ∧ 5 ≠ statusReg ∧ BitVec.toNat (planned.hub.gpr sc 0) < 65536 ∧ planned.hub.jobOutcome
      (BitVec.toNat (planned.hub.gpr sc 0)) = some (Status.noUnit, 0, false)) ∧
    (Runs (onHub (gp 5 4) started1) sc ∧ 5 ≠ statusReg ∧ BitVec.toNat ((onHub (gp 5 4) started1).hub.gpr sc 5) < 65536
      ∧ (onHub (gp 5 4) started1).hub.jobOutcome (BitVec.toNat ((onHub (gp 5 4) started1).hub.gpr sc 5)) = none ∧
      (BitVec.toNat ((onHub (gp 5 4) started1).hub.gpr sc 0) = 0 ∨ (onHub (gp 5 4) started1).clk.chipTime ≤
      BitVec.toNat ((onHub (gp 5 4) started1).hub.gpr sc 0))) ∧
    (Runs (onHub (gp 5 4) started1) sc ∧ 5 ≠ statusReg ∧ BitVec.toNat ((onHub (gp 5 4) started1).hub.gpr sc 5) < 65536
      ∧ (onHub (gp 5 4) started1).hub.jobOutcome (BitVec.toNat ((onHub (gp 5 4) started1).hub.gpr sc 5)) = none ∧ 0 <
      BitVec.toNat ((onHub (gp 5 4) started1).hub.gpr sc 5) ∧ BitVec.toNat ((onHub (gp 5 4) started1).hub.gpr sc 5) <
      (onHub (gp 5 4) started1).clk.chipTime) ∧
    (Runs planned sc ∧ 5 ≠ statusReg ∧ 65536 ≤ BitVec.toNat (planned.hub.gpr sc 5)) ∧
    (63 < 64 ∧ scratch < 2 ^ 48 ∧ Admits planned m0 3 ∧ inScratch scratch 64 = true ∧ scratch % 8 = 0 ∧
      planned.hub.checkPlan scratch (planned.hub.levelOf m0) = Except.ok (planned.hub.readPlan scratch)) ∧
    (63 < 64 ∧ 1082130368 < 2 ^ 48 ∧ Admits planned m0 3 ∧ inScratch 1082130368 64 = true ∧ 1082130368 % 8 = 0 ∧
      planned.hub.checkPlan 1082130368 (planned.hub.levelOf m0) = Except.error Status.reserved) ∧
    (63 < 64 ∧ Admits planned m0 3 ∧ aFind 63 planned.hub.plans = none) ∧
    (63 < 64 ∧ Admits (registered full) m0 3 ∧ aFind 63 (registered full).hub.plans = some (planned.hub.readPlan
      scratch) ∧ (registered full).hub.captureRefusal (planned.hub.readPlan scratch) = some Status.busy) :=
  ⟨⟨runs_of (by decide +kernel), by decide +kernel, by decide +kernel, ok_of (by decide +kernel), by decide +kernel⟩,
    ⟨runs_of (by decide +kernel), by decide +kernel, by decide +kernel, ok_of (by decide +kernel), by decide +kernel⟩,
    ⟨runs_of (by decide +kernel), by decide +kernel, by decide +kernel, error_of (by decide +kernel)⟩, ⟨runs_of
    (by decide +kernel), by decide +kernel⟩, ⟨runs_of (by decide +kernel), by decide +kernel⟩, ⟨runs_of
    (by decide +kernel), by decide +kernel⟩, ⟨runs_of (by decide +kernel), by decide +kernel⟩, ⟨runs_of
    (by decide +kernel), by decide +kernel⟩, ⟨by decide +kernel, by decide +kernel, admits_of (by decide +kernel),
    by decide +kernel, by decide +kernel, ok_of (by decide +kernel)⟩, ⟨by decide +kernel, by decide +kernel, admits_of
    (by decide +kernel), by decide +kernel, by decide +kernel, error_of (by decide +kernel)⟩, ⟨by decide +kernel,
    admits_of (by decide +kernel), by decide +kernel⟩, ⟨by decide +kernel, admits_of (by decide +kernel),
    by decide +kernel⟩⟩

theorem met_ChipTimeStartsAndFreeRuns :
    (notStarted.hub.powered = true ∧ notStarted.clk.started = false) ∧
    (st.hub.powered = true ∧ st.clk.started = true) ∧
    (notStarted.hub.get F.TIM_STATUS_pll_locked = 1) :=
  ⟨by decide +kernel, by decide +kernel, by decide +kernel⟩

theorem met_DebuggersControlCores :
    (Admits (st (debugged m0)) (Master.core hc) 3 ∧ coreOk sc = true ∧ bits ((st (debugged m0)).hub.dbgCtl sc) 1 3 = 0
      ∧ (st (debugged m0)).hub.attached sc = true ∧ (st (debugged m0)).hub.debugOwner sc (Master.core hc) = false ∧ 0
      < sc ∧ sc < 65536) ∧
    (Admits st m0 3 ∧ coreOk sc = true ∧ bits (st.hub.dbgCtl sc) 1 3 = 0 ∧ st.hub.attached sc = false) ∧
    (Admits (st (debugged m0)) m0 3 ∧ coreOk sc = true ∧ bits ((st (debugged m0)).hub.dbgCtl sc) 1 3 = 0 ∧ (st
      (debugged m0)).hub.debugOwner sc m0 = true ∧ (st (debugged m0)).hub.coreState sc = 0 ∧ ((st (debugged
      m0)).hub.core sc).wait = Wait.idle) ∧
    (Admits (st (debugged m0)) m0 3 ∧ coreOk sc = true ∧ bits ((st (debugged m0)).hub.dbgCtl sc) 1 3 = 0 ∧ (st
      (debugged m0)).hub.debugOwner sc m0 = true ∧ (st (debugged m0)).hub.coreState sc ≠ 1 ∧ 0 < sc ∧ sc < 65536) ∧
    (Admits (st (debugged m0 ∘ cp F.STK_DBG_STATUS_core_state 1)) m0 3 ∧ coreOk sc = true ∧ bits ((st (debugged m0 ∘
      cp F.STK_DBG_STATUS_core_state 1)).hub.dbgCtl sc) 1 3 = 0 ∧ (st (debugged m0 ∘ cp F.STK_DBG_STATUS_core_state
      1)).hub.debugOwner sc m0 = true ∧ (st (debugged m0 ∘ cp F.STK_DBG_STATUS_core_state 1)).hub.coreState sc = 1 ∧ 0
      < sc ∧ sc < 65536) ∧
    (coreOk sc = true ∧ Admits (Tests.st (cp F.STK_DBG_LADDR_addr 8192)) m0 3 ∧ ((Tests.st (cp F.STK_DBG_LADDR_addr
      8192)).hub.ldataRefusal sc = some Status.unmapped ∨ (Tests.st (cp F.STK_DBG_LADDR_addr 8192)).hub.ldataRefusal
      sc = none ∧ (Tests.st (cp F.STK_DBG_LADDR_addr 8192)).hub.ldataState sc = some Status.unmapped)) ∧
    (coreOk sc = true ∧ Admits st m0 3 ∧ st.hub.ldataRefusal sc = none ∧ st.hub.ldataState sc = none) ∧
    (coreOk sc = true ∧ m0.ok = true ∧ 2 ≤ st.hub.levelOf m0 ∧ st.hub.ldataRefusal sc = none ∧ st.hub.ldataState sc =
      none) :=
  ⟨⟨admits_of (by decide +kernel), by decide +kernel⟩, ⟨admits_of (by decide +kernel), by decide +kernel⟩, ⟨admits_of
    (by decide +kernel), by decide +kernel⟩, ⟨admits_of (by decide +kernel), by decide +kernel⟩, ⟨admits_of
    (by decide +kernel), by decide +kernel⟩, ⟨by decide +kernel, admits_of (by decide +kernel), by decide +kernel⟩,
    ⟨by decide +kernel, admits_of (by decide +kernel), by decide +kernel⟩, by decide +kernel⟩

theorem met_ExceptionsAreTaken :
    (Runs st sc ∧ st.hub.attached sc = false ∧ st.hub.cget F.STK_CAUSE_active sc = 0) ∧
    (Runs (st (cp F.STK_CAUSE_active 1)) sc ∧ (st (cp F.STK_CAUSE_active 1)).hub.attached sc = false ∧ (st (cp
      F.STK_CAUSE_active 1)).hub.cget F.STK_CAUSE_active sc = 1) ∧
    (coreOk sc = true) :=
  ⟨⟨runs_of (by decide +kernel), by decide +kernel⟩, ⟨runs_of (by decide +kernel), by decide +kernel⟩,
    by decide +kernel⟩

theorem met_ExportsDeliverDumps :
    (15 < 20 ∧ (onHub (sessionOpen 15 4 (Chan.pcie 8) ∘ sealedCapture) planned).hub.served 15 = true ∧ 4 ≤ 15) ∧
    (15 < 20 ∧ (onHub (sessionOpen 15 4 (Chan.pcie 8) ∘ sealedCapture) planned).hub.served 15 = true ∧ 3 < 4 ∧
      (Hub.hears (onHub (sessionOpen 15 4 (Chan.pcie 8) ∘ sealedCapture) planned).clk.chipTime 15 (onHub (sessionOpen
      15 4 (Chan.pcie 8) ∘ sealedCapture) planned).hub).openRefusal (sessionMaster 15) 15 15 = Except.error
      Status.reserved ∧ Status.reserved ≠ Status.auth) ∧
    (15 < 20 ∧ (onHub (sessionOpen 15 4 (Chan.pcie 8) ∘ sealedCapture) planned).hub.served 15 = true ∧ 3 < 4 ∧
      (Hub.hears (onHub (sessionOpen 15 4 (Chan.pcie 8) ∘ sealedCapture) planned).clk.chipTime 15 (onHub (sessionOpen
      15 4 (Chan.pcie 8) ∘ sealedCapture) planned).hub).openRefusal (sessionMaster 15) 4 254 = Except.ok (sealedX,
      none, 0)) ∧
    (15 < 20 ∧ (onHub (sessionOpen 15 4 (Chan.pcie 8) ∘ sealedCapture) planned).hub.served 15 = true ∧ (Hub.hears
      (onHub (sessionOpen 15 4 (Chan.pcie 8) ∘ sealedCapture) planned).clk.chipTime 15 (onHub (sessionOpen 15 4
      (Chan.pcie 8) ∘ sealedCapture) planned).hub).exportOf 15 15 = none) ∧
    (15 < 20 ∧ (onHub (exportX (Master.host 15) none true (List.replicate 9 1) [ReadX.mk 7 0 9, ReadX.mk 8 0 4] ∘
      sessionOpen 15 4 (Chan.pcie 8) ∘ sealedCapture) planned).hub.served 15 = true ∧ (∃ e, e ∈ (Hub.hears (onHub
      (exportX (Master.host 15) none true (List.replicate 9 1) [ReadX.mk 7 0 9, ReadX.mk 8 0 4] ∘ sessionOpen 15 4
      (Chan.pcie 8) ∘ sealedCapture) planned).clk.chipTime 15 (onHub (exportX (Master.host 15) none true
      (List.replicate 9 1) [ReadX.mk 7 0 9, ReadX.mk 8 0 4] ∘ sessionOpen 15 4 (Chan.pcie 8) ∘ sealedCapture)
      planned).hub).exportOf 15 0 ∧ e.ready = true ∧ 4 + 4 ≤ e.image.length)) ∧
    (15 < 20 ∧ (onHub (exportX (Master.host 15) none false [] [] ∘ sessionOpen 15 4 (Chan.pcie 8) ∘ sealedCapture)
      planned).hub.served 15 = true ∧ ((Hub.hears (onHub (exportX (Master.host 15) none false [] [] ∘ sessionOpen 15 4
      (Chan.pcie 8) ∘ sealedCapture) planned).clk.chipTime 15 (onHub (exportX (Master.host 15) none false [] [] ∘
      sessionOpen 15 4 (Chan.pcie 8) ∘ sealedCapture) planned).hub).exportOf 15 0).isSome = true) ∧
    ((onHub (sessionOpen 15 4 (Chan.pcie 8) ∘ sealedCapture) planned).hub.export_ 15 = none) ∧
    ((onHub (exportX (Master.host 15) none false [] [] ∘ sessionOpen 15 4 (Chan.pcie 8) ∘ sealedCapture)
      planned).hub.export_ 0 = some (exportOf (Master.host 15) none false [] []) ∧ (exportOf (Master.host 15) none
      false [] []).ready = false ∧ (exportOf (Master.host 15) none false [] []).dest = none ∧ (onHub (exportX
      (Master.host 15) none false [] [] ∘ sessionOpen 15 4 (Chan.pcie 8) ∘ sealedCapture) planned).hub.failover =
      false ∧ (onHub (exportX (Master.host 15) none false [] [] ∘ sessionOpen 15 4 (Chan.pcie 8) ∘ sealedCapture)
      planned).hub.get F.HRT_EMBER_STATUS_phase = 0 ∧ (onHub (exportX (Master.host 15) none false [] [] ∘ sessionOpen
      15 4 (Chan.pcie 8) ∘ sealedCapture) planned).hub.capture (exportOf (Master.host 15) none false [] []).capture =
      some sealedX) ∧
    ((onHub (exportX (Master.host 15) none true (List.replicate 9 1) [ReadX.mk 7 0 9, ReadX.mk 8 0 4] ∘ sessionOpen 15
      4 (Chan.pcie 8) ∘ sealedCapture) planned).hub.export_ 0 = some (exportOf (Master.host 15) none true
      (List.replicate 9 1) [ReadX.mk 7 0 9, ReadX.mk 8 0 4]) ∧ (exportOf (Master.host 15) none true (List.replicate 9
      1) [ReadX.mk 7 0 9, ReadX.mk 8 0 4]).reads = [ReadX.mk 7 0 9, ReadX.mk 8 0 4] ∧ (onHub (exportX (Master.host 15)
      none true (List.replicate 9 1) [ReadX.mk 7 0 9, ReadX.mk 8 0 4] ∘ sessionOpen 15 4 (Chan.pcie 8) ∘
      sealedCapture) planned).hub.failover = false ∧ (onHub (exportX (Master.host 15) none true (List.replicate 9 1)
      [ReadX.mk 7 0 9, ReadX.mk 8 0 4] ∘ sessionOpen 15 4 (Chan.pcie 8) ∘ sealedCapture) planned).hub.session
      (masterSession (exportOf (Master.host 15) none true (List.replicate 9 1) [ReadX.mk 7 0 9, ReadX.mk 8 0
      4]).owner) = some (sessX (Chan.pcie 8) 3) ∧ chanLink (sessX (Chan.pcie 8) 3).chan = none) ∧
    ((onHub (exportX m0 (some (4096, 9)) true (List.replicate 9 1) [] ∘ sealedCapture ∘ hostUp) planned).hub.export_ 0
      = some (exportOf m0 (some (4096, 9)) true (List.replicate 9 1) []) ∧ (exportOf m0 (some (4096, 9)) true
      (List.replicate 9 1) []).dest = some (4096, 9) ∧ (exportOf m0 (some (4096, 9)) true (List.replicate 9 1)
      []).ready = true ∧ (onHub (exportX m0 (some (4096, 9)) true (List.replicate 9 1) [] ∘ sealedCapture ∘ hostUp)
      planned).hub.failover = false ∧ (onHub (exportX m0 (some (4096, 9)) true (List.replicate 9 1) [] ∘ sealedCapture
      ∘ hostUp) planned).hub.hostHealthy = true) ∧
    (Admits (onHub (sessionOpen 15 4 (Chan.pcie 8) ∘ sealedCapture) planned) m0 3 ∧ 15 < 2 ^ 16 ∧ 15 < 2 ^ 8 ∧ 15 < 2
      ^ 32 ∧ 8 ≤ 15 ∧ 15 < 254) ∧
    (Admits (onHub (sessionOpen 15 4 (Chan.pcie 8) ∘ sealedCapture) planned) m0 3 ∧ 15 < 2 ^ 16 ∧ 4 < 2 ^ 8 ∧ 15 < 2 ^
      32 ∧ (4 < 8 ∨ 254 ≤ 4) ∧ (onHub (sessionOpen 15 4 (Chan.pcie 8) ∘ sealedCapture) planned).hub.openRefusal m0 15
      4 = Except.error Status.noUnit ∧ Status.noUnit ≠ Status.auth) ∧
    (Admits (onHub (sessionOpen 15 4 (Chan.pcie 8) ∘ sealedCapture) planned) m0 3 ∧ 4 < 2 ^ 16 ∧ 254 < 2 ^ 8 ∧ 15 < 2
      ^ 32 ∧ (254 < 8 ∨ 254 ≤ 254) ∧ (onHub (sessionOpen 15 4 (Chan.pcie 8) ∘ sealedCapture) planned).hub.openRefusal
      m0 4 254 = Except.ok (sealedX, none, 0) ∧ (onHub (sessionOpen 15 4 (Chan.pcie 8) ∘ sealedCapture)
      planned).hub.hostHealthy = false) ∧
    (Admits (onHub (sealedCapture ∘ hostUp) planned) m0 3 ∧ 4 < 2 ^ 16 ∧ 254 < 2 ^ 8 ∧ 15 < 2 ^ 32 ∧ (254 < 8 ∨ 254 ≤
      254) ∧ (onHub (sealedCapture ∘ hostUp) planned).hub.openRefusal m0 4 254 = Except.ok (sealedX, none, 0) ∧ (onHub
      (sealedCapture ∘ hostUp) planned).hub.hostHealthy = true) ∧
    (Admits (onHub (sessionOpen 15 4 (Chan.pcie 8) ∘ sealedCapture) planned) m0 3 ∧ 4 < 8 ∧ 15 < 2 ^ 48 ∧
      (¬(1073741824 ≤ 15 ∧ 15 + 96 ≤ 1082130432))) ∧
    (Admits (onHub (sessionOpen 15 4 (Chan.pcie 8) ∘ sealedCapture) planned) m0 3 ∧ 4 < 8 ∧ 1082130336 < 2 ^ 48 ∧
      1073741824 ≤ 1082130336 ∧ 1082130336 + 96 ≤ 1082130432 ∧ onP384 ((onHub (sessionOpen 15 4 (Chan.pcie 8) ∘
      sealedCapture) planned).hub.bytes 1082130336 96) = false) ∧
    (Admits (st (keyAt 1082130332)) m0 3 ∧ 4 < 8 ∧ 1082130332 < 2 ^ 48 ∧ 1073741824 ≤ 1082130332 ∧ 1082130332 + 96 ≤
      1082130432 ∧ onP384 ((st (keyAt 1082130332)).hub.bytes 1082130332 96) = true ∧ 1082130332 % 8 ≠ 0) ∧
    (Admits (st (pf F.AUT_RCPT_locked 1 7 ∘ keyAt 1082130336)) m0 3 ∧ 7 < 8 ∧ 1082130336 < 2 ^ 48 ∧ 1073741824 ≤
      1082130336 ∧ 1082130336 + 96 ≤ 1082130432 ∧ 1082130336 % 8 = 0 ∧ onP384 ((st (pf F.AUT_RCPT_locked 1 7 ∘ keyAt
      1082130336)).hub.bytes 1082130336 96) = true ∧ (¬(st (pf F.AUT_RCPT_locked 1 7 ∘ keyAt 1082130336)).hub.flag
      F.AUT_RCPT_locked 7 = false)) ∧
    (Admits (st (keyAt 1082130336)) m0 3 ∧ 4 < 8 ∧ 1082130336 < 2 ^ 48 ∧ 1073741824 ≤ 1082130336 ∧ 1082130336 + 96 ≤
      1082130432 ∧ 1082130336 % 8 = 0 ∧ onP384 ((st (keyAt 1082130336)).hub.bytes 1082130336 96) = true ∧ (st (keyAt
      1082130336)).hub.flag F.AUT_RCPT_locked 4 = false) ∧
    (Admits (st (pf F.AUT_RCPT_locked 1 7)) m0 3 ∧ 7 < 8 ∧ 15 < 2 ^ 48 ∧ (¬(st (pf F.AUT_RCPT_locked 1 7)).hub.flag
      F.AUT_RCPT_locked 7 = false)) ∧
    (Admits (onHub (sessionOpen 15 4 (Chan.pcie 8) ∘ sealedCapture) planned) m0 3 ∧ 4 < 8 ∧ 15 < 2 ^ 48 ∧ (onHub
      (sessionOpen 15 4 (Chan.pcie 8) ∘ sealedCapture) planned).hub.flag F.AUT_RCPT_locked 4 = false) :=
  ⟨by decide +kernel, ⟨by decide +kernel, by decide +kernel, by decide +kernel, error_of (by decide +kernel),
    by decide +kernel⟩, ⟨by decide +kernel, by decide +kernel, by decide +kernel, ok_of (by decide +kernel)⟩,
    by decide +kernel, by decide +kernel, by decide +kernel, by decide +kernel, by decide +kernel, by decide +kernel,
    by decide +kernel, ⟨admits_of (by decide +kernel), by decide +kernel⟩, ⟨admits_of (by decide +kernel),
    by decide +kernel, by decide +kernel, by decide +kernel, by decide +kernel, error_of (by decide +kernel),
    by decide +kernel⟩, ⟨admits_of (by decide +kernel), by decide +kernel, by decide +kernel, by decide +kernel,
    by decide +kernel, ok_of (by decide +kernel), by decide +kernel⟩, ⟨admits_of (by decide +kernel),
    by decide +kernel, by decide +kernel, by decide +kernel, by decide +kernel, ok_of (by decide +kernel),
    by decide +kernel⟩, ⟨admits_of (by decide +kernel), by decide +kernel⟩, ⟨admits_of (by decide +kernel),
    by decide +kernel⟩, ⟨admits_of (by decide +kernel), by decide +kernel⟩, ⟨admits_of (by decide +kernel),
    by decide +kernel⟩, ⟨admits_of (by decide +kernel), by decide +kernel⟩, ⟨admits_of (by decide +kernel),
    by decide +kernel⟩, ⟨admits_of (by decide +kernel), by decide +kernel⟩⟩

theorem met_FixedRegisters :
    (coreOk sc = true ∧ 31 ≠ 0) ∧
    (Runs st sc ∧ st.hub.cget F.STK_CAUSE_active sc = 0) :=
  ⟨by decide +kernel, ⟨runs_of (by decide +kernel), by decide +kernel⟩⟩

theorem met_HangWatchTracksCommands :
    (2047 < 2048 ∧ (st (watch 2047 1 7)).hub.wheelNotes = [] ∧ (∀ (e : Nat × CtxX), e ∈ (st (watch 2047 1 7)).hub.ctxs
      → ∀ (k : Inflight), k ∈ e.snd.inflight → k.due = none) ∧ 2047 < 2 ^ 32 ∧ 7 < 16 ∧ 7 < 256 ∧ unitOk 7 = true ∧
      (st (watch 2047 1 7)).hub.hasRoom 2047 = true) ∧
    (2047 < 2048 ∧ (st (watch 2047 2 7 ∘ ctxOf 2047 (List.map (fun q => inflight q) (List.range 32)))).hub.wheelNotes
      = [] ∧ (∀ (e : Nat × CtxX), e ∈ (st (watch 2047 2 7 ∘ ctxOf 2047 (List.map (fun q => inflight q) (List.range
      32)))).hub.ctxs → ∀ (k : Inflight), k ∈ e.snd.inflight → k.due = none) ∧ 2047 < 2 ^ 32 ∧ 7 < 16 ∧ 7 < 256 ∧
      unitOk 7 = true ∧ (st (watch 2047 2 7 ∘ ctxOf 2047 (List.map (fun q => inflight q) (List.range
      32)))).hub.hasRoom 2047 = false) ∧
    (2047 < 2048 ∧ (st (watch 2047 2 7 ∘ ctxOf 2047 [inflight 1, inflight 9])).hub.wheelNotes = [] ∧ (∀ (e : Nat ×
      CtxX), e ∈ (st (watch 2047 2 7 ∘ ctxOf 2047 [inflight 1, inflight 9])).hub.ctxs → ∀ (k : Inflight), k ∈
      e.snd.inflight → k.due = none) ∧ 1 < 2 ^ 32 ∧ List.find? (fun y => decide (y.seq = 1)) ((st (watch 2047 2 7 ∘
      ctxOf 2047 [inflight 1, inflight 9])).hub.ctx 2047).inflight = some (inflight 1)) ∧
    (7 < 8 ∧ (∀ (e : Nat × CtxX), e ∈ (st (watch 2047 1 7)).hub.ctxs → ∀ (k : Inflight), k ∈ e.snd.inflight → k.due =
      none)) ∧
    (7 < 8 ∧ 2047 < 2048 ∧ (st (watch 2047 1 7 ∘ ctxOf 2047 [inflight 1 (some 5)])).hub.homeOf 2047 = 7 ∧ List.find?
      (fun y => decide (y.seq = 1) && y.due.isSome && !y.expired) ((st (watch 2047 1 7 ∘ ctxOf 2047 [inflight 1 (some
      5)])).hub.ctx 2047).inflight = some (inflight 1 (some 5)) ∧ (inflight 1 (some 5)).due = some 5) ∧
    (2047 < 2048 ∧ Admits (st (watch 2047 1 7)) m0 3 ∧ 7 ≤ 8) ∧
    (2047 < 2048 ∧ Admits (st (watch 2047 1 7)) m0 3 ∧ 8 < 9 ∧ 9 < 16) :=
  ⟨by decide +kernel, by decide +kernel, by decide +kernel, by decide +kernel, by decide +kernel, ⟨by decide +kernel,
    admits_of (by decide +kernel), by decide +kernel⟩, ⟨by decide +kernel, admits_of (by decide +kernel),
    by decide +kernel⟩⟩

theorem met_HubMemoryAccesses :
    (Runs (st (gp 5 1082130424 ∘ gp 6 11259375)) sc ∧ 0#5 ≠ statusReg ∧ 1073741824 ≤ BitVec.toNat ((st (gp 5
      1082130424 ∘ gp 6 11259375)).hub.gpr sc 5#5 + BitVec.signExtend 64 0#16) ∧ BitVec.toNat ((st (gp 5 1082130424 ∘
      gp 6 11259375)).hub.gpr sc 5#5 + BitVec.signExtend 64 0#16) < 1082130432 ∧ BitVec.toNat ((st (gp 5 1082130424 ∘
      gp 6 11259375)).hub.gpr sc 5#5 + BitVec.signExtend 64 0#16) % 8 = 0 ∧ 2 ≤ (st (gp 5 1082130424 ∘ gp 6
      11259375)).hub.coreLevel sc ∧ (st (gp 5 1082130424 ∘ gp 6 11259375)).hub.postedTo sc (BitVec.toNat ((st (gp 5
      1082130424 ∘ gp 6 11259375)).hub.gpr sc 5#5 + BitVec.signExtend 64 0#16)) = false) ∧
    (Runs st sc ∧ 0#5 ≠ statusReg ∧ 137506062336 ≤ BitVec.toNat (st.hub.gpr sc 0#5 + BitVec.signExtend 64 32768#16) ∧
      st.hub.postedTo sc (BitVec.toNat (st.hub.gpr sc 0#5 + BitVec.signExtend 64 32768#16)) = false) ∧
    (Runs (st (gp 5 scratch ∘ at8 scratch 1234605616436508552 ∘ posts [posted1 scratch])) sc ∧ 0#5 ≠ statusReg ∧
      1073741824 ≤ BitVec.toNat ((st (gp 5 scratch ∘ at8 scratch 1234605616436508552 ∘ posts [posted1
      scratch])).hub.gpr sc 5#5 + BitVec.signExtend 64 0#16) ∧ BitVec.toNat ((st (gp 5 scratch ∘ at8 scratch
      1234605616436508552 ∘ posts [posted1 scratch])).hub.gpr sc 5#5 + BitVec.signExtend 64 0#16) < 1082130432 ∧ (st
      (gp 5 scratch ∘ at8 scratch 1234605616436508552 ∘ posts [posted1 scratch])).hub.postedTo sc (BitVec.toNat ((st
      (gp 5 scratch ∘ at8 scratch 1234605616436508552 ∘ posts [posted1 scratch])).hub.gpr sc 5#5 + BitVec.signExtend
      64 0#16)) = true) ∧
    (Runs (st (gp 5 1082130424 ∘ gp 6 11259375)) sc ∧ 1073741824 ≤ BitVec.toNat ((st (gp 5 1082130424 ∘ gp 6
      11259375)).hub.gpr sc 5#5 + BitVec.signExtend 64 0#16) ∧ BitVec.toNat ((st (gp 5 1082130424 ∘ gp 6
      11259375)).hub.gpr sc 5#5 + BitVec.signExtend 64 0#16) < 1082130432 ∧ BitVec.toNat ((st (gp 5 1082130424 ∘ gp 6
      11259375)).hub.gpr sc 5#5 + BitVec.signExtend 64 0#16) % 8 = 0 ∧ 3 ≤ (st (gp 5 1082130424 ∘ gp 6
      11259375)).hub.coreLevel sc ∧ (st (gp 5 1082130424 ∘ gp 6 11259375)).hub.openTxn (Master.core sc) = none) ∧
    (coreOk sc = true ∧ ((st (gp 5 scratch ∘ at8 scratch 1234605616436508552 ∘ posts [posted1 scratch])).hub.core
      sc).wait = Wait.idle ∧ ((st (gp 5 scratch ∘ at8 scratch 1234605616436508552 ∘ posts [posted1 scratch])).hub.core
      sc).posted = [Posted.mk 999000 4 scratch 0 77] ∧ 1073741824 ≤ scratch ∧ scratch < 1082130432 ∧ scratch % 8 = 0 ∧
      3 ≤ 4 ∧ (st (gp 5 scratch ∘ at8 scratch 1234605616436508552 ∘ posts [posted1 scratch])).hub.planReadOnly scratch
      8 = false ∧ (st (gp 5 scratch ∘ at8 scratch 1234605616436508552 ∘ posts [posted1 scratch])).hub.owedStep = 0) ∧
    (Runs st sc ∧ 0#5 ≠ statusReg ∧ (st.hub.core sc).posted = []) ∧
    (Runs (st (gp 5 scratch ∘ at8 scratch 1234605616436508552 ∘ posts [posted1 scratch])) sc ∧ 0#5 ≠ statusReg ∧ ((st
      (gp 5 scratch ∘ at8 scratch 1234605616436508552 ∘ posts [posted1 scratch])).hub.core sc).posted ≠ []) ∧
    (Runs st sc ∧ sprOf sc 4095 = none ∧ st.hub.cget F.STK_CAUSE_active sc = 0) :=
  ⟨⟨runs_of (by decide +kernel), by decide +kernel⟩, ⟨runs_of (by decide +kernel), by decide +kernel⟩, ⟨runs_of
    (by decide +kernel), by decide +kernel⟩, ⟨runs_of (by decide +kernel), by decide +kernel⟩, by decide +kernel,
    ⟨runs_of (by decide +kernel), by decide +kernel⟩, ⟨runs_of (by decide +kernel), by decide +kernel⟩, ⟨runs_of
    (by decide +kernel), by decide +kernel⟩⟩

theorem met_LinksAreBankedAndReturn :
    (47 < 48 ∧ ((st (bankAt 2000000)).hub.link 47).bankDue ≠ none) ∧
    (47 < 48 ∧ (st.hub.link 47).bankDue = none) ∧
    (47 < 48 ∧ (∃ d, d ∈ ((st (bankAt 2000000)).hub.link 47).bankDue ∧ True)) ∧
    (47 < 48 ∧ (st (bankedX 3 0 [] false)).hub.linkState 47 = 3 ∧ (st (bankedX 3 0 [] false)).hub.isBanked 47 = true) ∧
    (47 < 48 ∧ st.hub.linkState 47 ≠ 3) ∧
    (47 < 48 ∧ (st (bankedX 4 200 [1] false)).hub.linkState 47 = 4) ∧
    (47 < 48 ∧ ((st (bankedX 4 2000000 [1, 2] true)).hub.link 47).returning = true) ∧
    (47 < 48 ∧ (st.hub.link 47).returning = false) ∧
    (47 < 48 ∧ (st (linkX 47 1 false id)).hub.linkState 47 = 1 ∧ (st (linkX 47 1 false id)).hub.bankCause 47 = 0) ∧
    (47 < 48 ∧ 0 < 6 ∧ 0 ≠ 4 ∧ st.hub.isBanked 47 = false ∧ (¬(st.hub.linkState 47 = 1 ∧ 0 = 2))) :=
  ⟨by decide +kernel, by decide +kernel, by decide +kernel, by decide +kernel, by decide +kernel, by decide +kernel,
    by decide +kernel, by decide +kernel, by decide +kernel, by decide +kernel⟩

theorem met_LiveUpdateMapOutAndRecalibration :
    (Admits (Tests.st (pf F.HRT_UPD_SRC_addr scratch)) m0 3 ∧ 1 < 2 ∧ 1 < 2 ^ 24 ∧ 1 < 2 ^ 24 ∧ (∃ st, st ∈ (cmdUpdate
      (UpdX.mk 0 1 (1 * 256) (1 * 256) 0)).pre (Tests.st (pf F.HRT_UPD_SRC_addr scratch)).hub ∧ True)) ∧
    (Admits (st (updates 0 1 32440320 65536 ∘ pf F.HRT_UPD_SRC_addr scratch)) m0 3 ∧ 1 < 2 ∧ 0 < 2 ^ 24 ∧ 0 < 2 ^ 24 ∧
      (cmdUpdate (UpdX.mk 0 1 (0 * 256) (0 * 256) 0)).pre (st (updates 0 1 32440320 65536 ∘ pf F.HRT_UPD_SRC_addr
      scratch)).hub = none ∧ (st (updates 0 1 32440320 65536 ∘ pf F.HRT_UPD_SRC_addr scratch)).hub.upd.isSome = true) ∧
    (Admits (st (booted 1 ∘ pf F.HRT_UPD_SRC_addr scratch)) m0 3 ∧ 1 < 2 ∧ 0 < 2 ^ 24 ∧ 0 < 2 ^ 24 ∧ (cmdUpdate
      (UpdX.mk 0 1 (0 * 256) (0 * 256) 0)).pre (st (booted 1 ∘ pf F.HRT_UPD_SRC_addr scratch)).hub = none ∧ (st
      (booted 1 ∘ pf F.HRT_UPD_SRC_addr scratch)).hub.upd = none ∧ ((UpdX.mk 0 1 (0 * 256) (0 * 256) 0).op ≠ 2 ∧ (st
      (booted 1 ∘ pf F.HRT_UPD_SRC_addr scratch)).hub.boot.slot = some (UpdX.mk 0 1 (0 * 256) (0 * 256) 0).slot)) ∧
    (Admits (st (pf F.HRT_UPD_SRC_addr scratch)) m0 3 ∧ 1 < 2 ∧ 0 < 2 ^ 24 ∧ 0 < 2 ^ 24 ∧ (cmdUpdate (UpdX.mk 0 1 (0 *
      256) (0 * 256) 0)).pre (st (pf F.HRT_UPD_SRC_addr scratch)).hub = none ∧ (st (pf F.HRT_UPD_SRC_addr
      scratch)).hub.upd = none ∧ (¬((UpdX.mk 0 1 (0 * 256) (0 * 256) 0).op ≠ 2 ∧ (st (pf F.HRT_UPD_SRC_addr
      scratch)).hub.boot.slot = some (UpdX.mk 0 1 (0 * 256) (0 * 256) 0).slot)) ∧ (¬((UpdX.mk 0 1 (0 * 256) (0 * 256)
      0).op = 3 ∧ (st (pf F.HRT_UPD_SRC_addr scratch)).hub.flag (verifiedFld (UpdX.mk 0 1 (0 * 256) (0 * 256) 0).slot)
      = false))) ∧
    (Admits (Tests.st (pf (verifiedFld 1) 1)) m0 3 ∧ 1 < 2 ∧ 1 < 2 ^ 24 ∧ 1 < 2 ^ 24 ∧ (∃ st, st ∈ (cmdUpdate (UpdX.mk
      1 1 (1 * 256) (1 * 256) 0)).pre (Tests.st (pf (verifiedFld 1) 1)).hub ∧ True)) ∧
    (Admits (st (updates 0 1 32440320 65536 ∘ pf F.HRT_UPD_SRC_addr scratch)) m0 3 ∧ 1 < 2 ∧ 1 < 2 ^ 24 ∧ 1 < 2 ^ 24 ∧
      (cmdUpdate (UpdX.mk 1 1 (1 * 256) (1 * 256) 0)).pre (st (updates 0 1 32440320 65536 ∘ pf F.HRT_UPD_SRC_addr
      scratch)).hub = none ∧ (st (updates 0 1 32440320 65536 ∘ pf F.HRT_UPD_SRC_addr scratch)).hub.upd.isSome = true) ∧
    (Admits (st (booted 1 ∘ pf F.HRT_UPD_SRC_addr scratch)) m0 3 ∧ 1 < 2 ∧ 1 < 2 ^ 24 ∧ 1 < 2 ^ 24 ∧ (cmdUpdate
      (UpdX.mk 1 1 (1 * 256) (1 * 256) 0)).pre (st (booted 1 ∘ pf F.HRT_UPD_SRC_addr scratch)).hub = none ∧ (st
      (booted 1 ∘ pf F.HRT_UPD_SRC_addr scratch)).hub.upd = none ∧ ((UpdX.mk 1 1 (1 * 256) (1 * 256) 0).op ≠ 2 ∧ (st
      (booted 1 ∘ pf F.HRT_UPD_SRC_addr scratch)).hub.boot.slot = some (UpdX.mk 1 1 (1 * 256) (1 * 256) 0).slot)) ∧
    (Admits (st (pf F.HRT_UPD_SRC_addr scratch)) m0 3 ∧ 1 < 2 ∧ 1 < 2 ^ 24 ∧ 1 < 2 ^ 24 ∧ (cmdUpdate (UpdX.mk 1 1 (1 *
      256) (1 * 256) 0)).pre (st (pf F.HRT_UPD_SRC_addr scratch)).hub = none ∧ (st (pf F.HRT_UPD_SRC_addr
      scratch)).hub.upd = none ∧ (¬((UpdX.mk 1 1 (1 * 256) (1 * 256) 0).op ≠ 2 ∧ (st (pf F.HRT_UPD_SRC_addr
      scratch)).hub.boot.slot = some (UpdX.mk 1 1 (1 * 256) (1 * 256) 0).slot)) ∧ (¬((UpdX.mk 1 1 (1 * 256) (1 * 256)
      0).op = 3 ∧ (st (pf F.HRT_UPD_SRC_addr scratch)).hub.flag (verifiedFld (UpdX.mk 1 1 (1 * 256) (1 * 256) 0).slot)
      = false))) ∧
    (Admits (st (updates 0 1 32440320 65536 ∘ pf F.HRT_UPD_SRC_addr scratch)) m0 3 ∧ 1 < 2 ∧ 1 < 2 ^ 24 ∧ 1 < 2 ^ 24 ∧
      (cmdUpdate (UpdX.mk 2 1 (0 * 256) (0 * 256) 0)).pre (st (updates 0 1 32440320 65536 ∘ pf F.HRT_UPD_SRC_addr
      scratch)).hub = none ∧ (st (updates 0 1 32440320 65536 ∘ pf F.HRT_UPD_SRC_addr scratch)).hub.upd.isSome = true) ∧
    (Admits (st (pf F.HRT_UPD_SRC_addr scratch)) m0 3 ∧ 1 < 2 ∧ 1 < 2 ^ 24 ∧ 1 < 2 ^ 24 ∧ (cmdUpdate (UpdX.mk 2 1 (0 *
      256) (0 * 256) 0)).pre (st (pf F.HRT_UPD_SRC_addr scratch)).hub = none ∧ (st (pf F.HRT_UPD_SRC_addr
      scratch)).hub.upd = none ∧ (¬((UpdX.mk 2 1 (0 * 256) (0 * 256) 0).op ≠ 2 ∧ (st (pf F.HRT_UPD_SRC_addr
      scratch)).hub.boot.slot = some (UpdX.mk 2 1 (0 * 256) (0 * 256) 0).slot)) ∧ (¬((UpdX.mk 2 1 (0 * 256) (0 * 256)
      0).op = 3 ∧ (st (pf F.HRT_UPD_SRC_addr scratch)).hub.flag (verifiedFld (UpdX.mk 2 1 (0 * 256) (0 * 256) 0).slot)
      = false))) ∧
    (Admits (st (updates 0 1 32440320 65536 ∘ pf F.HRT_UPD_SRC_addr scratch)) m0 3 ∧ 1 < 2 ∧ 1 < 2 ^ 24 ∧ 1 < 2 ^ 24 ∧
      (cmdUpdate (UpdX.mk 3 1 (0 * 256) (0 * 256) 0)).pre (st (updates 0 1 32440320 65536 ∘ pf F.HRT_UPD_SRC_addr
      scratch)).hub = none ∧ (st (updates 0 1 32440320 65536 ∘ pf F.HRT_UPD_SRC_addr scratch)).hub.upd.isSome = true) ∧
    (Admits (st (booted 1 ∘ pf F.HRT_UPD_SRC_addr scratch)) m0 3 ∧ 1 < 2 ∧ 1 < 2 ^ 24 ∧ 1 < 2 ^ 24 ∧ (cmdUpdate
      (UpdX.mk 3 1 (0 * 256) (0 * 256) 0)).pre (st (booted 1 ∘ pf F.HRT_UPD_SRC_addr scratch)).hub = none ∧ (st
      (booted 1 ∘ pf F.HRT_UPD_SRC_addr scratch)).hub.upd = none ∧ ((UpdX.mk 3 1 (0 * 256) (0 * 256) 0).op ≠ 2 ∧ (st
      (booted 1 ∘ pf F.HRT_UPD_SRC_addr scratch)).hub.boot.slot = some (UpdX.mk 3 1 (0 * 256) (0 * 256) 0).slot)) ∧
    (Admits (st (pf F.HRT_UPD_SRC_addr scratch)) m0 3 ∧ 1 < 2 ∧ 1 < 2 ^ 24 ∧ 1 < 2 ^ 24 ∧ (cmdUpdate (UpdX.mk 3 1 (0 *
      256) (0 * 256) 0)).pre (st (pf F.HRT_UPD_SRC_addr scratch)).hub = none ∧ (st (pf F.HRT_UPD_SRC_addr
      scratch)).hub.upd = none ∧ (¬((UpdX.mk 3 1 (0 * 256) (0 * 256) 0).op ≠ 2 ∧ (st (pf F.HRT_UPD_SRC_addr
      scratch)).hub.boot.slot = some (UpdX.mk 3 1 (0 * 256) (0 * 256) 0).slot)) ∧ ((UpdX.mk 3 1 (0 * 256) (0 * 256)
      0).op = 3 ∧ (st (pf F.HRT_UPD_SRC_addr scratch)).hub.flag (verifiedFld (UpdX.mk 3 1 (0 * 256) (0 * 256) 0).slot)
      = false)) ∧
    (Admits (st (pf (verifiedFld 1) 1)) m0 3 ∧ 1 < 2 ∧ 1 < 2 ^ 24 ∧ 1 < 2 ^ 24 ∧ (cmdUpdate (UpdX.mk 3 1 (0 * 256) (0
      * 256) 0)).pre (st (pf (verifiedFld 1) 1)).hub = none ∧ (st (pf (verifiedFld 1) 1)).hub.upd = none ∧ (¬((UpdX.mk
      3 1 (0 * 256) (0 * 256) 0).op ≠ 2 ∧ (st (pf (verifiedFld 1) 1)).hub.boot.slot = some (UpdX.mk 3 1 (0 * 256) (0 *
      256) 0).slot)) ∧ (¬((UpdX.mk 3 1 (0 * 256) (0 * 256) 0).op = 3 ∧ (st (pf (verifiedFld 1) 1)).hub.flag
      (verifiedFld (UpdX.mk 3 1 (0 * 256) (0 * 256) 0).slot) = false))) ∧
    (∃ x, x ∈ (st (updates 0 1 32440320 65536 ∘ pf F.HRT_UPD_SRC_addr scratch)).hub.upd ∧ x.slot < 2 ∧ x.offset +
      x.length ≤ slotSize ∧ x.op = 0) ∧
    (∃ x, x ∈ (st (updates 1 1 32505600 256)).hub.upd ∧ x.slot < 2 ∧ x.offset + x.length ≤ slotSize ∧ x.op = 1) ∧
    (∃ x, x ∈ (st (updates 2 1 0 0)).hub.upd ∧ x.slot < 2 ∧ x.offset + x.length ≤ slotSize ∧ x.op = 2) ∧
    (∃ x, x ∈ (st (updates 3 1 0 0)).hub.upd ∧ x.slot < 2 ∧ x.offset + x.length ≤ slotSize ∧ x.op = 3) ∧
    (Admits (st (maps false 63)) m0 3 ∧ 1 < 64 ∧ (st (maps false 63)).hub.mapOp.isSome = true) ∧
    (Admits (Tests.st (pf F.CRU_GROUPS_mapped_in 0)) m0 3 ∧ 1 < 64 ∧ (Tests.st (pf F.CRU_GROUPS_mapped_in
      0)).hub.mapOp = none ∧ (∃ st, st ∈ (Tests.st (pf F.CRU_GROUPS_mapped_in 0)).hub.mapOutRefusal (1 / 8) (1 % 8) ∧
      True)) ∧
    (Admits (st (pf F.HRT_UPD_SRC_addr scratch)) m0 3 ∧ 1 < 64 ∧ (st (pf F.HRT_UPD_SRC_addr scratch)).hub.mapOp = none
      ∧ (st (pf F.HRT_UPD_SRC_addr scratch)).hub.mapOutRefusal (1 / 8) (1 % 8) = none) ∧
    ((onHub (maps false 0) sized).hub.mapOp = some (MapX.mk false 0) ∧ (onHub (maps false 0) sized).hub.groupInUse 0 =
      true) ∧
    ((st (maps false 63 ∘ pf F.CRU_GROUPS_mapped_in 0)).hub.mapOp = some (MapX.mk false 63) ∧ (st (maps false 63 ∘ pf
      F.CRU_GROUPS_mapped_in 0)).hub.groupInUse 63 = false ∧ (st (maps false 63 ∘ pf F.CRU_GROUPS_mapped_in
      0)).hub.mapPlan (63 / 8) (63 % 8) = none) ∧
    ((st (maps false 63)).hub.mapOp = some (MapX.mk false 63) ∧ (st (maps false 63)).hub.groupInUse 63 = false ∧ (st
      (maps false 63)).hub.mapPlan (63 / 8) (63 % 8) ≠ none) ∧
    ((st (maps true 63)).hub.mapOp = some (MapX.mk true 63) ∧ 63 < 64) ∧
    (Admits (st (recals [31, 4])) m0 3 ∧ 1 < 32 ∧ (st (recals [31, 4])).hub.recal ≠ []) ∧
    (Admits (st (pf F.TIM_STATUS_pll_locked 0)) m0 3 ∧ 1 < 32 ∧ (st (pf F.TIM_STATUS_pll_locked 0)).hub.recal = [] ∧
      (st (pf F.TIM_STATUS_pll_locked 0)).hub.flag F.TIM_STATUS_pll_locked = false) ∧
    (Admits (st (pf F.HRT_UPD_SRC_addr scratch)) m0 3 ∧ 1 < 32 ∧ (st (pf F.HRT_UPD_SRC_addr scratch)).hub.recal = [] ∧
      (st (pf F.HRT_UPD_SRC_addr scratch)).hub.flag F.TIM_STATUS_pll_locked = true) ∧
    (1 < 32 ∧ (∀ (rest : List Nat), (st (pf F.HRT_UPD_SRC_addr scratch)).hub.recal ≠ 1 :: rest)) ∧
    (31 < 32 ∧ (st (recals [31, 4])).hub.recal = [31, 4]) :=
  ⟨⟨admits_of (by decide +kernel), by decide +kernel⟩, ⟨admits_of (by decide +kernel), by decide +kernel⟩, ⟨admits_of
    (by decide +kernel), by decide +kernel⟩, ⟨admits_of (by decide +kernel), by decide +kernel⟩, ⟨admits_of
    (by decide +kernel), by decide +kernel⟩, ⟨admits_of (by decide +kernel), by decide +kernel⟩, ⟨admits_of
    (by decide +kernel), by decide +kernel⟩, ⟨admits_of (by decide +kernel), by decide +kernel⟩, ⟨admits_of
    (by decide +kernel), by decide +kernel⟩, ⟨admits_of (by decide +kernel), by decide +kernel⟩, ⟨admits_of
    (by decide +kernel), by decide +kernel⟩, ⟨admits_of (by decide +kernel), by decide +kernel⟩, ⟨admits_of
    (by decide +kernel), by decide +kernel⟩, ⟨admits_of (by decide +kernel), by decide +kernel⟩, by decide +kernel,
    by decide +kernel, by decide +kernel, by decide +kernel, ⟨admits_of (by decide +kernel), by decide +kernel⟩,
    ⟨admits_of (by decide +kernel), by decide +kernel⟩, ⟨admits_of (by decide +kernel), by decide +kernel⟩,
    by decide +kernel, by decide +kernel, by decide +kernel, by decide +kernel, ⟨admits_of (by decide +kernel),
    by decide +kernel⟩, ⟨admits_of (by decide +kernel), by decide +kernel⟩, ⟨admits_of (by decide +kernel),
    by decide +kernel⟩, ⟨by decide +kernel, head_ne (by decide +kernel)⟩, by decide +kernel⟩

theorem met_LocalAccesses :
    (Runs (st (gp 31 65528)) sc ∧ (BitVec.toNat ((st (gp 31 65528)).hub.gpr sc 31 + BitVec.signExtend 64 0#16) + 8 ≤
      localSize sc ∧ BitVec.toNat ((st (gp 31 65528)).hub.gpr sc 31 + BitVec.signExtend 64 0#16) % 8 = 0)) ∧
    (Runs (st (gp 31 65528)) sc ∧ (BitVec.toNat ((st (gp 31 65528)).hub.gpr sc 31 + BitVec.signExtend 64 0#16) + 4 ≤
      localSize sc ∧ BitVec.toNat ((st (gp 31 65528)).hub.gpr sc 31 + BitVec.signExtend 64 0#16) % 4 = 0)) ∧
    (Runs (st (gp 31 65528)) sc ∧ (BitVec.toNat ((st (gp 31 65528)).hub.gpr sc 31 + BitVec.signExtend 64 0#16) + 2 ≤
      localSize sc ∧ BitVec.toNat ((st (gp 31 65528)).hub.gpr sc 31 + BitVec.signExtend 64 0#16) % 2 = 0)) ∧
    (Runs (st (gp 31 65528)) sc ∧ BitVec.toNat ((st (gp 31 65528)).hub.gpr sc 31 + BitVec.signExtend 64 0#16) + 1 ≤
      localSize sc) ∧
    (Runs (st (gp 31 65528)) sc ∧ (st (gp 31 65528)).hub.cget F.STK_CAUSE_active sc = 0 ∧ (¬(BitVec.toNat ((st (gp 31
      65528)).hub.gpr sc 31 + BitVec.signExtend 64 65535#16) + 8 ≤ localSize sc ∧ BitVec.toNat ((st (gp 31
      65528)).hub.gpr sc 31 + BitVec.signExtend 64 65535#16) % 8 = 0))) ∧
    (Runs (st (gp 31 65528)) sc ∧ (st (gp 31 65528)).hub.cget F.STK_CAUSE_active sc = 0 ∧ (¬(BitVec.toNat ((st (gp 31
      65528)).hub.gpr sc 31 + BitVec.signExtend 64 65535#16) + 4 ≤ localSize sc ∧ BitVec.toNat ((st (gp 31
      65528)).hub.gpr sc 31 + BitVec.signExtend 64 65535#16) % 4 = 0))) ∧
    (Runs (st (gp 31 65528)) sc ∧ (st (gp 31 65528)).hub.cget F.STK_CAUSE_active sc = 0 ∧ (¬(BitVec.toNat ((st (gp 31
      65528)).hub.gpr sc 31 + BitVec.signExtend 64 65535#16) + 2 ≤ localSize sc ∧ BitVec.toNat ((st (gp 31
      65528)).hub.gpr sc 31 + BitVec.signExtend 64 65535#16) % 2 = 0))) ∧
    (Runs (st (gp 31 65528)) sc ∧ (st (gp 31 65528)).hub.cget F.STK_CAUSE_active sc = 0 ∧ (¬BitVec.toNat ((st (gp 31
      65528)).hub.gpr sc 5 + BitVec.signExtend 64 65535#16) + 1 ≤ localSize sc)) :=
  ⟨⟨runs_of (by decide +kernel), by decide +kernel⟩, ⟨runs_of (by decide +kernel), by decide +kernel⟩, ⟨runs_of
    (by decide +kernel), by decide +kernel⟩, ⟨runs_of (by decide +kernel), by decide +kernel⟩, ⟨runs_of
    (by decide +kernel), by decide +kernel⟩, ⟨runs_of (by decide +kernel), by decide +kernel⟩, ⟨runs_of
    (by decide +kernel), by decide +kernel⟩, ⟨runs_of (by decide +kernel), by decide +kernel⟩⟩

theorem met_MessagesTerminalAndLocks :
    (Runs (st (gp 5 sc1 ∘ coreUp sc1)) sc ∧ 0#5 ≠ statusReg ∧ BitVec.toNat ((st (gp 5 sc1 ∘ coreUp sc1)).hub.gpr sc
      5#5) = sc1 ∧ coreOk sc1 = true ∧ isHearthCore sc1 = false ∧ (st (gp 5 sc1 ∘ coreUp sc1)).hub.coreState sc1 < 2 ∧
      ((st (gp 5 sc1 ∘ coreUp sc1)).hub.core sc1).inbox.length < 8 ∧ ((st (gp 5 sc1 ∘ coreUp sc1)).hub.core sc1).wait
      = Wait.idle ∧ ((st (gp 5 sc1 ∘ coreUp sc1)).hub.slotsOf sc1 fun z => z.kind == 5) = []) ∧
    (Runs (st (gp 5 sc1 ∘ coreUp sc1 ∘ inbox sc1 (List.replicate 8 (3, 3)))) sc ∧ 0#5 ≠ statusReg ∧ BitVec.toNat ((st
      (gp 5 sc1 ∘ coreUp sc1 ∘ inbox sc1 (List.replicate 8 (3, 3)))).hub.gpr sc 5#5) = sc1 ∧ coreOk sc1 = true ∧
      isHearthCore sc1 = false ∧ (st (gp 5 sc1 ∘ coreUp sc1 ∘ inbox sc1 (List.replicate 8 (3, 3)))).hub.coreState sc1
      < 2 ∧ 8 ≤ ((st (gp 5 sc1 ∘ coreUp sc1 ∘ inbox sc1 (List.replicate 8 (3, 3)))).hub.core sc1).inbox.length) ∧
    (Runs (st (gp 5 sc1)) sc ∧ 0#5 ≠ statusReg ∧ BitVec.toNat ((st (gp 5 sc1)).hub.gpr sc 5#5) = sc1 ∧ coreOk sc1 =
      true ∧ isHearthCore sc1 = false ∧ 2 ≤ (st (gp 5 sc1)).hub.coreState sc1) ∧
    (Runs (st (gp 5 sc1 ∘ coreUp sc1 ∘ inbox sc1 (List.replicate 8 (3, 3)))) sc1 ∧ 0#5 ≠ statusReg ∧ (∃ e, e ∈ ((st
      (gp 5 sc1 ∘ coreUp sc1 ∘ inbox sc1 (List.replicate 8 (3, 3)))).hub.core sc1).inbox.head? ∧ e.fst < 65536)) ∧
    (Runs (st (gp 5 sc1 ∘ coreUp sc1)) sc ∧ 0#5 ≠ statusReg ∧ ((st (gp 5 sc1 ∘ coreUp sc1)).hub.core sc).inbox = [] ∧
      BitVec.toNat ((st (gp 5 sc1 ∘ coreUp sc1)).hub.gpr sc 0#5) = 0) ∧
    (Runs (st (gp 5 sc1 ∘ coreUp sc1)) sc ∧ 0#5 ≠ statusReg ∧ (st (gp 5 sc1 ∘ coreUp sc1)).hub.cget
      F.STK_VT_STAT_out_full sc = 0) ∧
    (Runs (st (cp F.STK_VT_STAT_out_full 1)) sc ∧ 0#5 ≠ statusReg ∧ (st (cp F.STK_VT_STAT_out_full 1)).hub.cget
      F.STK_VT_STAT_out_full sc = 1) ∧
    (Runs (st (cp F.STK_VT_STAT_in_full 1 ∘ typed)) sc ∧ 0#5 ≠ statusReg ∧ (st (cp F.STK_VT_STAT_in_full 1 ∘
      typed)).hub.cget F.STK_VT_STAT_in_full sc = 1) ∧
    (Runs (st (gp 5 sc1 ∘ coreUp sc1)) sc ∧ 0#5 ≠ statusReg ∧ (st (gp 5 sc1 ∘ coreUp sc1)).hub.cget
      F.STK_VT_STAT_in_full sc = 0) ∧
    (coreOk sc = true ∧ Admits (st (gp 5 sc1 ∘ coreUp sc1)) m0 3 ∧ (st (gp 5 sc1 ∘ coreUp sc1)).hub.cget
      F.STK_VT_STAT_in_full sc = 0) ∧
    (coreOk sc = true ∧ Admits (st (cp F.STK_VT_STAT_in_full 1 ∘ typed)) m0 3 ∧ (st (cp F.STK_VT_STAT_in_full 1 ∘
      typed)).hub.cget F.STK_VT_STAT_in_full sc = 1) ∧
    (Runs (st (gp 5 sc1 ∘ coreUp sc1)) sc ∧ 0#5 ≠ statusReg ∧ (st (gp 5 sc1 ∘ coreUp sc1)).hub.failover = false ∧
      BitVec.toNat ((st (gp 5 sc1 ∘ coreUp sc1)).hub.gpr sc 0#5) < 256 ∧ (st (gp 5 sc1 ∘ coreUp sc1)).hub.lockHeld
      (BitVec.toNat ((st (gp 5 sc1 ∘ coreUp sc1)).hub.gpr sc 0#5)) = false) ∧
    (Runs (st (gp 5 255 ∘ gp 6 10 ∘ owns m0 255 2000000 [])) sc ∧ 0#5 ≠ statusReg ∧ (st (gp 5 255 ∘ gp 6 10 ∘ owns m0
      255 2000000 [])).hub.failover = false ∧ BitVec.toNat ((st (gp 5 255 ∘ gp 6 10 ∘ owns m0 255 2000000 [])).hub.gpr
      sc 5#5) < 256 ∧ (st (gp 5 255 ∘ gp 6 10 ∘ owns m0 255 2000000 [])).hub.lockHeld (BitVec.toNat ((st (gp 5 255 ∘
      gp 6 10 ∘ owns m0 255 2000000 [])).hub.gpr sc 5#5)) = true ∧ (st (gp 5 255 ∘ gp 6 10 ∘ owns m0 255 2000000
      [])).hub.lockOwner (BitVec.toNat ((st (gp 5 255 ∘ gp 6 10 ∘ owns m0 255 2000000 [])).hub.gpr sc 5#5))
      (Master.core sc) = false ∧ (st (gp 5 255 ∘ gp 6 10 ∘ owns m0 255 2000000 [])).clk.chipTime < ((st (gp 5 255 ∘ gp
      6 10 ∘ owns m0 255 2000000 [])).hub.lock (BitVec.toNat ((st (gp 5 255 ∘ gp 6 10 ∘ owns m0 255 2000000
      [])).hub.gpr sc 5#5))).due ∧ (st (gp 5 255 ∘ gp 6 10 ∘ owns m0 255 2000000 [])).hub.gpr sc 0#5 = 0) ∧
    (Runs (st (gp 5 255 ∘ gp 6 10 ∘ owns m0 255 2000000 [])) sc ∧ 0#5 ≠ statusReg ∧ (st (gp 5 255 ∘ gp 6 10 ∘ owns m0
      255 2000000 [])).hub.failover = false ∧ BitVec.toNat ((st (gp 5 255 ∘ gp 6 10 ∘ owns m0 255 2000000 [])).hub.gpr
      sc 5#5) < 256 ∧ (st (gp 5 255 ∘ gp 6 10 ∘ owns m0 255 2000000 [])).hub.lockHeld (BitVec.toNat ((st (gp 5 255 ∘
      gp 6 10 ∘ owns m0 255 2000000 [])).hub.gpr sc 5#5)) = true ∧ (st (gp 5 255 ∘ gp 6 10 ∘ owns m0 255 2000000
      [])).hub.lockOwner (BitVec.toNat ((st (gp 5 255 ∘ gp 6 10 ∘ owns m0 255 2000000 [])).hub.gpr sc 5#5))
      (Master.core sc) = false ∧ (st (gp 5 255 ∘ gp 6 10 ∘ owns m0 255 2000000 [])).clk.chipTime < ((st (gp 5 255 ∘ gp
      6 10 ∘ owns m0 255 2000000 [])).hub.lock (BitVec.toNat ((st (gp 5 255 ∘ gp 6 10 ∘ owns m0 255 2000000
      [])).hub.gpr sc 5#5))).due ∧ (st (gp 5 255 ∘ gp 6 10 ∘ owns m0 255 2000000 [])).hub.gpr sc 5#5 ≠ 0) ∧
    (Runs (st (gp 5 255 ∘ owns (Master.core sc) 255 2000000 [])) sc ∧ 0#5 ≠ statusReg ∧ (st (gp 5 255 ∘ owns
      (Master.core sc) 255 2000000 [])).hub.failover = false ∧ BitVec.toNat ((st (gp 5 255 ∘ owns (Master.core sc) 255
      2000000 [])).hub.gpr sc 5#5) < 256 ∧ (st (gp 5 255 ∘ owns (Master.core sc) 255 2000000 [])).hub.lockOwner
      (BitVec.toNat ((st (gp 5 255 ∘ owns (Master.core sc) 255 2000000 [])).hub.gpr sc 5#5)) (Master.core sc) = true ∧
      (st (gp 5 255 ∘ owns (Master.core sc) 255 2000000 [])).clk.chipTime < ((st (gp 5 255 ∘ owns (Master.core sc) 255
      2000000 [])).hub.lock (BitVec.toNat ((st (gp 5 255 ∘ owns (Master.core sc) 255 2000000 [])).hub.gpr sc
      5#5))).due ∧ ((st (gp 5 255 ∘ owns (Master.core sc) 255 2000000 [])).hub.lock (BitVec.toNat ((st (gp 5 255 ∘
      owns (Master.core sc) 255 2000000 [])).hub.gpr sc 5#5))).waiters = [] ∧ (st (gp 5 255 ∘ owns (Master.core sc)
      255 2000000 [])).hub.gpr sc 0#5 = 0) ∧
    (Admits (st (gp 5 sc1 ∘ coreUp sc1)) m0 3 ∧ 255 < 256 ∧ (st (gp 5 sc1 ∘ coreUp sc1)).hub.failover = false ∧ ((st
      (gp 5 sc1 ∘ coreUp sc1)).hub.master m0).lckWaiting = false ∧ 255 < 2 ^ 32 ∧ (st (gp 5 sc1 ∘ coreUp
      sc1)).hub.lockHeld 255 = false) ∧
    (Admits (st (gp 5 255 ∘ gp 6 10 ∘ owns m0 255 2000000 [])) m0 3 ∧ 255 < 256 ∧ (st (gp 5 255 ∘ gp 6 10 ∘ owns m0
      255 2000000 [])).hub.failover = false ∧ ((st (gp 5 255 ∘ gp 6 10 ∘ owns m0 255 2000000 [])).hub.master
      m0).lckWaiting = false ∧ (st (gp 5 255 ∘ gp 6 10 ∘ owns m0 255 2000000 [])).hub.lockOwner 255 m0 = true ∧ (st
      (gp 5 255 ∘ gp 6 10 ∘ owns m0 255 2000000 [])).clk.chipTime < ((st (gp 5 255 ∘ gp 6 10 ∘ owns m0 255 2000000
      [])).hub.lock 255).due ∧ ((st (gp 5 255 ∘ gp 6 10 ∘ owns m0 255 2000000 [])).hub.lock 255).waiters = []) ∧
    (255 < 256 ∧ (st (gp 5 255 ∘ gp 6 10 ∘ owns m0 255 2000000 [])).hub.lockHeld 255 = true ∧ (st (gp 5 255 ∘ gp 6 10
      ∘ owns m0 255 2000000 [])).hub.failover = false ∧ ((st (gp 5 255 ∘ gp 6 10 ∘ owns m0 255 2000000 [])).hub.lock
      255).waiters = []) ∧
    (255 < 256 ∧ m0.ok = true ∧ (st (gp 5 255 ∘ owns (Master.core sc) 255 2000000 [lockWaiter m0
      1500000])).hub.lockWaiter 255 m0 = some (lockWaiter m0 1500000) ∧ (st (gp 5 255 ∘ owns (Master.core sc) 255
      2000000 [lockWaiter m0 1500000])).hub.lockHeld 255 = true ∧ max (st (gp 5 255 ∘ owns (Master.core sc) 255
      2000000 [lockWaiter m0 1500000])).clk.chipTime ((lockWaiter m0 1500000).limit + 1) < ((st (gp 5 255 ∘ owns
      (Master.core sc) 255 2000000 [lockWaiter m0 1500000])).hub.lock 255).due ∧ (lockWaiter m0 1500000).viaReg =
      true) :=
  ⟨⟨runs_of (by decide +kernel), by decide +kernel⟩, ⟨runs_of (by decide +kernel), by decide +kernel⟩, ⟨runs_of
    (by decide +kernel), by decide +kernel⟩, ⟨runs_of (by decide +kernel), by decide +kernel⟩, ⟨runs_of
    (by decide +kernel), by decide +kernel⟩, ⟨runs_of (by decide +kernel), by decide +kernel⟩, ⟨runs_of
    (by decide +kernel), by decide +kernel⟩, ⟨runs_of (by decide +kernel), by decide +kernel⟩, ⟨runs_of
    (by decide +kernel), by decide +kernel⟩, ⟨by decide +kernel, admits_of (by decide +kernel), by decide +kernel⟩,
    ⟨by decide +kernel, admits_of (by decide +kernel), by decide +kernel⟩, ⟨runs_of (by decide +kernel),
    by decide +kernel⟩, ⟨runs_of (by decide +kernel), by decide +kernel⟩, ⟨runs_of (by decide +kernel),
    by decide +kernel⟩, ⟨runs_of (by decide +kernel), by decide +kernel⟩, ⟨admits_of (by decide +kernel),
    by decide +kernel⟩, ⟨admits_of (by decide +kernel), by decide +kernel⟩, by decide +kernel, by decide +kernel⟩

end Sys2Proof.Tests
end

