-- ==== Sys2Proof/Tests/Terms2.lean ====
section
/-! SUPPORT. Tests: for each case of the statements named here, a state and operands that meet its terms (part 2 of 3). -/

namespace Sys2Proof.Tests

open Sys2Proof Sys2Proof.Machine

set_option Elab.async false

theorem met_OrphanWaitsAreJudged :
    65535 < 65536 ∧ 2047 < 2048 ∧ unitOk unit8 = true :=
  by decide +kernel

theorem met_PortsAnswer :
    (st.hub.booting = false ∧ 0 < 15 ∧ 15 < 255) ∧
    (st.hub.booting = false ∧ (255 = 0 ∨ 255 = 255)) ∧
    (st.hub.booting = false ∧ (st.hub.endpoint 1).discovered = false) ∧
    ((st discovered).hub.booting = false ∧ ((st discovered).hub.endpoint 1).discovered = true) ∧
    (st.hub.booting = false ∧ (controlCodes McTransport.pcie).contains 15 = false) ∧
    (st.hub.booting = false ∧ [0, 5, 6, 127].contains 15 = false) ∧
    (st.hub.booting = false ∧ 15 < 128) ∧
    (st.hub.booting = false ∧ 15 < 65536) ∧
    ((st inBoot).hub.booting = true) ∧
    (15 < 16 ∧ (st (bootAt 1 [] bootFailed)).hub.boot.failed = true) ∧
    (15 < 16 ∧ st.hub.boot.failed = false) ∧
    (st.hub.warmReq = none) ∧
    (∃ d, d ∈ (st (warmAsked 2000000)).hub.warmReq ∧ True) ∧
    ([1, 32, 33].contains 128 = false) ∧
    (0 < 20 ∧ 15 < 32 ∧ 15 < 64 ∧ st.hub.flag F.AUT_SESS_open = true ∧ 3 ≤ st.hub.get F.AUT_SESS_level ∧
      st.hub.scanSegments.contains (15 * 64 + 15) = false) ∧
    (Admits st m0 3) :=
  ⟨by decide +kernel, by decide +kernel, by decide +kernel, by decide +kernel, by decide +kernel, by decide +kernel,
    by decide +kernel, by decide +kernel, by decide +kernel, by decide +kernel, by decide +kernel, by decide +kernel,
    by decide +kernel, by decide +kernel, by decide +kernel, admits_of (by decide +kernel)⟩

theorem met_QuenchRequestsReachTheRoot :
    (Runs (st (gp 5 (2 ^ 32 - 1))) sc ∧ 0#5 ≠ statusReg ∧ 3 ≤ (st (gp 5 (2 ^ 32 - 1))).hub.coreLevel sc ∧ (st (gp 5 (2
      ^ 32 - 1))).hub.openTxn (Master.core sc) = none ∧ BitVec.toNat ((st (gp 5 (2 ^ 32 - 1))).hub.gpr sc 5#5) ≠ 0 ∧
      BitVec.toNat ((st (gp 5 (2 ^ 32 - 1))).hub.gpr sc 5#5) < 2 ^ 32 ∧ (st (gp 5 (2 ^ 32 - 1))).hub.rootRefusal =
      none ∧ maskDiff (BitVec.toNat ((st (gp 5 (2 ^ 32 - 1))).hub.gpr sc 5#5)) (st (gp 5 (2 ^ 32 - 1))).hub.resetDies
      ≠ 0) ∧
    (Runs (st (gp 5 (2 ^ 32 - 1))) sc ∧ 0#5 ≠ statusReg ∧ 3 ≤ (st (gp 5 (2 ^ 32 - 1))).hub.coreLevel sc ∧ (st (gp 5 (2
      ^ 32 - 1))).hub.openTxn (Master.core sc) = none ∧ (BitVec.toNat ((st (gp 5 (2 ^ 32 - 1))).hub.gpr sc 0#5) = 0 ∨
      2 ^ 32 ≤ BitVec.toNat ((st (gp 5 (2 ^ 32 - 1))).hub.gpr sc 0#5))) ∧
    (Runs (Tests.st (gp 5 5 ∘ retiredX)) sc ∧ 0#5 ≠ statusReg ∧ 3 ≤ (Tests.st (gp 5 5 ∘ retiredX)).hub.coreLevel sc ∧
      (Tests.st (gp 5 5 ∘ retiredX)).hub.openTxn (Master.core sc) = none ∧ BitVec.toNat ((Tests.st (gp 5 5 ∘
      retiredX)).hub.gpr sc 5#5) ≠ 0 ∧ BitVec.toNat ((Tests.st (gp 5 5 ∘ retiredX)).hub.gpr sc 5#5) < 2 ^ 32 ∧
      (Tests.st (gp 5 5 ∘ retiredX)).hub.rootRefusal = some Status.retired) ∧
    (Admits (st (gp 5 (2 ^ 32 - 1))) m0 3 ∧ sc ≠ 0 ∧ sc < 2 ^ 32 ∧ ((st (gp 5 (2 ^ 32 - 1))).hub.master m0).qchBusy =
      false) ∧
    (Admits (st quenchBusy) m0 3 ∧ sc ≠ 0 ∧ sc < 2 ^ 32 ∧ ((st quenchBusy).hub.master m0).qchBusy = true) :=
  ⟨⟨runs_of (by decide +kernel), by decide +kernel⟩, ⟨runs_of (by decide +kernel), by decide +kernel⟩, ⟨runs_of
    (by decide +kernel), by decide +kernel⟩, ⟨admits_of (by decide +kernel), by decide +kernel⟩, ⟨admits_of
    (by decide +kernel), by decide +kernel⟩⟩

theorem met_RecipesLoad :
    (Admits st m0 3 ∧ scratch < 2 ^ 48 ∧ 4 * 2048 + 2032 < 2 ^ 16 ∧ loadRefusal scratch (4 * 2048 + 2032) = none ∧
      isHearthCore (4 * 2048 + 2032) = true ∧ dieOf (4 * 2048 + 2032) ≠ st.hub.hearthDie) ∧
    (Admits st m0 3 ∧ scratch < 2 ^ 48 ∧ sc < 2 ^ 16 ∧ loadRefusal scratch sc = none ∧ (isHearthCore sc = false ∨
      dieOf sc = st.hub.hearthDie) ∧ st.hub.load = none) ∧
    (Admits (st (loading sc 4 ∘ recipe 4 0)) m0 3 ∧ scratch < 2 ^ 48 ∧ sc < 2 ^ 16 ∧ loadRefusal scratch sc = none ∧
      (isHearthCore sc = false ∨ dieOf sc = (st (loading sc 4 ∘ recipe 4 0)).hub.hearthDie) ∧ (st (loading sc 4 ∘
      recipe 4 0)).hub.load ≠ none) ∧
    (∃ x, x ∈ (st (loading sc 4 ∘ recipe 4 0)).hub.load ∧ coreOk x.target = true) :=
  ⟨⟨admits_of (by decide +kernel), by decide +kernel⟩, ⟨admits_of (by decide +kernel), by decide +kernel⟩, ⟨admits_of
    (by decide +kernel), by decide +kernel⟩, by decide +kernel⟩

theorem met_RecoveryCommands :
    (Admits st m0 3 ∧ 7 < 8 ∧ 4 < 7 ∧ 7 < 16) ∧
    (Admits (Tests.st retiredX) m0 3 ∧ 7 < 8 ∧ (Tests.st retiredX).hub.rcvBarred = some Status.retired ∧ 4 ≤ 4) ∧
    (Admits (st (laneX 7 9 id ∘ Hub.setFenced 7 true)) m0 3 ∧ 7 < 8 ∧ (st (laneX 7 9 id ∘ Hub.setFenced 7
      true)).hub.rcvBarred = none ∧ 4 ≤ 4 ∧ ((st (laneX 7 9 id ∘ Hub.setFenced 7 true)).hub.step 7 ≠ 0 ∨ (st (laneX 7
      9 id ∘ Hub.setFenced 7 true)).hub.fenceWaits 7 = true)) ∧
    (Admits st m0 3 ∧ 7 < 8 ∧ st.hub.rcvBarred = none ∧ st.hub.step 7 ≠ 9) ∧
    (Admits st m0 3 ∧ 7 < 8 ∧ st.hub.rcvBarred = none ∧ st.hub.Quiet ∧ st.hub.failover = false ∧ 4 ≤ 4 ∧ st.hub.step 7
      = 0 ∧ st.hub.get F.HRT_EMBER_STATUS_phase = 0 ∧ st.hub.fenceWaits 7 = false) ∧
    (Admits (st (laneX 7 9 id ∘ Hub.setFenced 7 true)) m0 3 ∧ 7 < 8 ∧ (st (laneX 7 9 id ∘ Hub.setFenced 7
      true)).hub.rcvBarred = none ∧ (st (laneX 7 9 id ∘ Hub.setFenced 7 true)).hub.Quiet ∧ (st (laneX 7 9 id ∘
      Hub.setFenced 7 true)).hub.failover = false ∧ (st (laneX 7 9 id ∘ Hub.setFenced 7 true)).hub.step 7 = 9 ∧ (st
      (laneX 7 9 id ∘ Hub.setFenced 7 true)).hub.flag F.RCV_CFG_incident_en = false ∧ ((st (laneX 7 9 id ∘
      Hub.setFenced 7 true)).hub.lane 7).escalate = none) ∧
    (Admits (st failing) m0 3 ∧ 7 < 8 ∧ (st failing).hub.rcvBarred = none ∧ (st failing).hub.failover = true ∧ 4 ≤ 4 ∧
      (st failing).hub.step 7 = 0 ∧ (st failing).hub.fenceWaits 7 = false) ∧
    (Admits (st (failing ∘ laneX 7 9 id ∘ Hub.setFenced 7 true)) m0 3 ∧ 7 < 8 ∧ (st (failing ∘ laneX 7 9 id ∘
      Hub.setFenced 7 true)).hub.rcvBarred = none ∧ (st (failing ∘ laneX 7 9 id ∘ Hub.setFenced 7 true)).hub.failover
      = true ∧ (st (failing ∘ laneX 7 9 id ∘ Hub.setFenced 7 true)).hub.step 7 = 9) ∧
    (Admits st m0 3 ∧ 47 < 65536 ∧ st.hub.Quiet ∧ unitOk 47 = false) ∧
    (Admits (st (unitIs 4)) m0 3 ∧ unit8 < 65536 ∧ (st (unitIs 4)).hub.Quiet ∧ unitOk unit8 = true ∧ (st (unitIs
      4)).hub.spokeOn (dieOf unit8) = true ∧ (st (unitIs 4)).hub.rcvBarred = none ∧ (st (unitIs 4)).hub.runState unit8
      = RunState.quenched) ∧
    (Admits (st (unitIs 5)) m0 3 ∧ unit8 < 65536 ∧ (st (unitIs 5)).hub.Quiet ∧ unitOk unit8 = true ∧ (st (unitIs
      5)).hub.spokeOn (dieOf unit8) = true ∧ (st (unitIs 5)).hub.rcvBarred = none ∧ (st (unitIs 5)).hub.runState unit8
      = RunState.gated) ∧
    (Admits (st (unitIs 6)) m0 3 ∧ unit8 < 65536 ∧ (st (unitIs 6)).hub.Quiet ∧ unitOk unit8 = true ∧ (st (unitIs
      6)).hub.spokeOn (dieOf unit8) = true ∧ (st (unitIs 6)).hub.rcvBarred = none ∧ (st (unitIs 6)).hub.runState unit8
      = RunState.resetting) ∧
    (Admits st m0 3 ∧ 7 < 65536 ∧ st.hub.Quiet ∧ unitOk 7 = true ∧ st.hub.spokeOn (dieOf 7) = true ∧ st.hub.rcvBarred
      = none ∧ st.hub.runState 7 = RunState.running ∧ linkOfUnit 7 = none) ∧
    (Admits st m0 3 ∧ unit8 < 65536 ∧ 48 ≤ unit8) ∧
    (Admits (st (laneX 7 9 id ∘ Hub.setFenced 7 true)) m0 3 ∧ 47 < 65536 ∧ 47 < 48 ∧ (st (laneX 7 9 id ∘ Hub.setFenced
      7 true)).hub.rcvBarred = none ∧ (¬((st (laneX 7 9 id ∘ Hub.setFenced 7 true)).hub.linkState 47 = 0 ∨ (st (laneX
      7 9 id ∘ Hub.setFenced 7 true)).hub.linkState 47 = 5) ∨ (st (laneX 7 9 id ∘ Hub.setFenced 7 true)).hub.step (47
      / 6) ≠ 0)) ∧
    (Admits (st (Hub.uput F.SPK_UNIT_STATE_state (unitOfLink 47) 3)) m0 3 ∧ 47 < 65536 ∧ 47 < 48 ∧ (st (Hub.uput
      F.SPK_UNIT_STATE_state (unitOfLink 47) 3)).hub.rcvBarred = none ∧ ((st (Hub.uput F.SPK_UNIT_STATE_state
      (unitOfLink 47) 3)).hub.linkState 47 = 0 ∨ (st (Hub.uput F.SPK_UNIT_STATE_state (unitOfLink 47)
      3)).hub.linkState 47 = 5) ∧ (st (Hub.uput F.SPK_UNIT_STATE_state (unitOfLink 47) 3)).hub.step (47 / 6) = 0 ∧ (st
      (Hub.uput F.SPK_UNIT_STATE_state (unitOfLink 47) 3)).hub.runState (unitOfLink 47) ≠ RunState.running) ∧
    (Admits st m0 3 ∧ 7 < 65536 ∧ 7 < 48 ∧ st.hub.rcvBarred = none ∧ (st.hub.linkState 7 = 0 ∨ st.hub.linkState 7 = 5)
      ∧ st.hub.step (7 / 6) = 0 ∧ st.hub.runState (unitOfLink 7) = RunState.running) :=
  ⟨⟨admits_of (by decide +kernel), by decide +kernel⟩, ⟨admits_of (by decide +kernel), by decide +kernel⟩, ⟨admits_of
    (by decide +kernel), by decide +kernel⟩, ⟨admits_of (by decide +kernel), by decide +kernel⟩, ⟨admits_of
    (by decide +kernel), by decide +kernel, by decide +kernel, quiet_of (by decide +kernel), by decide +kernel⟩,
    ⟨admits_of (by decide +kernel), by decide +kernel, by decide +kernel, quiet_of (by decide +kernel),
    by decide +kernel⟩, ⟨admits_of (by decide +kernel), by decide +kernel⟩, ⟨admits_of (by decide +kernel),
    by decide +kernel⟩, ⟨admits_of (by decide +kernel), by decide +kernel, quiet_of (by decide +kernel),
    by decide +kernel⟩, ⟨admits_of (by decide +kernel), by decide +kernel, quiet_of (by decide +kernel),
    by decide +kernel⟩, ⟨admits_of (by decide +kernel), by decide +kernel, quiet_of (by decide +kernel),
    by decide +kernel⟩, ⟨admits_of (by decide +kernel), by decide +kernel, quiet_of (by decide +kernel),
    by decide +kernel⟩, ⟨admits_of (by decide +kernel), by decide +kernel, quiet_of (by decide +kernel),
    by decide +kernel⟩, ⟨admits_of (by decide +kernel), by decide +kernel⟩, ⟨admits_of (by decide +kernel),
    by decide +kernel⟩, ⟨admits_of (by decide +kernel), by decide +kernel⟩, ⟨admits_of (by decide +kernel),
    by decide +kernel⟩⟩

theorem met_RecoveryLanesAdvance :
    (7 < 8 ∧ (st (laneX 7 2 (drainFor 2000000))).hub.Quiet ∧ (st (laneX 7 2 (drainFor 2000000))).hub.failover = false
      ∧ ((st (laneX 7 2 (drainFor 2000000))).hub.lane 7).escalate = none ∧ (st (laneX 7 2 (drainFor
      2000000))).hub.laneDrainDue 7 = some 2000000 ∧ ((st (laneX 7 2 (drainFor 2000000))).hub.lane 7).fenceOnly =
      true) ∧
    (7 < 8 ∧ (st (laneX 7 4 (holdFor 2000000))).hub.Quiet ∧ (st (laneX 7 4 (holdFor 2000000))).hub.failover = false ∧
      ((st (laneX 7 4 (holdFor 2000000))).hub.lane 7).escalate = none ∧ (st (laneX 7 4 (holdFor
      2000000))).hub.laneHoldDue 7 = some 2000000 ∧ (st (laneX 7 4 (holdFor 2000000))).hub.partitionQuenched 7 = false
      ∧ ((st (laneX 7 4 (holdFor 2000000))).hub.lane 7).asked = true ∧ (st (laneX 7 4 (holdFor
      2000000))).hub.resetStarts = [] ∧ 1 < (st (laneX 7 4 (holdFor 2000000))).hub.get F.RCV_CFG_esc_limit) ∧
    (7 < 8 ∧ (st (laneX 7 5 (releaseAt 2000000))).hub.Quiet ∧ (st (laneX 7 5 (releaseAt 2000000))).hub.failover =
      false ∧ ((st (laneX 7 5 (releaseAt 2000000))).hub.lane 7).escalate = none ∧ ((st (laneX 7 5 (releaseAt
      2000000))).hub.lane 7).release = some 2000000) ∧
    (7 < 8 ∧ (st (laneX 7 5 (checkAt 2000000))).hub.Quiet ∧ (st (laneX 7 5 (checkAt 2000000))).hub.failover = false ∧
      ((st (laneX 7 5 (checkAt 2000000))).hub.lane 7).escalate = none ∧ ((st (laneX 7 5 (checkAt 2000000))).hub.lane
      7).check = some 2000000 ∧ (∀ (u : Nat), u ∈ partitionUnits 7 → (st (laneX 7 5 (checkAt 2000000))).hub.runState u
      ≠ RunState.resetting ∧ (st (laneX 7 5 (checkAt 2000000))).hub.runState u ≠ RunState.unresponsive)) ∧
    (7 < 8 ∧ (st (laneX 7 7 id ∘ Hub.setFenced 7 true)).hub.Quiet ∧ (st (laneX 7 7 id ∘ Hub.setFenced 7
      true)).hub.failover = false ∧ ((st (laneX 7 7 id ∘ Hub.setFenced 7 true)).hub.lane 7).escalate = none ∧ (st
      (laneX 7 7 id ∘ Hub.setFenced 7 true)).hub.step 7 = 7) ∧
    (7 < 8 ∧ (st (laneX 7 6 (limitAt 2000000))).hub.Quiet ∧ (st (laneX 7 6 (limitAt 2000000))).hub.failover = false ∧
      ((st (laneX 7 6 (limitAt 2000000))).hub.lane 7).escalate = none ∧ (st (laneX 7 6 (limitAt
      2000000))).hub.laneLimitDue 7 = some 2000000 ∧ (st (laneX 7 6 (limitAt 2000000))).hub.retired = false) ∧
    (7 < 8 ∧ st.hub.laneDrainDue 7 = none) ∧
    (7 < 8 ∧ st.hub.laneHoldDue 7 = none) ∧
    (7 < 8 ∧ (st.hub.lane 7).release = none) ∧
    (7 < 8 ∧ st.hub.laneCheckDue 7 = none) ∧
    (7 < 8 ∧ st.hub.step 7 ≠ 7) ∧
    (7 < 8 ∧ st.hub.laneLimitDue 7 = none) ∧
    (7 < 8 ∧ (st (Hub.setFenced 7 true)).hub.refusesWork 7 NewWork.pcie = true) ∧
    (7 < 8 ∧ st.hub.refusesWork 7 NewWork.pcie = false) ∧
    (7 < 16 ∧ (st.hub.step (7 / 2) ≠ 4 ∨ (st.hub.lane (7 / 2)).asked = false)) ∧
    (15 < 16 ∧ (st (laneX 7 4 (holdFor 2000000))).hub.step (15 / 2) = 4 ∧ ((st (laneX 7 4 (holdFor 2000000))).hub.lane
      (15 / 2)).asked = true ∧ ((st (laneX 7 4 (holdFor 2000000))).hub.failover = true ∨ (st (laneX 7 4 (holdFor
      2000000))).hub.partitionQuenched (15 / 2) = true ∨ (st (laneX 7 4 (holdFor 2000000))).hub.sget (if 15 % 2 = 0
      then F.ANV_RCV_STATUS_sr_b else F.ANV_RCV_STATUS_sr_a) (15 / 2) = 0 ∧ ((st (laneX 7 4 (holdFor
      2000000))).hub.lane (15 / 2)).holdOver = false) ∧ ((st (laneX 7 4 (holdFor 2000000))).hub.failover = true ∨ ((st
      (laneX 7 4 (holdFor 2000000))).hub.lane (15 / 2)).escalate = none)) ∧
    (15 < 16 ∧ (st (laneX 7 4 askedIt ∘ Hub.sput F.ANV_RCV_STATUS_sr_a 7 0 1)).hub.step (15 / 2) = 4 ∧ ((st (laneX 7 4
      askedIt ∘ Hub.sput F.ANV_RCV_STATUS_sr_a 7 0 1)).hub.lane (15 / 2)).asked = true ∧ (st (laneX 7 4 askedIt ∘
      Hub.sput F.ANV_RCV_STATUS_sr_a 7 0 1)).hub.failover = false ∧ (st (laneX 7 4 askedIt ∘ Hub.sput
      F.ANV_RCV_STATUS_sr_a 7 0 1)).hub.partitionQuenched (15 / 2) = false ∧ (st (laneX 7 4 askedIt ∘ Hub.sput
      F.ANV_RCV_STATUS_sr_a 7 0 1)).hub.sget (if 15 % 2 = 0 then F.ANV_RCV_STATUS_sr_b else F.ANV_RCV_STATUS_sr_a) (15
      / 2) = 1 ∧ ((st (laneX 7 4 askedIt ∘ Hub.sput F.ANV_RCV_STATUS_sr_a 7 0 1)).hub.lane (15 / 2)).escalate = none ∧
      (st (laneX 7 4 askedIt ∘ Hub.sput F.ANV_RCV_STATUS_sr_a 7 0 1)).hub.Quiet ∧ (st (laneX 7 4 askedIt ∘ Hub.sput
      F.ANV_RCV_STATUS_sr_a 7 0 1)).hub.resetStarts = [] ∧ 1 < (st (laneX 7 4 askedIt ∘ Hub.sput F.ANV_RCV_STATUS_sr_a
      7 0 1)).hub.get F.RCV_CFG_esc_limit) ∧
    (31 < 32 ∧ (st (laneX 7 6 (trains [(31, 0)] [(47, 1)]))).hub.seq = none ∧ (st (laneX 7 6 (trains [(31, 0)] [(47,
      1)]))).hub.step (31 / 4) = 6 ∧ aFind 31 ((st (laneX 7 6 (trains [(31, 0)] [(47, 1)]))).hub.lane (31 / 4)).mem =
      some 0 ∧ ((st (laneX 7 6 (trains [(31, 0)] [(47, 1)]))).hub.lane (31 / 4)).links ≠ [] ∧ ((st (laneX 7 6 (trains
      [(31, 0)] [(47, 1)]))).hub.lane (31 / 4)).escalate = none) ∧
    (47 < 48 ∧ (st (laneX 7 6 (trains [(31, 0)] [(47, 1)]))).hub.seq = none ∧ (st (laneX 7 6 (trains [(31, 0)] [(47,
      1)]))).hub.step (47 / 6) = 6 ∧ aFind 47 ((st (laneX 7 6 (trains [(31, 0)] [(47, 1)]))).hub.lane (47 / 6)).links
      = some 1 ∧ 1 < 2 ∧ ((st (laneX 7 6 (trains [(31, 0)] [(47, 1)]))).hub.lane (47 / 6)).escalate = none) ∧
    (47 < 48 ∧ (st (laneX 7 6 (trains [(31, 0)] [(47, 1)]))).hub.seq = none ∧ (st (laneX 7 6 (trains [(31, 0)] [(47,
      1)]))).hub.step (47 / 6) = 6 ∧ (st (laneX 7 6 (trains [(31, 0)] [(47, 1)]))).hub.failover = false ∧ aFind 47
      ((st (laneX 7 6 (trains [(31, 0)] [(47, 1)]))).hub.lane (47 / 6)).links = some 1 ∧ ((st (laneX 7 6 (trains [(31,
      0)] [(47, 1)]))).hub.lane (47 / 6)).escalate = none ∧ (st (laneX 7 6 (trains [(31, 0)] [(47,
      1)]))).hub.bankCause 47 = 0) ∧
    (unitOk unit8 = true ∧ (st (unitIs 6 ∘ resetAt 2000000 false)).hub.runState unit8 = RunState.resetting ∧ ((st
      (unitIs 6 ∘ resetAt 2000000 false)).hub.unit unit8).resetDue = some 2000000) ∧
    (unitOk 7 = true ∧ (st.hub.unit 7).resetDue = none) :=
  ⟨⟨by decide +kernel, quiet_of (by decide +kernel), by decide +kernel⟩, ⟨by decide +kernel, quiet_of
    (by decide +kernel), by decide +kernel⟩, ⟨by decide +kernel, quiet_of (by decide +kernel), by decide +kernel⟩,
    ⟨by decide +kernel, quiet_of (by decide +kernel), by decide +kernel⟩, ⟨by decide +kernel, quiet_of
    (by decide +kernel), by decide +kernel⟩, ⟨by decide +kernel, quiet_of (by decide +kernel), by decide +kernel⟩,
    by decide +kernel, by decide +kernel, by decide +kernel, by decide +kernel, by decide +kernel, by decide +kernel,
    by decide +kernel, by decide +kernel, by decide +kernel, by decide +kernel, ⟨by decide +kernel, by decide +kernel,
    by decide +kernel, by decide +kernel, by decide +kernel, by decide +kernel, by decide +kernel, quiet_of
    (by decide +kernel), by decide +kernel⟩, by decide +kernel, by decide +kernel, by decide +kernel,
    by decide +kernel, by decide +kernel⟩

theorem met_RefusedBelowLevel :
    (m0.ok = true ∧ (st (pf F.AUT_SESS_level 2)).hub.openTxn m0 = none ∧ (st (pf F.AUT_SESS_level 2)).hub.levelOf m0 <
      3 ∧ 31 < 32) ∧
    (m0.ok = true ∧ (st (pf F.AUT_SESS_level 2)).hub.openTxn m0 = none ∧ (st (pf F.AUT_SESS_level 2)).hub.levelOf m0 <
      4) :=
  ⟨by decide +kernel, by decide +kernel⟩

theorem met_ReheatPhasesAndRelease :
    (Runs (st (quenched 257 ∘ gp 5 257)) sc ∧ 0#5 ≠ statusReg ∧ 3 ≤ (st (quenched 257 ∘ gp 5 257)).hub.coreLevel sc ∧
      (st (quenched 257 ∘ gp 5 257)).hub.openTxn (Master.core sc) = none ∧ BitVec.toNat ((st (quenched 257 ∘ gp 5
      257)).hub.gpr sc 5#5) ≠ 0 ∧ BitVec.toNat ((st (quenched 257 ∘ gp 5 257)).hub.gpr sc 5#5) < 2 ^ 32 ∧ (st
      (quenched 257 ∘ gp 5 257)).hub.reheatRefusal (BitVec.toNat ((st (quenched 257 ∘ gp 5 257)).hub.gpr sc 5#5)) =
      none) ∧
    (Runs (Tests.st (gp 5 257)) sc ∧ 0#5 ≠ statusReg ∧ 3 ≤ (Tests.st (gp 5 257)).hub.coreLevel sc ∧ (Tests.st (gp 5
      257)).hub.openTxn (Master.core sc) = none ∧ BitVec.toNat ((Tests.st (gp 5 257)).hub.gpr sc 5#5) ≠ 0 ∧
      BitVec.toNat ((Tests.st (gp 5 257)).hub.gpr sc 5#5) < 2 ^ 32 ∧ (∃ st, st ∈ (Tests.st (gp 5
      257)).hub.reheatRefusal (BitVec.toNat ((Tests.st (gp 5 257)).hub.gpr sc 5#5)) ∧ True)) ∧
    (Admits (st (quenched 257 ∘ gp 5 257)) m0 3 ∧ sc ≠ 0 ∧ sc < 2 ^ 32 ∧ ((st (quenched 257 ∘ gp 5 257)).hub.master
      m0).qchBusy = false ∧ (st (quenched 257 ∘ gp 5 257)).hub.reheatRefusal sc = none) ∧
    (Admits (Tests.st (quenched 257 ∘ gp 5 257)) m0 3 ∧ 50 ≠ 0 ∧ 50 < 2 ^ 32 ∧ ((Tests.st (quenched 257 ∘ gp 5
      257)).hub.master m0).qchBusy = false ∧ (Tests.st (quenched 257 ∘ gp 5 257)).hub.reheatRefusal 50 = some
      Status.notHeld) ∧
    (Admits (st quenchBusy) m0 3 ∧ sc ≠ 0 ∧ sc < 2 ^ 32 ∧ ((st quenchBusy).hub.master m0).qchBusy = true) ∧
    ((st (quenched 257 ∘ reheats 257 none 1)).hub.reheat = some (reheatX 257 none) ∧ (st (quenched 257 ∘ reheats 257
      none 1)).hub.reheatDue = some 50) ∧
    ((st (quenched 257 ∘ reheats 257 (some 60) 2 ∘ ramping (ramp none true) ∘ ballast 9)).hub.reheat = some (reheatX
      257 (some 60)) ∧ (st (quenched 257 ∘ reheats 257 (some 60) 2 ∘ ramping (ramp none true) ∘ ballast
      9)).hub.drainDue = some 100) ∧
    ((st (quenched 257 ∘ reheats 257 (some 60) 4)).hub.reheat = some (reheatX 257 (some 60)) ∧ (st (quenched 257 ∘
      reheats 257 (some 60) 4)).hub.get F.HRT_QCH_STATUS_reheat_phase = 4) ∧
    ((st (quenched 257 ∘ gp 5 257)).hub.get F.HRT_QCH_STATUS_reheat_phase ≠ 4) :=
  ⟨⟨runs_of (by decide +kernel), by decide +kernel⟩, ⟨runs_of (by decide +kernel), by decide +kernel⟩, ⟨admits_of
    (by decide +kernel), by decide +kernel⟩, ⟨admits_of (by decide +kernel), by decide +kernel⟩, ⟨admits_of
    (by decide +kernel), by decide +kernel⟩, by decide +kernel, by decide +kernel, by decide +kernel,
    by decide +kernel⟩

theorem met_ReplicasTrimsAndAlignment :
    (31 < 32 ∧ (notStarted.hub.trim 31 - (notStarted.hub.spoke 31).lag + 0).natAbs ≤ 1) ∧
    (31 < 32 ∧ 1 < (notStarted.hub.trim 31 - (notStarted.hub.spoke 31).lag + 40).natAbs) ∧
    (31 < 32 ∧ Admits notStarted m0 3) ∧
    (31 < 32 ∧ (notStarted.hub.spoke 31).trimLeft = 0) ∧
    (8 < 32 ∧ ((st (trims 3)).hub.spoke 8).trimLeft ≠ 0) ∧
    (notStarted.hub.get F.TIM_XCHIP_CFG_role ≠ 2) ∧
    ((st (role 2 1 0 0 ∘ linkX 0 2 false id)).hub.follows = true ∧ (st (role 2 1 0 0 ∘ linkX 0 2 false
      id)).hub.parentUp = true) ∧
    ((st (role 2 2 0 2)).hub.follows = true ∧ (st (role 2 2 0 2)).hub.get F.TIM_STATUS_xchip_state = 2) ∧
    (Admits notStarted m0 3 ∧ notStarted.hub.owedStep = 0) :=
  ⟨by decide +kernel, by decide +kernel, ⟨by decide +kernel, admits_of (by decide +kernel)⟩, by decide +kernel,
    by decide +kernel, by decide +kernel, by decide +kernel, by decide +kernel, ⟨admits_of (by decide +kernel),
    by decide +kernel⟩⟩

theorem met_ResetsRestartsAndEmber :
    (st.hub.seq.bind SeqX.release = none) ∧
    (∃ d, d ∈ (st (sequence (some 2000000) false)).hub.seq.bind SeqX.release ∧ True) ∧
    (∀ (x : SeqX), st.hub.seq = some x → x.mem ≠ [] ∨ x.last = false) ∧
    (∃ x, x ∈ (st (sequence none true)).hub.seq ∧ x.mem = [] ∧ x.last = true ∧ (st (sequence none
      true)).hub.boot.done.contains 6 = true) ∧
    (st.hub.chipReset = none) ∧
    (∃ b, b ∈ (st (sequence (some 2000000) false)).hub.chipReset ∧ (st (sequence (some 2000000) false)).hub.retired =
      false) ∧
    (¬((st (bootAt 1 [] id)).hub.chipReset.isSome = true ∨ (st (bootAt 1 [] id)).hub.boot.done.contains 7 = true ∨ (st
      (bootAt 1 [] id)).hub.boot.restart = true)) ∧
    (st.hub.chipReset.isSome = true ∨ st.hub.boot.done.contains 7 = true ∨ st.hub.boot.restart = true) ∧
    (Admits (st (bootAt 1 [] id)) m0 4 ∧ ((st (bootAt 1 [] id)).hub.booting = true ∨ (st (bootAt 1 []
      id)).hub.failover = true)) ∧
    (Admits (st (pf F.HRT_STATE_standby_ready 1)) m0 4 ∧ (st (pf F.HRT_STATE_standby_ready 1)).hub.booting = false ∧
      (st (pf F.HRT_STATE_standby_ready 1)).hub.failover = false ∧ (st (pf F.HRT_STATE_standby_ready 1)).hub.flag
      F.HRT_STATE_standby_ready = true) ∧
    (Admits st m0 4 ∧ st.hub.booting = false ∧ st.hub.failover = false ∧ st.hub.flag F.HRT_STATE_standby_ready =
      false) ∧
    (Admits st m0 3 ∧ (¬(st.hub.boot.failed = true ∧ st.hub.boot.done.contains 1 = true))) ∧
    (Admits (st (bootAt 5 [1, 2] bootFailed)) m0 3 ∧ ((st (bootAt 5 [1, 2] bootFailed)).hub.boot.failed = true ∧ (st
      (bootAt 5 [1, 2] bootFailed)).hub.boot.done.contains 1 = true)) ∧
    (Admits (st (bootAt 1 [] id)) m0 3 ∧ (st (bootAt 1 [] id)).hub.emberBusy = true) ∧
    (Admits st m0 3 ∧ st.hub.emberBusy = false) ∧
    (Admits st m0 3 ∧ st.hub.get F.HRT_EMBER_STATUS_phase = 0) ∧
    (Admits (st (ember 1)) m0 3 ∧ ((st (ember 1)).hub.get F.HRT_EMBER_STATUS_phase = 1 ∨ (st (ember 1)).hub.get
      F.HRT_EMBER_STATUS_phase = 2)) ∧
    (st.hub.get F.HRT_EMBER_STATUS_phase ≠ 1) ∧
    ((st (ember 1)).hub.get F.HRT_EMBER_STATUS_phase = 1) ∧
    (st.hub.get F.HRT_EMBER_STATUS_phase ≠ 3) ∧
    ((st (ember 3)).hub.get F.HRT_EMBER_STATUS_phase = 3 ∧ (st (ember 3)).hub.emberActs = []) ∧
    (96 < 119 ∧ (st (pf F.HRT_PWR_DOM_on 0 1)).hub.domainOn 96 = false) ∧
    (96 < 119 ∧ st.hub.domainOn 96 = true ∧ 96 ≤ 96 ∧ 96 < 112) ∧
    (117 < 119 ∧ st.hub.domainOn 117 = true ∧ 112 ≤ 117 ∧ 117 < 118 ∧ st.hub.failover = false ∧ (if 117 < 115 then 0
      else 4) ≠ st.hub.hearthDie) ∧
    (118 < 119 ∧ st.hub.domainOn 118 = true ∧ 118 = 118) :=
  ⟨by decide +kernel, by decide +kernel, by decide +kernel, by decide +kernel, by decide +kernel, by decide +kernel,
    by decide +kernel, by decide +kernel, ⟨admits_of (by decide +kernel), by decide +kernel⟩, ⟨admits_of
    (by decide +kernel), by decide +kernel⟩, ⟨admits_of (by decide +kernel), by decide +kernel⟩, ⟨admits_of
    (by decide +kernel), by decide +kernel⟩, ⟨admits_of (by decide +kernel), by decide +kernel⟩, ⟨admits_of
    (by decide +kernel), by decide +kernel⟩, ⟨admits_of (by decide +kernel), by decide +kernel⟩, ⟨admits_of
    (by decide +kernel), by decide +kernel⟩, ⟨admits_of (by decide +kernel), by decide +kernel⟩, by decide +kernel,
    by decide +kernel, by decide +kernel, by decide +kernel, by decide +kernel, by decide +kernel, by decide +kernel,
    by decide +kernel⟩

theorem met_RunControlInstructions :
    (Runs (st (winTarget 0 ∘ unitIs 2)) sc ∧ 0#5 ≠ statusReg ∧ BitVec.toNat ((st (winTarget 0 ∘ unitIs 2)).hub.gpr sc
      5#5) = unit8 ∧ unitOk unit8 = true ∧ (st (winTarget 0 ∘ unitIs 2)).hub.spokeOn (dieOf unit8) = true ∧ 3 ≤ (st
      (winTarget 0 ∘ unitIs 2)).hub.coreLevel sc ∧ (st (winTarget 0 ∘ unitIs 2)).hub.openTxn (Master.core sc) = none ∧
      (st (winTarget 0 ∘ unitIs 2)).hub.retired = false ∧ (st (winTarget 0 ∘ unitIs 2)).hub.cmds = [] ∧ (st (winTarget
      0 ∘ unitIs 2)).hub.runState unit8 = RunState.halted ∧ ((st (winTarget 0 ∘ unitIs 2)).hub.unit unit8).step = none
      ∧ (st (winTarget 0 ∘ unitIs 2)).hub.pokesOf unit8 = [] ∧ linkOfUnit unit8 = none) ∧
    (Runs (st (winTarget 0 ∘ unitIs 2)) sc ∧ 0#5 ≠ statusReg ∧ BitVec.toNat ((st (winTarget 0 ∘ unitIs 2)).hub.gpr sc
      5#5) = unit8 ∧ unitOk unit8 = true ∧ (st (winTarget 0 ∘ unitIs 2)).hub.spokeOn (dieOf unit8) = true ∧ 3 ≤ (st
      (winTarget 0 ∘ unitIs 2)).hub.coreLevel sc ∧ (st (winTarget 0 ∘ unitIs 2)).hub.openTxn (Master.core sc) = none ∧
      (st (winTarget 0 ∘ unitIs 2)).hub.retired = false ∧ (st (winTarget 0 ∘ unitIs 2)).hub.cmds = [] ∧ (st (winTarget
      0 ∘ unitIs 2)).hub.runState unit8 = RunState.halted ∧ ((st (winTarget 0 ∘ unitIs 2)).hub.unit unit8).step = none
      ∧ 0 < BitVec.toNat ((st (winTarget 0 ∘ unitIs 2)).hub.gpr sc 5#5) ∧ BitVec.toNat ((st (winTarget 0 ∘ unitIs
      2)).hub.gpr sc 5#5) < 65536) ∧
    (Runs (st (winTarget 0 ∘ unitIs 0)) sc ∧ 0#5 ≠ statusReg ∧ BitVec.toNat ((st (winTarget 0 ∘ unitIs 0)).hub.gpr sc
      0#5) = 0 ∧ unitOk 0 = true ∧ (st (winTarget 0 ∘ unitIs 0)).hub.spokeOn (dieOf 0) = true ∧ 3 ≤ (st (winTarget 0 ∘
      unitIs 0)).hub.coreLevel sc ∧ (st (winTarget 0 ∘ unitIs 0)).hub.openTxn (Master.core sc) = none ∧ (st (winTarget
      0 ∘ unitIs 0)).hub.retired = false ∧ (st (winTarget 0 ∘ unitIs 0)).hub.cmds = [] ∧ (st (winTarget 0 ∘ unitIs
      0)).hub.runState 0 = RunState.running ∧ 0 < BitVec.toNat ((st (winTarget 0 ∘ unitIs 0)).hub.gpr sc 5#5) ∧
      BitVec.toNat ((st (winTarget 0 ∘ unitIs 0)).hub.gpr sc 5#5) < 65536) :=
  ⟨⟨runs_of (by decide +kernel), by decide +kernel⟩, ⟨runs_of (by decide +kernel), by decide +kernel⟩, ⟨runs_of
    (by decide +kernel), by decide +kernel⟩⟩

theorem met_RunControlRegister :
    (Admits (st (winTarget 0 ∘ unitIs 2)) m0 3 ∧ (st (winTarget 0 ∘ unitIs 2)).hub.get F.HRT_RC_RVEC_capacity m0.idx =
      0 ∧ ((st (winTarget 0 ∘ unitIs 2)).hub.master m0).rcCmd = none ∧ (st (winTarget 0 ∘ unitIs 2)).hub.cmds = [] ∧
      (st (winTarget 0 ∘ unitIs 2)).hub.retired = false ∧ unitOk unit8 = true ∧ (st (winTarget 0 ∘ unitIs
      2)).hub.spokeOn (dieOf unit8) = true ∧ (false = false ∧ unit8 = unit8 ∨ false = true ∧ unit8 < 256 ∧ (st
      (winTarget 0 ∘ unitIs 2)).hub.groupUnits unit8 = [unit8]) ∧ (st (winTarget 0 ∘ unitIs 2)).hub.runState unit8 =
      RunState.halted ∧ ((st (winTarget 0 ∘ unitIs 2)).hub.unit unit8).step = none ∧ (st (winTarget 0 ∘ unitIs
      2)).hub.pokesOf unit8 = [] ∧ linkOfUnit unit8 = none) ∧
    (Admits (st (winTarget 0 ∘ unitIs 2)) m0 3 ∧ (st (winTarget 0 ∘ unitIs 2)).hub.get F.HRT_RC_RVEC_capacity m0.idx =
      0 ∧ ((st (winTarget 0 ∘ unitIs 2)).hub.master m0).rcCmd = none ∧ (st (winTarget 0 ∘ unitIs 2)).hub.cmds = [] ∧
      (st (winTarget 0 ∘ unitIs 2)).hub.retired = false ∧ unitOk unit8 = true ∧ (st (winTarget 0 ∘ unitIs
      2)).hub.spokeOn (dieOf unit8) = true ∧ (false = false ∧ unit8 = unit8 ∨ false = true ∧ unit8 < 256 ∧ (st
      (winTarget 0 ∘ unitIs 2)).hub.groupUnits unit8 = [unit8]) ∧ (st (winTarget 0 ∘ unitIs 2)).hub.runState unit8 =
      RunState.halted ∧ ((st (winTarget 0 ∘ unitIs 2)).hub.unit unit8).step = none ∧ 0 < unit8 ∧ unit8 < 65536) ∧
    (Admits (st (winTarget 0 ∘ unitIs 0)) m0 3 ∧ (st (winTarget 0 ∘ unitIs 0)).hub.get F.HRT_RC_RVEC_capacity m0.idx =
      0 ∧ ((st (winTarget 0 ∘ unitIs 0)).hub.master m0).rcCmd = none ∧ (st (winTarget 0 ∘ unitIs 0)).hub.cmds = [] ∧
      (st (winTarget 0 ∘ unitIs 0)).hub.retired = false ∧ unitOk unit8 = true ∧ (st (winTarget 0 ∘ unitIs
      0)).hub.spokeOn (dieOf unit8) = true ∧ (false = false ∧ unit8 = unit8 ∨ false = true ∧ unit8 < 256 ∧ (st
      (winTarget 0 ∘ unitIs 0)).hub.groupUnits unit8 = [unit8]) ∧ (st (winTarget 0 ∘ unitIs 0)).hub.runState unit8 =
      RunState.running ∧ 0 < unit8 ∧ unit8 < 65536) ∧
    (Admits (st (winTarget 0 ∘ unitIs 0)) m0 3 ∧ (st (winTarget 0 ∘ unitIs 0)).hub.get F.HRT_RC_RVEC_capacity m0.idx =
      0 ∧ ((st (winTarget 0 ∘ unitIs 0)).hub.master m0).rcCmd = none ∧ 65535 < 65536 ∧ unitOk 65535 = false) ∧
    (Admits (st rcBusy) m0 3 ∧ (st rcBusy).hub.get F.HRT_RC_RVEC_capacity m0.idx = 0 ∧ ((st rcBusy).hub.master
      m0).rcCmd ≠ none ∧ unitOk unit8 = true) :=
  ⟨⟨admits_of (by decide +kernel), by decide +kernel⟩, ⟨admits_of (by decide +kernel), by decide +kernel⟩, ⟨admits_of
    (by decide +kernel), by decide +kernel⟩, ⟨admits_of (by decide +kernel), by decide +kernel⟩, ⟨admits_of
    (by decide +kernel), by decide +kernel⟩⟩

theorem met_SessionsAreServed :
    (19 < 20 ∧ st.hub.served 19 = false ∧ 3 < 8) ∧
    (19 < 20 ∧ st.hub.served 19 = false ∧ 19 < 2 ^ 64) ∧
    (19 < 20 ∧ (st (sessionOpen 19 4 Chan.vyn ∘ vynUp)).hub.served 19 = true ∧ innerOpcodes.contains 19 = false) ∧
    (19 < 20 ∧ (st (sessionOpen 19 4 Chan.vyn ∘ vynUp)).hub.served 19 = true ∧ 4 < 8 ∧ (st (sessionOpen 19 4 Chan.vyn
      ∘ vynUp)).hub.session 19 = some (sessX Chan.vyn 3) ∧ min (sessX Chan.vyn 3).maxLevel (transportCap (sessX
      Chan.vyn 3).chan) < 4) ∧
    (19 < 20 ∧ (st (sessionOpen 19 4 Chan.vyn ∘ vynUp)).hub.served 19 = true ∧ 3 < 8 ∧ (st (sessionOpen 19 4 Chan.vyn
      ∘ vynUp)).hub.session 19 = some (sessX Chan.vyn 3) ∧ 3 ≤ min (sessX Chan.vyn 3).maxLevel (transportCap (sessX
      Chan.vyn 3).chan)) ∧
    (19 < 20 ∧ (st (sessionOpen 19 4 Chan.vyn ∘ vynUp)).hub.served 19 = true ∧ 19 < 2 ^ 64 ∧ (elements 19 19 = none ∨
      (Hub.hears (st (sessionOpen 19 4 Chan.vyn ∘ vynUp)).clk.chipTime 19 (st (sessionOpen 19 4 Chan.vyn ∘
      vynUp)).hub).readRoom 19 < 19)) ∧
    (19 < 20 ∧ (st (sessionOpen 19 4 Chan.vyn ∘ vynUp)).hub.served 19 = true ∧ 8 < 2 ^ 64 ∧ elements 8 8 = some 1 ∧ 8
      ≤ (Hub.hears (st (sessionOpen 19 4 Chan.vyn ∘ vynUp)).clk.chipTime 19 (st (sessionOpen 19 4 Chan.vyn ∘
      vynUp)).hub).readRoom 19 ∧ (Hub.busRead (st (sessionOpen 19 4 Chan.vyn ∘ vynUp)).clk.chipTime (sessionMaster 19)
      8 8 (Hub.hears (st (sessionOpen 19 4 Chan.vyn ∘ vynUp)).clk.chipTime 19 (st (sessionOpen 19 4 Chan.vyn ∘
      vynUp)).hub)).fst.took = true) ∧
    (19 < 20 ∧ (st (sessionOpen 19 4 Chan.vyn ∘ vynUp)).hub.served 19 = true ∧ 19 < 2 ^ 64 ∧ elements 4 4 = some 1 ∧ 4
      ≤ (Hub.hears (st (sessionOpen 19 4 Chan.vyn ∘ vynUp)).clk.chipTime 19 (st (sessionOpen 19 4 Chan.vyn ∘
      vynUp)).hub).readRoom 19 ∧ (Hub.busRead (st (sessionOpen 19 4 Chan.vyn ∘ vynUp)).clk.chipTime (sessionMaster 19)
      19 4 (Hub.hears (st (sessionOpen 19 4 Chan.vyn ∘ vynUp)).clk.chipTime 19 (st (sessionOpen 19 4 Chan.vyn ∘
      vynUp)).hub)).fst.took = false) ∧
    (19 < 20 ∧ (st (sessionOpen 19 4 Chan.vyn ∘ vynUp)).hub.served 19 = true ∧ 19 < 2 ^ 64 ∧ elements 19 [1, 2, 3, 4,
      5, 6, 7, 8].length = none ∧ (st (sessionOpen 19 4 Chan.vyn ∘ vynUp)).hub.owedStep = 0) ∧
    (19 < 20 ∧ (st (sessionOpen 19 4 Chan.vyn ∘ vynUp)).hub.served 19 = true ∧ 1073741824 ≤ 1082130424 ∧ 1082130424 <
      1082130432 ∧ 1082130424 % 8 = 0 ∧ [1, 2, 3, 4, 5, 6, 7, 8].length = 8 ∧ Admits (st (sessionOpen 19 4 Chan.vyn ∘
      vynUp)) (sessionMaster 19) 3 ∧ (st (sessionOpen 19 4 Chan.vyn ∘ vynUp)).hub.planReadOnly 1082130424 8 = false ∧
      (st (sessionOpen 19 4 Chan.vyn ∘ vynUp)).hub.owedStep = 0) ∧
    (19 < 20 ∧ st.hub.sessionDue 19 = none) ∧
    (19 < 20 ∧ (∃ d, d ∈ (st (sessionOpen 19 4 Chan.vyn ∘ vynUp)).hub.sessionDue 19 ∧ True)) ∧
    (Admits st m0 3 ∧ st.hub.owedStep = 0 ∧ 1082130424 < 2 ^ 64 ∧ 1073741824 ≤ 1082130424 ∧ 1082130424 < 1082130432 ∧
      (8 = 0 ∨ 8 = 8) ∧ st.hub.planReadOnly 1082130424 8 = false ∧ 1082130424 % 8 = 0) ∧
    (Admits st m0 3 ∧ st.hub.owedStep = 0 ∧ 1082130428 < 2 ^ 64 ∧ 1073741824 ≤ 1082130428 ∧ 1082130428 < 1082130432 ∧
      (8 = 0 ∨ 8 = 8) ∧ st.hub.planReadOnly 1082130428 8 = false ∧ 1082130428 % 8 ≠ 0) ∧
    (Admits st m0 3 ∧ st.hub.owedStep = 0 ∧ 137506062336 < 2 ^ 64 ∧ 137506062336 ≤ 137506062336) :=
  ⟨by decide +kernel, by decide +kernel, by decide +kernel, by decide +kernel, by decide +kernel, by decide +kernel,
    by decide +kernel, by decide +kernel, by decide +kernel, ⟨by decide +kernel, by decide +kernel, by decide +kernel,
    by decide +kernel, by decide +kernel, by decide +kernel, admits_of (by decide +kernel), by decide +kernel⟩,
    by decide +kernel, by decide +kernel, ⟨admits_of (by decide +kernel), by decide +kernel⟩, ⟨admits_of
    (by decide +kernel), by decide +kernel⟩, ⟨admits_of (by decide +kernel), by decide +kernel⟩⟩

theorem met_SlotInstructions :
    (Runs (st (gp 5 (2 ^ 63) ∘ slotX sc 63 0 1)) sc ∧ 0#5 ≠ statusReg ∧ (∃ n, n ∈ (st (gp 5 (2 ^ 63) ∘ slotX sc 63 0
      1)).hub.pendingIn sc (BitVec.toNat ((st (gp 5 (2 ^ 63) ∘ slotX sc 63 0 1)).hub.gpr sc 5#5)) ∧ True)) ∧
    (Runs (st (gp 5 63 ∘ slotX sc 63 0 1)) sc ∧ 0#5 ≠ statusReg ∧ BitVec.toNat ((st (gp 5 63 ∘ slotX sc 63 0
      1)).hub.gpr sc 5#5) ≠ 0 ∧ (st (gp 5 63 ∘ slotX sc 63 0 1)).hub.pendingIn sc (BitVec.toNat ((st (gp 5 63 ∘ slotX
      sc 63 0 1)).hub.gpr sc 5#5)) = none ∧ BitVec.toNat ((st (gp 5 63 ∘ slotX sc 63 0 1)).hub.gpr sc 0#5) = 0) ∧
    (Runs (st (gp 5 63 ∘ slotX sc 63 0 1)) sc ∧ 0#5 ≠ statusReg ∧ BitVec.toNat ((st (gp 5 63 ∘ slotX sc 63 0
      1)).hub.gpr sc 5#5) ≠ 0 ∧ (st (gp 5 63 ∘ slotX sc 63 0 1)).hub.pendingIn sc (BitVec.toNat ((st (gp 5 63 ∘ slotX
      sc 63 0 1)).hub.gpr sc 5#5)) = none ∧ 0 < BitVec.toNat ((st (gp 5 63 ∘ slotX sc 63 0 1)).hub.gpr sc 5#5) ∧
      BitVec.toNat ((st (gp 5 63 ∘ slotX sc 63 0 1)).hub.gpr sc 5#5) < (st (gp 5 63 ∘ slotX sc 63 0 1)).clk.chipTime) ∧
    (Runs st sc ∧ 0#5 ≠ statusReg ∧ BitVec.toNat (st.hub.gpr sc 0#5) < 64 ∧ BitVec.toNat (st.hub.gpr sc 0#5) = 0) ∧
    (Runs (st (gp 5 (2 ^ 63) ∘ slotX sc 63 0 1)) sc ∧ 0#5 ≠ statusReg ∧ 63 < BitVec.toNat ((st (gp 5 (2 ^ 63) ∘ slotX
      sc 63 0 1)).hub.gpr sc 5#5)) ∧
    (Runs (st (gp 5 63 ∘ slotX sc 63 0 1)) sc ∧ 0#5 ≠ statusReg ∧ BitVec.toNat ((st (gp 5 63 ∘ slotX sc 63 0
      1)).hub.gpr sc 5#5) < 64 ∧ (st (gp 5 63 ∘ slotX sc 63 0 1)).hub.slot sc (BitVec.toNat ((st (gp 5 63 ∘ slotX sc
      63 0 1)).hub.gpr sc 5#5)) = some (slotOf 0 1) ∧ (slotOf 0 1).desc < 2 ^ 64 ∧ (slotOf 0 1).fifo = [9]) ∧
    (Runs st sc ∧ 0#5 ≠ statusReg ∧ BitVec.toNat (st.hub.gpr sc 0#5) < 64 ∧ (∀ (z : Slot), st.hub.slot sc
      (BitVec.toNat (st.hub.gpr sc 0#5)) = some z → z.fifo = [])) ∧
    (Runs (st (gp 5 (sc + 3 * 65536) ∘ slotX sc 3 0 7)) sc ∧ 0#5 ≠ statusReg ∧ BitVec.toNat ((st (gp 5 (sc + 3 *
      65536) ∘ slotX sc 3 0 7)).hub.gpr sc 5#5) = sc + 3 * 2 ^ 16 ∧ sc < 65536 ∧ 3 < 64 ∧ coreOk sc = true ∧
      isHearthCore sc = false ∧ (st (gp 5 (sc + 3 * 65536) ∘ slotX sc 3 0 7)).hub.slot sc 3 = some (slotOf 0 7) ∧
      (slotOf 0 7).kind = 0 ∧ ((st (gp 5 (sc + 3 * 65536) ∘ slotX sc 3 0 7)).hub.core sc).wait = Wait.idle ∧ (slotOf 0
      7).fifo.length < 8) ∧
    (Runs (st (gp 5 (sc + 3 * 65536) ∘ slotX sc 3 0 8)) sc ∧ 0#5 ≠ statusReg ∧ BitVec.toNat ((st (gp 5 (sc + 3 *
      65536) ∘ slotX sc 3 0 8)).hub.gpr sc 5#5) = sc + 3 * 2 ^ 16 ∧ sc < 65536 ∧ 3 < 64 ∧ coreOk sc = true ∧
      isHearthCore sc = false ∧ (st (gp 5 (sc + 3 * 65536) ∘ slotX sc 3 0 8)).hub.slot sc 3 = some (slotOf 0 8) ∧
      (slotOf 0 8).kind = 0 ∧ ((st (gp 5 (sc + 3 * 65536) ∘ slotX sc 3 0 8)).hub.core sc).wait = Wait.idle ∧ 8 ≤
      (slotOf 0 8).fifo.length) ∧
    (Runs st sc ∧ 0#5 ≠ statusReg ∧ BitVec.toNat (st.hub.gpr sc 0#5) < 65536 ∧ coreOk (BitVec.toNat (st.hub.gpr sc
      0#5)) = false) :=
  ⟨⟨runs_of (by decide +kernel), by decide +kernel⟩, ⟨runs_of (by decide +kernel), by decide +kernel⟩, ⟨runs_of
    (by decide +kernel), by decide +kernel⟩, ⟨runs_of (by decide +kernel), by decide +kernel⟩, ⟨runs_of
    (by decide +kernel), by decide +kernel⟩, ⟨runs_of (by decide +kernel), by decide +kernel⟩, ⟨runs_of
    (by decide +kernel), by decide +kernel⟩, ⟨runs_of (by decide +kernel), by decide +kernel⟩, ⟨runs_of
    (by decide +kernel), by decide +kernel⟩, ⟨runs_of (by decide +kernel), by decide +kernel⟩⟩

theorem met_SpdmRequestsAreAnswered :
    ((st inBoot).hub.spdmServed (Chan.pcie 8) = false) ∧
    ((st (conn (Chan.pcie 8) 0 none)).hub.spdmServed (Chan.pcie 8) = true ∧ spdmCodes.contains 0 = false) ∧
    ((st (conn (Chan.pcie 8) 0 none)).hub.spdmServed (Chan.pcie 8) = true ∧ ((st (conn (Chan.pcie 8) 0 none)).hub.conn
      (Chan.pcie 8)).done = 0) ∧
    ((st (conn (Chan.pcie 8) 1 none)).hub.spdmServed (Chan.pcie 8) = true ∧ 1 ≤ ((st (conn (Chan.pcie 8) 1
      none)).hub.conn (Chan.pcie 8)).done) ∧
    ((st (conn (Chan.pcie 8) 0 none)).hub.spdmServed (Chan.pcie 8) = true ∧ ((st (conn (Chan.pcie 8) 0 none)).hub.conn
      (Chan.pcie 8)).done < 2) ∧
    ((st (conn (Chan.pcie 8) 2 none)).hub.spdmServed (Chan.pcie 8) = true ∧ 2 ≤ ((st (conn (Chan.pcie 8) 2
      none)).hub.conn (Chan.pcie 8)).done ∧ AlgOffer_ok (AlgOffer.mk true true true true true true true) = true) ∧
    ((st (conn (Chan.pcie 8) 2 none)).hub.spdmServed (Chan.pcie 8) = true ∧ 2 ≤ ((st (conn (Chan.pcie 8) 2
      none)).hub.conn (Chan.pcie 8)).done ∧ AlgOffer_ok (AlgOffer.mk true true true true true true false) = false) ∧
    ((st (conn (Chan.pcie 8) 0 none)).hub.spdmServed (Chan.pcie 8) = true ∧ ((st (conn (Chan.pcie 8) 0 none)).hub.conn
      (Chan.pcie 8)).done < 3) ∧
    ((st (conn (Chan.pcie 8) 3 none ∘ allTaken (Chan.pcie 9))).hub.spdmServed (Chan.pcie 8) = true ∧ 3 ≤ ((st (conn
      (Chan.pcie 8) 3 none ∘ allTaken (Chan.pcie 9))).hub.conn (Chan.pcie 8)).done ∧ ((st (conn (Chan.pcie 8) 3 none ∘
      allTaken (Chan.pcie 9))).hub.conn (Chan.pcie 8)).handshake = none ∧ (st (conn (Chan.pcie 8) 3 none ∘ allTaken
      (Chan.pcie 9))).hub.freeSession (Chan.pcie 8) = none) ∧
    ((st (conn (Chan.pcie 8) 3 none)).hub.spdmServed (Chan.pcie 8) = true ∧ 3 ≤ ((st (conn (Chan.pcie 8) 3
      none)).hub.conn (Chan.pcie 8)).done ∧ ((st (conn (Chan.pcie 8) 3 none)).hub.conn (Chan.pcie 8)).handshake = none
      ∧ (∃ n, n ∈ (st (conn (Chan.pcie 8) 3 none)).hub.freeSession (Chan.pcie 8) ∧ True)) ∧
    ((st (conn (Chan.pcie 8) 3 none)).hub.spdmServed (Chan.pcie 8) = true ∧ 3 ≤ ((st (conn (Chan.pcie 8) 3
      none)).hub.conn (Chan.pcie 8)).done ∧ (st (conn (Chan.pcie 8) 3 none)).hub.shaking (Chan.pcie 8) 0 = none) ∧
    ((st (session 15 (sessX (Chan.pcie 8) 0) ∘ conn (Chan.pcie 8) 3 (some 15))).hub.spdmServed (Chan.pcie 8) = true ∧
      3 ≤ ((st (session 15 (sessX (Chan.pcie 8) 0) ∘ conn (Chan.pcie 8) 3 (some 15))).hub.conn (Chan.pcie 8)).done ∧
      (∃ x, x ∈ (st (session 15 (sessX (Chan.pcie 8) 0) ∘ conn (Chan.pcie 8) 3 (some 15))).hub.shaking (Chan.pcie 8) 0
      ∧ True)) ∧
    ((st (conn (Chan.pcie 8) 3 none)).hub.spdmServed (Chan.pcie 8) = true ∧ 3 ≤ ((st (conn (Chan.pcie 8) 3
      none)).hub.conn (Chan.pcie 8)).done ∧ (st (conn (Chan.pcie 8) 3 none)).hub.shaking (Chan.pcie 8) 1 = none) ∧
    ((st (session 15 (sessX (Chan.pcie 8) 1) ∘ conn (Chan.pcie 8) 3 (some 15))).hub.spdmServed (Chan.pcie 8) = true ∧
      3 ≤ ((st (session 15 (sessX (Chan.pcie 8) 1) ∘ conn (Chan.pcie 8) 3 (some 15))).hub.conn (Chan.pcie 8)).done ∧
      (∃ x, x ∈ (st (session 15 (sessX (Chan.pcie 8) 1) ∘ conn (Chan.pcie 8) 3 (some 15))).hub.shaking (Chan.pcie 8) 1
      ∧ (false = false ∨ anchorOf [] = none))) ∧
    ((st (conn (Chan.pcie 8) 3 none)).hub.spdmServed (Chan.pcie 8) = true ∧ 3 ≤ ((st (conn (Chan.pcie 8) 3
      none)).hub.conn (Chan.pcie 8)).done ∧ (st (conn (Chan.pcie 8) 3 none)).hub.shaking (Chan.pcie 8) 2 = none) ∧
    ((st (session 15 (sessX (Chan.pcie 8) 2) ∘ conn (Chan.pcie 8) 3 (some 15))).hub.spdmServed (Chan.pcie 8) = true ∧
      3 ≤ ((st (session 15 (sessX (Chan.pcie 8) 2) ∘ conn (Chan.pcie 8) 3 (some 15))).hub.conn (Chan.pcie 8)).done ∧
      (∃ x, x ∈ (st (session 15 (sessX (Chan.pcie 8) 2) ∘ conn (Chan.pcie 8) 3 (some 15))).hub.shaking (Chan.pcie 8) 2
      ∧ false = false)) ∧
    ((st (session 15 (sessX (Chan.pcie 8) 2) ∘ conn (Chan.pcie 8) 3 (some 15))).hub.spdmServed (Chan.pcie 8) = true ∧
      3 ≤ ((st (session 15 (sessX (Chan.pcie 8) 2) ∘ conn (Chan.pcie 8) 3 (some 15))).hub.conn (Chan.pcie 8)).done ∧
      (∃ x, x ∈ (st (session 15 (sessX (Chan.pcie 8) 2) ∘ conn (Chan.pcie 8) 3 (some 15))).hub.shaking (Chan.pcie 8) 2
      ∧ true = true)) ∧
    (chanLink (Chan.pcie 8) = none) :=
  ⟨by decide +kernel, by decide +kernel, by decide +kernel, by decide +kernel, by decide +kernel, by decide +kernel,
    by decide +kernel, by decide +kernel, by decide +kernel, by decide +kernel, by decide +kernel, by decide +kernel,
    by decide +kernel, by decide +kernel, by decide +kernel, by decide +kernel, by decide +kernel, by decide +kernel⟩

theorem met_SpecialRegisters :
    (Runs st sc ∧ (∃ x, x ∈ sprOf sc 8 ∧ True)) ∧
    (Runs (st (gp 5 137506062336)) sc ∧ (∃ x, x ∈ sprOf sc 16 ∧ x.reg = Reg.STK_RVEC ∧ rvecBad sc ((st (gp 5
      137506062336)).hub.gpr sc 5#5) = true ∧ (st (gp 5 137506062336)).hub.cget F.STK_CAUSE_active sc = 0)) ∧
    (Runs st sc ∧ (∃ x, x ∈ sprOf sc 8 ∧ (x.reg = Reg.STK_RVEC → rvecBad sc (st.hub.gpr sc 0#5) = false) ∧ ∀ (x :
      Nat), x < 16 → st.hub.get F.TXN_STATE_state x ≠ 3)) :=
  ⟨⟨runs_of (by decide +kernel), by decide +kernel⟩, ⟨runs_of (by decide +kernel), by decide +kernel⟩, ⟨runs_of
    (by decide +kernel), by decide +kernel⟩⟩

theorem met_StartUpRunsItsStages :
    ((List.replicate 32 4094).length = 32 ∧ (∀ (n : Nat), n ∈ List.replicate 32 4094 → n < 4095) ∧ st.hub.stageRuns 1
      = false) ∧
    ((List.replicate 32 4094).length = 32 ∧ (∀ (n : Nat), n ∈ List.replicate 32 4094 → n < 4095) ∧ st.hub.stageRuns 2
      = false) ∧
    ((List.replicate 32 4094).length = 32 ∧ (∀ (n : Nat), n ∈ List.replicate 32 4094 → n < 4095) ∧ st.hub.stageRuns 3
      = false) ∧
    ((List.replicate 32 4094).length = 32 ∧ (∀ (n : Nat), n ∈ List.replicate 32 4094 → n < 4095) ∧ st.hub.stageRuns 4
      = false) ∧
    ((List.replicate 32 4094).length = 32 ∧ (∀ (n : Nat), n ∈ List.replicate 32 4094 → n < 4095) ∧ st.hub.stageRuns 5
      = false) ∧
    ((List.replicate 32 4094).length = 32 ∧ (∀ (n : Nat), n ∈ List.replicate 32 4094 → n < 4095) ∧ st.hub.stageRuns 6
      = false) ∧
    ((st (bootAt 1 [] id)).hub.stageRuns 1 = true ∧ (st (bootAt 1 [] id)).hub.boot.restart = false ∧ (true = true ∨
      true = true)) ∧
    ((st (bootAt 1 [] id)).hub.stageRuns 1 = true ∧ (st (bootAt 1 [] id)).hub.boot.restart = false ∧ false = false ∧
      false = false) ∧
    ((st (bootAt 2 [1] id)).hub.stageRuns 2 = true) ∧
    ((st (bootAt 2 [1] id)).hub.stageRuns 3 = true) ∧
    ((st (bootAt 2 [1] id)).hub.stageRuns 4 = true ∧ (List.replicate 32 4094).length = 32 ∧ (∀ (n : Nat), n ∈
      List.replicate 32 4094 → n < 4095)) ∧
    ((st (bootAt 2 [1] id)).hub.stageRuns 5 = true ∧ (st (bootAt 2 [1] id)).hub.boot.restart = false) ∧
    ((st (bootAt 6 [1, 2, 3, 4, 5] (bootedAt 1) ∘ noEntries)).hub.stageRuns 6 = true ∧ (st (bootAt 6 [1, 2, 3, 4, 5]
      (bootedAt 1) ∘ noEntries)).hub.boot.slot = some 1 ∧ (Hub.loadRecipes (st (bootAt 6 [1, 2, 3, 4, 5] (bootedAt 1)
      ∘ noEntries)).clk.chipTime 1 (st (bootAt 6 [1, 2, 3, 4, 5] (bootedAt 1) ∘ noEntries)).hub).fst = true ∧ (st
      (bootAt 6 [1, 2, 3, 4, 5] (bootedAt 1) ∘ noEntries)).hub.boot.restart = false ∧ (Hub.loadRecipes (st (bootAt 6
      [1, 2, 3, 4, 5] (bootedAt 1) ∘ noEntries)).clk.chipTime 1 (st (bootAt 6 [1, 2, 3, 4, 5] (bootedAt 1) ∘
      noEntries)).hub).snd.boot = (st (bootAt 6 [1, 2, 3, 4, 5] (bootedAt 1) ∘ noEntries)).hub.boot ∧ (Hub.loadRecipes
      (st (bootAt 6 [1, 2, 3, 4, 5] (bootedAt 1) ∘ noEntries)).clk.chipTime 1 (st (bootAt 6 [1, 2, 3, 4, 5] (bootedAt
      1) ∘ noEntries)).hub).snd.chipReset = none) :=
  ⟨by decide +kernel, by decide +kernel, by decide +kernel, by decide +kernel, by decide +kernel, by decide +kernel,
    by decide +kernel, by decide +kernel, by decide +kernel, by decide +kernel, by decide +kernel, by decide +kernel,
    by decide +kernel⟩

theorem met_StepsAndProbes :
    (unitOk unit8 = true ∧ ((st (unitIs 2 ∘ stepping false (Countdown.runs 2000000))).hub.unit unit8).step = some
      (stepX false (Countdown.runs 2000000)) ∧ (stepX false (Countdown.runs 2000000)).halting = false ∧ (st (unitIs 2
      ∘ stepping false (Countdown.runs 2000000))).hub.dieQuenched (dieOf unit8) = false ∧ (stepX false (Countdown.runs
      2000000)).count < 65536 ∧ (stepX false (Countdown.runs 2000000)).count ≤ (stepX false (Countdown.runs
      2000000)).done + unit8) ∧
    (unitOk unit8 = true ∧ ((st (unitIs 2 ∘ stepping false (Countdown.runs 2000000))).hub.unit unit8).step = some
      (stepX false (Countdown.runs 2000000)) ∧ (stepX false (Countdown.runs 2000000)).halting = false ∧ (st (unitIs 2
      ∘ stepping false (Countdown.runs 2000000))).hub.dieQuenched (dieOf unit8) = false ∧ (stepX false (Countdown.runs
      2000000)).count < 65536 ∧ (stepX false (Countdown.runs 2000000)).done + 0 < (stepX false (Countdown.runs
      2000000)).count) ∧
    (unitOk unit8 = true ∧ ((st (unitIs 2 ∘ stepping false (Countdown.runs 2000000))).hub.unit unit8).step = some
      (stepX false (Countdown.runs 2000000)) ∧ (stepX false (Countdown.runs 2000000)).halting = false ∧ (stepX false
      (Countdown.runs 2000000)).limit = Countdown.runs 2000000) ∧
    (unitOk unit8 = true ∧ Admits (st (winTarget 0 ∘ unitIs 0)) m0 3 ∧ (st (winTarget 0 ∘ unitIs 0)).hub.spokeOn
      (dieOf unit8) = true) ∧
    (unitOk unit8 = true ∧ ((st (unitIs 8 ∘ probeAt 2000000)).hub.unit unit8).probeDue ≠ none ∧ (st (unitIs 8 ∘
      probeAt 2000000)).hub.runState unit8 = RunState.unresponsive ∧ (st (unitIs 8 ∘ probeAt 2000000)).hub.uget
      F.SPK_SOCK_STATUS_fault unit8 = 0) ∧
    (unitOk unit8 = true ∧ (∃ d, d ∈ ((st (unitIs 8 ∘ probeAt 2000000)).hub.unit unit8).probeDue ∧ True)) :=
  ⟨by decide +kernel, by decide +kernel, by decide +kernel, ⟨by decide +kernel, admits_of (by decide +kernel),
    by decide +kernel⟩, by decide +kernel, by decide +kernel⟩

theorem met_SwageJobs :
    (Runs jobAsked sc ∧ 5 ≠ statusReg ∧ jobAsked.hub.checkJob sc (BitVec.toNat (jobAsked.hub.gpr sc 5)) = Except.ok
      (jobAsked.hub.readJob scratch, 0)) ∧
    (Runs jobAsked sc ∧ 5 ≠ statusReg ∧ jobAsked.hub.checkJob sc (BitVec.toNat (jobAsked.hub.gpr sc 0)) = Except.error
      Status.unmapped) ∧
    (0 < 8 ∧ 0 < 4 ∧ jobAsked.hub.job (jobSlot 0 0) = none) ∧
    (0 < 8 ∧ 0 < 4 ∧ (∃ j, j ∈ (onHub (pf F.SWG_JOB_state 2) jobTaken).hub.job (jobSlot 0 0) ∧ (onHub (pf
      F.SWG_JOB_state 2) jobTaken).hub.get F.SWG_JOB_state (jobSlot 0 0) ≠ 1)) ∧
    (0 < 8 ∧ 0 < 4 ∧ (∃ j, j ∈ jobCancelled.hub.job (jobSlot 0 0) ∧ jobCancelled.hub.get F.SWG_JOB_state (jobSlot 0 0)
      = 1 ∧ jobCancelled.hub.domainOn (96 + jobSlot 0 0 / 4) = true ∧ jobCancelled.hub.captureWaits 0 = false ∧
      jobCancelled.hub.swageTurn 0 = some 0 ∧ j.cancelled = true)) ∧
    (0 < 8 ∧ 0 < 4 ∧ (∃ j, j ∈ jobFills.hub.job (jobSlot 0 0) ∧ jobFills.hub.get F.SWG_JOB_state (jobSlot 0 0) = 1 ∧
      jobFills.hub.domainOn (96 + jobSlot 0 0 / 4) = true ∧ jobFills.hub.captureWaits 0 = false ∧
      jobFills.hub.swageTurn 0 = some 0 ∧ j.cancelled = false ∧ j.desc.op = 0 ∧ j.desc.predictive = false ∧ j.current
      = some bufX ∧ j.pos + 4096 < j.desc.length ∧ bufX.used + slotBytes j.desc.target ≤ bufX.size ∧
      jobFills.hub.mappedOut (bufX.addr + bufX.used) (slotBytes j.desc.target) = false)) ∧
    (Admits jobTaken (Master.core sc) 3 ∧ 32769 < 65536 ∧ scratch + 256 < 2 ^ 48 ∧ jobTaken.hub.swageSlot 32769 = some
      0 ∧ jobTaken.hub.job 0 = some (jobOf jobTaken) ∧ (jobOf jobTaken).issuer = sc ∧ jobTaken.hub.jobOpen 0 = true ∧
      inHubMem (scratch + 256) 32 = true ∧ (scratch + 256) % 8 = 0 ∧ (jobOf jobTaken).queue.length < 8) ∧
    (Admits jobFull (Master.core sc) 3 ∧ 32769 < 65536 ∧ scratch + 256 < 2 ^ 48 ∧ jobFull.hub.swageSlot 32769 = some 0
      ∧ jobFull.hub.job 0 = some (jobOf jobFull) ∧ (jobOf jobFull).issuer = sc ∧ jobFull.hub.jobOpen 0 = true ∧
      inHubMem (scratch + 256) 32 = true ∧ (scratch + 256) % 8 = 0 ∧ 8 ≤ (jobOf jobFull).queue.length) ∧
    (Admits jobTaken (Master.core sc) 3 ∧ 32769 < 65536 ∧ 0 < 2 ^ 48 ∧ jobTaken.hub.swageSlot 32769 = some 0 ∧
      jobTaken.hub.job 0 = some (jobOf jobTaken) ∧ (jobOf jobTaken).issuer = sc ∧ jobTaken.hub.jobOpen 0 = true ∧
      inHubMem 0 32 = false) ∧
    (Admits jobTaken (Master.core sc) 3 ∧ 32769 < 65536 ∧ 0 < 2 ^ 48 ∧ jobTaken.hub.swageSlot 32769 = some 0 ∧
      jobTaken.hub.job 0 = some (jobOf jobTaken) ∧ (jobOf jobTaken).issuer = sc ∧ jobTaken.hub.jobOpen 0 = true ∧
      jobTaken.hub.get F.SWG_JOB_state = 1) ∧
    (Admits jobAsked m0 3 ∧ 0 < 65536 ∧ jobAsked.hub.swageSlot 0 = none) :=
  ⟨⟨runs_of (by decide +kernel), by decide +kernel, ok_of (by decide +kernel)⟩, ⟨runs_of (by decide +kernel),
    by decide +kernel, error_of (by decide +kernel)⟩, by decide +kernel, by decide +kernel, by decide +kernel,
    by decide +kernel, ⟨admits_of (by decide +kernel), by decide +kernel⟩, ⟨admits_of (by decide +kernel),
    by decide +kernel⟩, ⟨admits_of (by decide +kernel), by decide +kernel⟩, ⟨admits_of (by decide +kernel),
    by decide +kernel⟩, ⟨admits_of (by decide +kernel), by decide +kernel⟩⟩

theorem met_TheHearthIsHandedOver :
    ((st (takeover 1)).hub.powered = false ∨ (st (takeover 1)).hub.get F.HRT_FO_CFG_auto_en = 0 ∨ (st (takeover
      1)).hub.failover = true) ∧
    (st.hub.powered = true ∧ st.hub.get F.HRT_FO_CFG_auto_en = 1 ∧ st.hub.failover = false ∧ st.hub.flag
      F.HRT_STATE_standby_ready = false) ∧
    ((st (pf F.HRT_STATE_standby_ready 1)).hub.powered = true ∧ (st (pf F.HRT_STATE_standby_ready 1)).hub.get
      F.HRT_FO_CFG_auto_en = 1 ∧ (st (pf F.HRT_STATE_standby_ready 1)).hub.failover = false ∧ (st (pf
      F.HRT_STATE_standby_ready 1)).hub.flag F.HRT_STATE_standby_ready = true) ∧
    (Admits st m0 3 ∧ st.hub.flag F.HRT_STATE_standby_ready = false) ∧
    (Admits (st (pf F.HRT_STATE_standby_ready 1 ∘ inBoot)) m0 3 ∧ (st (pf F.HRT_STATE_standby_ready 1 ∘
      inBoot)).hub.flag F.HRT_STATE_standby_ready = true ∧ ((st (pf F.HRT_STATE_standby_ready 1 ∘ inBoot)).hub.booting
      = true ∨ (st (pf F.HRT_STATE_standby_ready 1 ∘ inBoot)).hub.failover = true)) ∧
    (Admits (st (pf F.HRT_STATE_standby_ready 1)) m0 3 ∧ (st (pf F.HRT_STATE_standby_ready 1)).hub.flag
      F.HRT_STATE_standby_ready = true ∧ (st (pf F.HRT_STATE_standby_ready 1)).hub.booting = false ∧ (st (pf
      F.HRT_STATE_standby_ready 1)).hub.failover = false) ∧
    (Admits (st (takeover 1)) m0 3 ∧ (st (takeover 1)).hub.failover = true) ∧
    (Admits st m0 3 ∧ st.hub.failover = false) ∧
    (st.hub.failover = false ∨ st.hub.get F.HRT_FO_STATUS_phase ≠ 1) ∧
    ((st (takeover 1)).hub.failover = true ∧ (st (takeover 1)).hub.get F.HRT_FO_STATUS_phase = 1) ∧
    (st.hub.handoverDue = none) ∧
    ((st (pf F.HRT_STATE_standby_ready 1)).hub.failover = true ∨ (st (pf F.HRT_STATE_standby_ready 1)).hub.booting =
      true ∨ (st (pf F.HRT_STATE_standby_ready 1)).hub.flag F.HRT_STATE_standby_ready = true ∨ (st (pf
      F.HRT_STATE_standby_ready 1)).hub.standbyHealthy = false ∨ (st (pf F.HRT_STATE_standby_ready 1)).hub.flag
      F.HRT_FO_STATUS_peer_failed = true ∧ (st (pf F.HRT_STATE_standby_ready 1)).hub.fail.restandby = false) ∧
    (¬(st.hub.failover = true ∨ st.hub.booting = true ∨ st.hub.flag F.HRT_STATE_standby_ready = true ∨
      st.hub.standbyHealthy = false ∨ st.hub.flag F.HRT_FO_STATUS_peer_failed = true ∧ st.hub.fail.restandby = false)) ∧
    (st.hub.fail.peerDue = none) ∧
    (∃ d, d ∈ (st (peerAt 2000000)).hub.fail.peerDue ∧ True) :=
  ⟨by decide +kernel, by decide +kernel, by decide +kernel, ⟨admits_of (by decide +kernel), by decide +kernel⟩,
    ⟨admits_of (by decide +kernel), by decide +kernel⟩, ⟨admits_of (by decide +kernel), by decide +kernel⟩, ⟨admits_of
    (by decide +kernel), by decide +kernel⟩, ⟨admits_of (by decide +kernel), by decide +kernel⟩, by decide +kernel,
    by decide +kernel, by decide +kernel, by decide +kernel, by decide +kernel, by decide +kernel, by decide +kernel⟩

end Sys2Proof.Tests
end

