-- ==== Sys2Proof/Tests/Terms3.lean ====
section
/-! SUPPORT. Tests: for each case of the statements named here, a state and operands that meet its terms (part 3 of 3). -/

namespace Sys2Proof.Tests

open Sys2Proof Sys2Proof.Machine

set_option Elab.async false

theorem met_TheLedgerKeepsItsAccounts :
    (Runs (st (gp 5 2050)) sc ∧ 5 ≠ statusReg ∧ (st (gp 5 2050)).hub.failover = false ∧ BitVec.toNat ((st (gp 5
      2050)).hub.gpr sc 5) ≤ 2050 ∧ 1 ≤ (st (gp 5 2050)).hub.coreLevel sc) ∧
    (Runs (st (gp 5 2051)) sc ∧ 5 ≠ statusReg ∧ (st (gp 5 2051)).hub.failover = false ∧ 2050 < BitVec.toNat ((st (gp 5
      2051)).hub.gpr sc 5)) ∧
    (Runs (st (gp 5 2050)) sc ∧ 5 ≠ statusReg ∧ (st (gp 5 2050)).hub.failover = false ∧ 3 ≤ (st (gp 5
      2050)).hub.coreLevel sc ∧ (bits (BitVec.toNat ((st (gp 5 2050)).hub.gpr sc 5)) 0 8 < 16 ∨ bits (BitVec.toNat
      ((st (gp 5 2050)).hub.gpr sc 5)) 8 24 ≠ 0 ∨ bits (BitVec.toNat ((st (gp 5 2050)).hub.gpr sc 5)) 32 32 = 0)) ∧
    (Runs (st (gp 5 9223372036854776063)) sc ∧ 5 ≠ statusReg ∧ (st (gp 5 9223372036854776063)).hub.failover = false ∧
      3 ≤ (st (gp 5 9223372036854776063)).hub.coreLevel sc ∧ 16 ≤ bits (BitVec.toNat ((st (gp 5
      9223372036854776063)).hub.gpr sc 5)) 0 8 ∧ bits (BitVec.toNat ((st (gp 5 9223372036854776063)).hub.gpr sc 5)) 8
      24 = 0 ∧ bits (BitVec.toNat ((st (gp 5 9223372036854776063)).hub.gpr sc 5)) 32 32 ≠ 0 ∧ (∀ (d : Nat), d < 32 →
      bitAt (bits (BitVec.toNat ((st (gp 5 9223372036854776063)).hub.gpr sc 5)) 32 32) d = true → (st (gp 5
      9223372036854776063)).hub.commanded d = false)) ∧
    (Runs (st (gp 5 2050)) sc ∧ 5 ≠ statusReg ∧ (st (gp 5 2050)).hub.failover = false ∧ 3 ≤ (st (gp 5
      2050)).hub.coreLevel sc ∧ bits (BitVec.toNat ((st (gp 5 2050)).hub.gpr sc 0)) 0 32 = 0 ∧ (∀ (d : Nat), d < 32 →
      bitAt (bits (BitVec.toNat ((st (gp 5 2050)).hub.gpr sc 0)) 32 32) d = true → ((st (gp 5 2050)).hub.ovhOf d).any
      (ownedBy sc) = false)) ∧
    (Runs (onHub (gp 5 9223372036854775808) (after [execLgrOverheadOpen sc 5] (st (gp 5 9223372036854776063)))) sc ∧ 5
      ≠ statusReg ∧ (onHub (gp 5 9223372036854775808) (after [execLgrOverheadOpen sc 5] (st (gp 5
      9223372036854776063)))).hub.failover = false ∧ 3 ≤ (onHub (gp 5 9223372036854775808) (after [execLgrOverheadOpen
      sc 5] (st (gp 5 9223372036854776063)))).hub.coreLevel sc ∧ bits (BitVec.toNat ((onHub (gp 5 9223372036854775808)
      (after [execLgrOverheadOpen sc 5] (st (gp 5 9223372036854776063)))).hub.gpr sc 5)) 0 32 = 0 ∧ (∃ d, d < 32 ∧
      bitAt (bits (BitVec.toNat ((onHub (gp 5 9223372036854775808) (after [execLgrOverheadOpen sc 5] (st (gp 5
      9223372036854776063)))).hub.gpr sc 5)) 32 32) d = true ∧ ((onHub (gp 5 9223372036854775808) (after
      [execLgrOverheadOpen sc 5] (st (gp 5 9223372036854776063)))).hub.ovhOf d).any (ownedBy sc) = true)) ∧
    (Runs (st (gp 5 2050)) sc ∧ 5 ≠ statusReg ∧ (st (gp 5 2050)).hub.failover = false ∧ 3 ≤ (st (gp 5
      2050)).hub.coreLevel sc ∧ (st (gp 5 2050)).hub.ledger.openCount = 0) ∧
    (Runs (st (records 3 (List.replicate 64 (batch 4)))) sc ∧ 5 ≠ statusReg ∧ (st (records 3 (List.replicate 64 (batch
      4)))).hub.failover = false ∧ 3 ≤ (st (records 3 (List.replicate 64 (batch 4)))).hub.coreLevel sc ∧ (st (records
      3 (List.replicate 64 (batch 4)))).hub.ledger.openCount ≠ 0 ∧ 64 ≤ (st (records 3 (List.replicate 64 (batch
      4)))).hub.ledger.pendingBatches.length) ∧
    (Runs (st (records 3 [])) sc ∧ 5 ≠ statusReg ∧ (st (records 3 [])).hub.failover = false ∧ 3 ≤ (st (records 3
      [])).hub.coreLevel sc ∧ (st (records 3 [])).hub.ledger.openCount ≠ 0 ∧ (st (records 3
      [])).hub.ledger.pendingBatches.length < 64 ∧ (st (records 3 [])).hub.ledger.rests = false ∧ (st (records 3
      [])).hub.wpos + 3 ≤ (st (records 3 [])).hub.get F.LDG_ACK_apos + 524288) ∧
    ((List.replicate 32 (Sample.mk 7000 70000)).length = 32 ∧ (∀ (r : Activity), r ∈ [] → activityOk r = true)) ∧
    ((List.replicate 8 (PmbReading.values 1000 24 512 100)).length = 8 ∧ (∀ (r : PmbReading), r ∈ List.replicate 8
      (PmbReading.values 1000 24 512 100) → r.ok = true)) ∧
    (7 < 8 ∧ (st (pf F.LDG_PMB_MAP_valid 1 7)).hub.flag F.LDG_PMB_MAP_valid 7 = true ∧ ((st (pf F.LDG_PMB_MAP_valid 1
      7)).hub.pmb 7).abandoned = false) ∧
    (7 < 8 ∧ ((st (gp 5 2050)).hub.flag F.LDG_PMB_MAP_valid 7 = false ∨ ((st (gp 5 2050)).hub.pmb 7).abandoned =
      true)) ∧
    ((st (gp 5 2050)).hub.epochDue = none) ∧
    (∃ d, d ∈ (st (chainUp 0)).hub.epochDue ∧ True) ∧
    ((st failing).hub.ledgerRests = true) ∧
    ((st (gp 5 2050)).hub.ledgerRests = false ∧ (st (gp 5 2050)).hub.ledger.owed = [] ∧ (st (gp 5
      2050)).hub.ledger.pendingBatches = []) ∧
    ((st (records 3 (List.replicate 64 (batch 4)))).hub.ledgerRests = false ∧ (st (records 3 (List.replicate 64 (batch
      4)))).hub.ledger.owed = [] ∧ (∃ b, b ∈ (st (records 3 (List.replicate 64 (batch
      4)))).hub.ledger.pendingBatches.head? ∧ True)) ∧
    ((st (gp 5 2050)).hub.windowOver = false) ∧
    ((st (chainUp 1000 ∘ pf F.LDG_CFG_cal_window_ep 1000 ∘ pf F.LDG_CFG_cal_en 1)).hub.windowOver = true) ∧
    ((st (gp 5 2050)).hub.ledger.solving = none) ∧
    ((st solving).hub.ledger.solving = some (sums0, 5, 6)) ∧
    (31 < 32 ∧ (st (gp 5 2050)).hub.ovhDue 31 = none) ∧
    (31 < 32 ∧ (∃ e, e ∈ (onHub (gp 5 9223372036854775808) (after [execLgrOverheadOpen sc 5] (st (gp 5
      9223372036854776063)))).hub.ovhDue 31 ∧ True)) ∧
    (Admits (st tagsFull) m0 3 ∧ sc < 2048 ∧ sc < 2 ^ 32 ∧ ((aFind sc (st tagsFull).hub.ledger.tagDue).isSome = true ∨
      4096 ≤ (st tagsFull).hub.ledger.closed.length)) ∧
    (Admits (st (gp 5 2050)) m0 3 ∧ sc < 2048 ∧ sc < 2 ^ 32 ∧ (¬((aFind sc (st (gp 5 2050)).hub.ledger.tagDue).isSome
      = true ∨ 4096 ≤ (st (gp 5 2050)).hub.ledger.closed.length))) ∧
    (Admits (st (gp 5 2050)) m0 1 ∧ (70000 < (st (gp 5 2050)).hub.get F.LDG_ACK_apos ∨ (st (gp 5 2050)).hub.wpos <
      70000 ∨ ∃ b, b ∈ (st (gp 5 2050)).hub.ledger.pendingBatches ∧ b.entry < 70000 ∧ 70000 < b.stop)) ∧
    (Admits (st (pf F.LDG_RING_wpos 70000 ∘ pf F.LDG_ACK_apos 5)) m0 1 ∧ (¬(70000 < (st (pf F.LDG_RING_wpos 70000 ∘ pf
      F.LDG_ACK_apos 5)).hub.get F.LDG_ACK_apos ∨ (st (pf F.LDG_RING_wpos 70000 ∘ pf F.LDG_ACK_apos 5)).hub.wpos <
      70000 ∨ ∃ b, b ∈ (st (pf F.LDG_RING_wpos 70000 ∘ pf F.LDG_ACK_apos 5)).hub.ledger.pendingBatches ∧ b.entry <
      70000 ∧ 70000 < b.stop))) ∧
    (Admits (Tests.st (gp 5 2050)) m0 3 ∧ sc < 2 ^ 48 ∧ (∃ st, st ∈ (Tests.st (gp 5 2050)).hub.coefRefusal sc false ∧
      True)) ∧
    (Admits (st coefsWait) m0 3 ∧ sc < 2 ^ 48 ∧ (st coefsWait).hub.coefRefusal sc true = none ∧ (st
      coefsWait).hub.ledger.loaded.isSome = true) ∧
    (Admits (st (gp 5 2050)) m0 3 ∧ sc < 2 ^ 48 ∧ (st (gp 5 2050)).hub.coefRefusal sc true = none ∧ (st (gp 5
      2050)).hub.ledger.loaded = none) ∧
    (m0.ok = true ∧ 1 ≤ (st (gp 5 2050)).hub.levelOf m0 ∧ 7 < 8 ∧ (st (gp 5 2050)).hub.spokeOn 7 = true) :=
  ⟨⟨runs_of (by decide +kernel), by decide +kernel⟩, ⟨runs_of (by decide +kernel), by decide +kernel⟩, ⟨runs_of
    (by decide +kernel), by decide +kernel⟩, ⟨runs_of (by decide +kernel), by decide +kernel⟩, ⟨runs_of
    (by decide +kernel), by decide +kernel⟩, ⟨runs_of (by decide +kernel), by decide +kernel⟩, ⟨runs_of
    (by decide +kernel), by decide +kernel⟩, ⟨runs_of (by decide +kernel), by decide +kernel⟩, ⟨runs_of
    (by decide +kernel), by decide +kernel⟩, by decide +kernel, by decide +kernel, by decide +kernel,
    by decide +kernel, by decide +kernel, by decide +kernel, by decide +kernel, by decide +kernel, by decide +kernel,
    by decide +kernel, by decide +kernel, by decide +kernel, by decide +kernel, by decide +kernel, by decide +kernel,
    ⟨admits_of (by decide +kernel), by decide +kernel⟩, ⟨admits_of (by decide +kernel), by decide +kernel⟩, ⟨admits_of
    (by decide +kernel), by decide +kernel⟩, ⟨admits_of (by decide +kernel), by decide +kernel⟩, ⟨admits_of
    (by decide +kernel), by decide +kernel⟩, ⟨admits_of (by decide +kernel), by decide +kernel⟩, ⟨admits_of
    (by decide +kernel), by decide +kernel⟩, by decide +kernel⟩

theorem met_TheRootAssertsQuench :
    ((st (gp 5 (2 ^ 32 - 1))).hub.quenchReqs = []) ∧
    (∃ q, q ∈ (Tests.st (retiredX ∘ asksQuench [257, 5])).hub.quenchReqs.head? ∧ q.reply = none ∧ ∃ st, st ∈ (Tests.st
      (retiredX ∘ asksQuench [257, 5])).hub.rootRefusal ∧ True) ∧
    (∃ q, q ∈ (st (asksQuench [257, 5])).hub.quenchReqs.head? ∧ q.reply = none ∧ (st (asksQuench [257,
      5])).hub.rootRefusal = none ∧ (st (asksQuench [257, 5])).hub.reheat = none) :=
  ⟨by decide +kernel, by decide +kernel, by decide +kernel⟩

theorem met_TheSpineArbitrates :
    (7 < 8 ∧ 7 < 11 ∧ (st.hub.outX (arbNo 7 7)).waiting = []) ∧
    (7 < 8 ∧ transferOk 7 (route 7 (transfer 11).dest) (transfer 11) = true ∧ (st windowsNow).hub.requests 7 (transfer
      11).req = true ∧ [3].contains (transfer 11).req = false ∧ (transfer 11).resp = 0 ∧ ((st windowsNow).hub.outX
      (outNo 7 (route 7 (transfer 11).dest))).waiting = [] ∧ ((st windowsNow).hub.outX (outNo 7 (route 7 (transfer
      11).dest))).skip = none ∧ ((st windowsNow).hub.outX (outNo 7 (route 7 (transfer 11).dest))).grantLeft = 0 ∧
      windowOf (outNo 7 (route 7 (transfer 11).dest)) (st windowsNow).clk.chipTime ≤ ((st windowsNow).hub.outX (outNo
      7 (route 7 (transfer 11).dest))).window ∧ (st windowsNow).hub.rank (outNo 7 (route 7 (transfer 11).dest))
      (Waiting.mk (transfer 11) (transfer 11).req (SpinePort.here 7) (transfer 11).beats false (some (st
      windowsNow).clk.chipTime) none) = some 1) ∧
    (7 < 8 ∧ portNode (SpinePort.tongs 14) < 8 ∧ portNode (SpinePort.tongs 14) ≠ 7) ∧
    (7 < 8 ∧ 7 < 11 ∧ st.clk.chipTime < 2 ^ 64 ∧ st.hub.windowDue (arbNo 7 7) < 2 ^ 64) ∧
    (7 < 8 ∧ 7 < 48 ∧ m0.ok = true ∧ 1 ≤ st.hub.levelOf m0 ∧ st.hub.spokeOn 7 = true) :=
  ⟨by decide +kernel, by decide +kernel, by decide +kernel, by decide +kernel, by decide +kernel⟩

theorem met_TheWaitForEngineKeepsItsObjects :
    (65535 < 65536 ∧ 65535 < 2 ^ 32 ∧ unitOk 7 = true ∧ 65535 < if true = true then 65536 else 2048) ∧
    (65535 < 65536 ∧ 1 < 2 ^ 32 ∧ unitOk 7 = true ∧ 7 < 2048 ∧ unitOk 7 = true ∧ ((st (obj 65535 (ObjX.mk false none
      none 3 (some 9) [] none false none []))).hub.obj 65535).semaphore = false ∧ ((st (obj 65535 (ObjX.mk false none
      none 3 (some 9) [] none false none []))).hub.obj 65535).live = (st (obj 65535 (ObjX.mk false none none 3 (some
      9) [] none false none []))).hub.obj 65535 ∧ 1 ≤ ((st (obj 65535 (ObjX.mk false none none 3 (some 9) [] none
      false none []))).hub.obj 65535).value) ∧
    (65535 < 65536 ∧ 65535 < 2 ^ 32 ∧ unitOk 7 = true ∧ 7 < 2048 ∧ unitOk 7 = true ∧ ((st.hub.obj 65535).semaphore =
      true ∨ (st.hub.obj 65535).value < 65535) ∧ (st.hub.obj 65535).live = st.hub.obj 65535 ∧ (Hub.modObj 65535 (fun x
      => ObjX.mk x.semaphore x.declared x.lastBy x.value x.lastSig x.chipSig (some 7) x.stale x.resetOf x.waiters)
      st.hub).waits.length < 8192) ∧
    (65535 < 65536 ∧ 65535 < 2 ^ 32 ∧ unitOk 7 = true ∧ (∀ (e : Nat × Nat × Nat), e ∈ [] → e.fst < 2048 ∧ unitOk
      e.snd.fst = true ∧ e.snd.snd < 2 ^ 32) ∧ ((st (obj 65535 (ObjX.mk false none none 3 none [] (some unit8) true
      none []))).hub.obj 65535).stale = true ∧ (st (obj 65535 (ObjX.mk false none none 3 none [] (some unit8) true
      none []))).hub.rereadBarred ((st (obj 65535 (ObjX.mk false none none 3 none [] (some unit8) true none
      []))).hub.obj 65535) = false) ∧
    (65535 < 65536 ∧ 65535 < 2 ^ 32 ∧ unitOk 7 = true ∧ (∀ (e : Nat × Nat × Nat), e ∈ [] → e.fst < 2048 ∧ unitOk
      e.snd.fst = true ∧ e.snd.snd < 2 ^ 32) ∧ ((st.hub.obj 65535).stale = false ∨ st.hub.rereadBarred (st.hub.obj
      65535) = true) ∧ (st.hub.obj 65535).live = st.hub.obj 65535) ∧
    (65535 < 65536 ∧ Admits st m0 3 ∧ 1 < 4 ∧ 65535 < 65536 ∧ 1 ≤ 1 ∧ (true = true ∨ 65535 < 2048)) ∧
    (65535 < 65536 ∧ Admits st m0 3 ∧ 1 < 4 ∧ 65535 < 65536 ∧ (1 < 1 ∨ false = false ∧ 2048 ≤ 65535)) ∧
    (65535 < 65536 ∧ Admits st m0 2 ∧ scratch % 8 = 0 ∧ scratch < 2 ^ 48 ∧ 65535 < 65536 ∧ inScratch scratch (32 + 24
      * 65535) = true) ∧
    (65535 < 65536 ∧ Admits st m0 2 ∧ unit8 % 8 = 0 ∧ unit8 < 2 ^ 48 ∧ 65535 < 65536 ∧ inScratch unit8 (32 + 24 *
      65535) = false) ∧
    (st.hub.wfg.wanted = none) ∧
    (∃ a, a ∈ (st (wantsAnalysis 3000)).hub.wfg.wanted ∧ True) :=
  ⟨by decide +kernel, by decide +kernel, by decide +kernel, by decide +kernel, by decide +kernel, ⟨by decide +kernel,
    admits_of (by decide +kernel), by decide +kernel⟩, ⟨by decide +kernel, admits_of (by decide +kernel),
    by decide +kernel⟩, ⟨by decide +kernel, admits_of (by decide +kernel), by decide +kernel⟩, ⟨by decide +kernel,
    admits_of (by decide +kernel), by decide +kernel⟩, by decide +kernel, by decide +kernel⟩

theorem met_TraceWritersWriteAndStop :
    (8 < 32 ∧ ((st (fifoOf 8 3 ∘ writerOf 128 ∘ segOf true 0)).hub.spoke 8).fifo = [recA, recA, recA] ∧ ([recA,
      recA].length + 1) % 64 ≠ 0 ∧ ((st (fifoOf 8 3 ∘ writerOf 128 ∘ segOf true 0)).hub.node (nodeOf 8)).accept = true
      ∧ classLevel recA.cls < 7 ∧ (classLevel recA.cls + 1) * 64 ≤ ((st (fifoOf 8 3 ∘ writerOf 128 ∘ segOf true
      0)).hub.node (nodeOf 8)).fifo.length) ∧
    (8 < 32 ∧ ((st (fifoOf 8 3 ∘ segOf true 0)).hub.spoke 8).fifo = [recA, recA, recA] ∧ ([recA, recA].length + 1) %
      64 ≠ 0 ∧ ((st (fifoOf 8 3 ∘ segOf true 0)).hub.node (nodeOf 8)).accept = true ∧ (classLevel recA.cls < 7 → ((st
      (fifoOf 8 3 ∘ segOf true 0)).hub.node (nodeOf 8)).fifo.length < (classLevel recA.cls + 1) * 64) ∧ ((st (fifoOf 8
      3 ∘ segOf true 0)).hub.node (nodeOf 8)).fifo.length < 512) ∧
    (8 < 32 ∧ ((st (fifo7 ∘ writerOf 512 ∘ segOf true 0)).hub.spoke 8).fifo = [rec7] ∧ (([] : List Rec).length + 1) %
      64 ≠ 0 ∧ ((st (fifo7 ∘ writerOf 512 ∘ segOf true 0)).hub.node (nodeOf 8)).accept = true ∧ classLevel rec7.cls =
      7 ∧ 512 ≤ ((st (fifo7 ∘ writerOf 512 ∘ segOf true 0)).hub.node (nodeOf 8)).fifo.length) ∧
    (0 < 32 ∧ ((st (writerOf 3 ∘ segOf true 0)).hub.node (nodeOf 0)).fifo = [recA, recA, recA] ∧ ([recA, recA].length
      + 1) % 64 ≠ 0 ∧ ((st (writerOf 3 ∘ segOf true 0)).hub.node (nodeOf 0)).accept = true ∧ (st (writerOf 3 ∘ segOf
      true 0)).hub.get F.TRC_RING_CFG_policy = 0 ∧ (st (writerOf 3 ∘ segOf true 0)).hub.get F.TRC_FILL_threshold = 0) ∧
    (Admits st m0 2) ∧
    (0 < 8 ∧ ((st (stopAt 100 ∘ segOf true 0)).hub.node 0).stopDue = some 100 ∧ ((st (stopAt 100 ∘ segOf true
      0)).hub.node 0).accept = true) :=
  ⟨by decide +kernel, by decide +kernel, by decide +kernel, by decide +kernel, admits_of (by decide +kernel),
    by decide +kernel⟩

theorem met_TransactionsOpenCommitAndAbort :
    (Runs st sc ∧ 0#5 ≠ statusReg ∧ st.hub.failover = false ∧ st.hub.openTxn (Master.core sc) = none ∧ (∃ x, x < 16 ∧
      st.hub.txnLive x = false)) ∧
    (Runs (st (gp 5 16)) sc ∧ 0#5 ≠ statusReg ∧ (st (gp 5 16)).hub.failover = false ∧ 15 < BitVec.toNat ((st (gp 5
      16)).hub.gpr sc 5#5)) ∧
    (Runs (st (gp 5 15 ∘ opened id)) sc ∧ 0#5 ≠ statusReg ∧ (st (gp 5 15 ∘ opened id)).hub.failover = false ∧ (∃ x, x
      ∈ (st (gp 5 15 ∘ opened id)).hub.openTxn (Master.core sc) ∧ True)) ∧
    (Runs (st (gp 5 15 ∘ opened id)) sc ∧ 0#5 ≠ statusReg ∧ (st (gp 5 15 ∘ opened id)).hub.failover = false ∧ (∃ x, x
      ∈ (st (gp 5 15 ∘ opened id)).hub.openTxn (Master.core sc) ∧ BitVec.toNat ((st (gp 5 15 ∘ opened id)).hub.gpr sc
      5#5) = x ∧ BitVec.toNat ((st (gp 5 15 ∘ opened id)).hub.gpr sc 0#5) < (st (gp 5 15 ∘ opened id)).clk.chipTime +
      us 2)) ∧
    (Runs (st (gp 5 15 ∘ gp 6 1008000 ∘ opened (staged [scratch]))) sc ∧ 0#5 ≠ statusReg ∧ (st (gp 5 15 ∘ gp 6 1008000
      ∘ opened (staged [scratch]))).hub.failover = false ∧ (∃ x, x ∈ (st (gp 5 15 ∘ gp 6 1008000 ∘ opened (staged
      [scratch]))).hub.openTxn (Master.core sc) ∧ BitVec.toNat ((st (gp 5 15 ∘ gp 6 1008000 ∘ opened (staged
      [scratch]))).hub.gpr sc 5#5) = x ∧ (st (gp 5 15 ∘ gp 6 1008000 ∘ opened (staged [scratch]))).clk.chipTime + us 2
      ≤ BitVec.toNat ((st (gp 5 15 ∘ gp 6 1008000 ∘ opened (staged [scratch]))).hub.gpr sc 6#5) ∧ ((st (gp 5 15 ∘ gp 6
      1008000 ∘ opened (staged [scratch]))).hub.txn x).acts ≠ [])) ∧
    (Runs (st (gp 5 15 ∘ opened id)) sc ∧ 0#5 ≠ statusReg ∧ (st (gp 5 15 ∘ opened id)).hub.failover = false ∧ (∃ x, x
      ∈ (st (gp 5 15 ∘ opened id)).hub.openTxn (Master.core sc) ∧ BitVec.toNat ((st (gp 5 15 ∘ opened id)).hub.gpr sc
      5#5) = x)) ∧
    (Admits st m0 3 ∧ (∃ x, x < 16 ∧ st.hub.txnLive x = false)) ∧
    (m0.ok = true ∧ 3 ≤ (st (txn 3 m0 1 (staged [scratch]))).hub.levelOf m0 ∧ (st (txn 3 m0 1 (staged
      [scratch]))).hub.openTxn m0 = some 3 ∧ (st (txn 3 m0 1 (staged [scratch]))).hub.get F.TXN_AT_commit_time m0.idx
      < (st (txn 3 m0 1 (staged [scratch]))).clk.chipTime + us 2) ∧
    (m0.ok = true ∧ 3 ≤ (st (pf F.TXN_AT_commit_time 2000000 m0.idx ∘ txn 3 m0 1 (staged [scratch]))).hub.levelOf m0 ∧
      (st (pf F.TXN_AT_commit_time 2000000 m0.idx ∘ txn 3 m0 1 (staged [scratch]))).hub.openTxn m0 = some 3 ∧ (st (pf
      F.TXN_AT_commit_time 2000000 m0.idx ∘ txn 3 m0 1 (staged [scratch]))).clk.chipTime + us 2 ≤ (st (pf
      F.TXN_AT_commit_time 2000000 m0.idx ∘ txn 3 m0 1 (staged [scratch]))).hub.get F.TXN_AT_commit_time m0.idx ∧ ((st
      (pf F.TXN_AT_commit_time 2000000 m0.idx ∘ txn 3 m0 1 (staged [scratch]))).hub.txn 3).acts ≠ []) :=
  ⟨⟨runs_of (by decide +kernel), by decide +kernel⟩, ⟨runs_of (by decide +kernel), by decide +kernel⟩, ⟨runs_of
    (by decide +kernel), by decide +kernel⟩, ⟨runs_of (by decide +kernel), by decide +kernel⟩, ⟨runs_of
    (by decide +kernel), by decide +kernel⟩, ⟨runs_of (by decide +kernel), by decide +kernel⟩, ⟨admits_of
    (by decide +kernel), by decide +kernel⟩, by decide +kernel, by decide +kernel⟩

theorem met_TransactionsPrepareAndTakeEffect :
    (15 < 16 ∧ (st (txn 15 m0 3 (staged [scratch, scratch + 8, scratch]) ∘ commitAt 15 900000)).hub.txnState 15 ≠ 2) ∧
    (15 < 16 ∧ (st (txn 15 m0 2 (staged [scratch, scratch + 8, scratch]) ∘ commitAt 15 900000)).hub.txnState 15 = 2 ∧
      (st (txn 15 m0 2 (staged [scratch, scratch + 8, scratch]) ∘ commitAt 15 900000)).hub.get F.TXN_TIME_commit_time
      15 ≤ (st (txn 15 m0 2 (staged [scratch, scratch + 8, scratch]) ∘ commitAt 15 900000)).clk.chipTime) ∧
    (15 < 16 ∧ (st (txn 15 m0 2 (staged [scratch, scratch + 8]) ∘ commitAt 15 1900000)).hub.txnState 15 = 2 ∧ (st (txn
      15 m0 2 (staged [scratch, scratch + 8]) ∘ commitAt 15 1900000)).clk.chipTime < (st (txn 15 m0 2 (staged
      [scratch, scratch + 8]) ∘ commitAt 15 1900000)).hub.get F.TXN_TIME_commit_time 15 ∧ Hub.prepareFails (st (txn 15
      m0 2 (staged [scratch, scratch + 8]) ∘ commitAt 15 1900000)).clk.chipTime 15 (st (txn 15 m0 2 (staged [scratch,
      scratch + 8]) ∘ commitAt 15 1900000)).hub = none) ∧
    (15 < 16 ∧ (Tests.st (txn 15 m0 2 (staged [scratch, scratch + 1]) ∘ commitAt 15 1900000)).hub.txnState 15 = 2 ∧
      (Tests.st (txn 15 m0 2 (staged [scratch, scratch + 1]) ∘ commitAt 15 1900000)).clk.chipTime < (Tests.st (txn 15
      m0 2 (staged [scratch, scratch + 1]) ∘ commitAt 15 1900000)).hub.get F.TXN_TIME_commit_time 15 ∧
      Hub.prepareFails (Tests.st (txn 15 m0 2 (staged [scratch, scratch + 1]) ∘ commitAt 15 1900000)).clk.chipTime 15
      (Tests.st (txn 15 m0 2 (staged [scratch, scratch + 1]) ∘ commitAt 15 1900000)).hub = some (1, StagedAct.write
      (scratch + 1) 5, Status.align)) ∧
    (15 < 16 ∧ (st (txn 15 m0 3 (staged [scratch, scratch + 8, scratch]) ∘ commitAt 15 900000)).hub.txnState 15 = 3 ∧
      [(scratch, 5), (scratch + 8, 5), (scratch, 5)] ≠ [] ∧ ((st (txn 15 m0 3 (staged [scratch, scratch + 8, scratch])
      ∘ commitAt 15 900000)).hub.txn 15).acts = List.map (fun e => StagedAct.write e.fst e.snd) [(scratch, 5),
      (scratch + 8, 5), (scratch, 5)] ∧ ((st (txn 15 m0 3 (staged [scratch, scratch + 8, scratch]) ∘ commitAt 15
      900000)).hub.txn 15).rptCap = 0 ∧ (∀ (e : Nat × Word), e ∈ [(scratch, 5), (scratch + 8, 5), (scratch, 5)] →
      inScratch e.fst 8 = true ∧ e.fst % 8 = 0 ∧ (st (txn 15 m0 3 (staged [scratch, scratch + 8, scratch]) ∘ commitAt
      15 900000)).hub.planReadOnly e.fst 8 = false)) ∧
    (15 < 16 ∧ 5 ≤ (st (txn 15 m0 5 (ended 400))).hub.txnState 15) ∧
    (15 < 16 ∧ (st (txn 15 m0 3 (staged [scratch, scratch + 8, scratch]) ∘ commitAt 15 900000)).hub.txnState 15 < 5) ∧
    ((st (txn 15 m0 3 (staged [scratch, scratch + 8, scratch]) ∘ commitAt 15 900000)).hub.arm CfgGroup.wfg = none) ∧
    ((st (armed CfgGroup.wfg Reg.WFG_CFG 68736258053 (some 2000000))).hub.arm CfgGroup.wfg = some (armX Reg.WFG_CFG
      68736258053 (some 2000000)) ∧ (armX Reg.WFG_CFG 68736258053 (some 2000000)).due = some 2000000 ∧ (CfgGroup.wfg =
      CfgGroup.wfg ∨ CfgGroup.wfg = CfgGroup.rcv ∨ CfgGroup.wfg = CfgGroup.ldg) ∧ (List.map Prod.fst (armX Reg.WFG_CFG
      68736258053 (some 2000000)).vals).Nodup) :=
  ⟨by decide +kernel, by decide +kernel, by decide +kernel, by decide +kernel, by decide +kernel, by decide +kernel,
    by decide +kernel, by decide +kernel, by decide +kernel⟩

theorem met_TriggersFire :
    (8 < 9 ∧ aGet (fun _ => []) (st (offered 3 [(8, Offer.record recA), (3, Offer.record recA)])).hub.offers 8 = []) ∧
    (3 < 9 ∧ aGet (fun _ => []) (st (offered 3 [(8, Offer.record recA), (3, Offer.record recA)])).hub.offers 3 = [(8,
      Offer.record recA), (3, Offer.record recA)] ∧ (∀ (e : Nat), e < trgEntries 3 → (st (offered 3 [(8, Offer.record
      recA), (3, Offer.record recA)])).hub.trgMatches ((st (offered 3 [(8, Offer.record recA), (3, Offer.record
      recA)])).hub.trgEntry 3 e) (Offer.record recA) = false)) ∧
    (3 < 9 ∧ aGet (fun _ => []) (st (offered 3 [(8, Offer.record recA)] ∘ entry 3 5 16720145 256 0 (257 *
      65536))).hub.offers 3 = [(8, Offer.record recA)] ∧ 5 < trgEntries 3 ∧ (∀ (k : Nat), k < trgEntries 3 → ((st
      (offered 3 [(8, Offer.record recA)] ∘ entry 3 5 16720145 256 0 (257 * 65536))).hub.trgMatches ((st (offered 3
      [(8, Offer.record recA)] ∘ entry 3 5 16720145 256 0 (257 * 65536))).hub.trgEntry 3 k) (Offer.record recA) = true
      ↔ k = 5)) ∧ ((st (offered 3 [(8, Offer.record recA)] ∘ entry 3 5 16720145 256 0 (257 * 65536))).hub.trgEntry 3
      5).action = 0) ∧
    (3 < 9 ∧ aGet (fun _ => []) (st (offered 3 [(8, Offer.record recA)] ∘ entry 3 255 16720145 256 0 (4 + 16 + 77 *
      65536))).hub.offers 3 = [(8, Offer.record recA)] ∧ 255 < trgEntries 3 ∧ (∀ (k : Nat), k < trgEntries 3 → ((st
      (offered 3 [(8, Offer.record recA)] ∘ entry 3 255 16720145 256 0 (4 + 16 + 77 * 65536))).hub.trgMatches ((st
      (offered 3 [(8, Offer.record recA)] ∘ entry 3 255 16720145 256 0 (4 + 16 + 77 * 65536))).hub.trgEntry 3 k)
      (Offer.record recA) = true ↔ k = 255)) ∧ ((st (offered 3 [(8, Offer.record recA)] ∘ entry 3 255 16720145 256 0
      (4 + 16 + 77 * 65536))).hub.trgEntry 3 255).action = 4) ∧
    ((st (xtrigTill 100)).hub.xtrigUntil ≠ 0) ∧
    ((st (offered 3 [(8, Offer.record recA), (3, Offer.record recA)])).hub.xtrigUntil = 0) :=
  ⟨by decide +kernel, by decide +kernel, by decide +kernel, by decide +kernel, by decide +kernel, by decide +kernel⟩

theorem met_UnitEventsReachTheCollector :
    (unitOk unit8 = true ∧ (st (unitIs 6)).hub.unitPresents unit8 = false) ∧
    (unitOk unit8 = true ∧ (st (unitIs 0 ∘ heldOf 3)).hub.unitPresents unit8 = true ∧ (classLevel 0 ≤ 5 ∧ 3 ≤ (st
      (unitIs 0 ∘ heldOf 3)).hub.socketHolds unit8)) ∧
    (unitOk 0 = true ∧ st.hub.unitPresents 0 = true ∧ (¬(classLevel 7 ≤ 5 ∧ 3 ≤ st.hub.socketHolds 0)) ∧ classKnown 7
      = false) ∧
    (unitOk 0 = true ∧ st.hub.unitPresents 0 = true ∧ (¬(classLevel 66 ≤ 5 ∧ 3 ≤ st.hub.socketHolds 0)) ∧ classKnown
      66 = true ∧ st.hub.filterPasses (dieOf 0) (mkRec (st.hub.replica st.clk.chipTime (dieOf 0)) 0 66 none
      (0#28).toNat) = true) ∧
    (0 < 32 ∧ Admits st m0 1 ∧ st.hub.spokeOn 0 = true) ∧
    (8 < 40 ∧ 1 < 7 ∧ (st lossy).hub.lossDue 8 1 = some 100) :=
  ⟨by decide +kernel, by decide +kernel, by decide +kernel, by decide +kernel, ⟨by decide +kernel, admits_of
    (by decide +kernel), by decide +kernel⟩, by decide +kernel⟩

theorem met_UnitHaltEvents :
    (unitOk unit8 = true ∧ (st (unitIs 1 ∘ halting none)).hub.cmds = [] ∧ (st (unitIs 1 ∘ halting none)).hub.runState
      unit8 = RunState.haltPending ∧ ((st (unitIs 1 ∘ halting none)).hub.unit unit8).halt = some (haltX none) ∧ (haltX
      none).defer = none) ∧
    (unitOk 18 = true ∧ (st (Hub.uput F.SPK_UNIT_STATE_state 18 1 ∘ halting none 18)).hub.cmds = [] ∧ (st (Hub.uput
      F.SPK_UNIT_STATE_state 18 1 ∘ halting none 18)).hub.runState 18 = RunState.haltPending ∧ ((st (Hub.uput
      F.SPK_UNIT_STATE_state 18 1 ∘ halting none 18)).hub.unit 18).halt = some (haltX none) ∧ (haltX none).defer =
      none ∧ declaresLock 18 = true ∧ (st (Hub.uput F.SPK_UNIT_STATE_state 18 1 ∘ halting none 18)).hub.lineAsserted =
      false) ∧
    (unitOk unit8 = true ∧ (st (unitIs 1 ∘ halting (some (Countdown.runs 2000000)))).hub.cmds = [] ∧ (st (unitIs 1 ∘
      halting (some (Countdown.runs 2000000)))).hub.runState unit8 = RunState.haltPending ∧ ((st (unitIs 1 ∘ halting
      (some (Countdown.runs 2000000)))).hub.unit unit8).halt = some (haltX (some (Countdown.runs 2000000))) ∧ (haltX
      (some (Countdown.runs 2000000))).defer = some (Countdown.runs 2000000)) ∧
    (unitOk unit8 = true ∧ (st (winTarget 0 ∘ unitIs 0)).hub.cmds = [] ∧ (st (winTarget 0 ∘ unitIs 0)).hub.runState
      unit8 = RunState.running ∧ (∀ (g : Nat), g < 256 → (st (winTarget 0 ∘ unitIs 0)).hub.inGroup g unit8 = false)) ∧
    (unitOk unit8 = true ∧ (st (winTarget 0 ∘ unitIs 2)).hub.cmds = [] ∧ (st (winTarget 0 ∘ unitIs 2)).hub.runState
      unit8 ≠ RunState.running) ∧
    (unitOk unit8 = true ∧ (st (unitIs 5)).hub.cmds = [] ∧ (st (unitIs 5)).hub.runState unit8 = RunState.gated ∧ (st
      (unitIs 5)).hub.lineAsserted = false) ∧
    (unitOk unit8 = true ∧ (st (unitIs 1 ∘ halting none)).hub.cmds = [] ∧ (∃ d, d ∈ (st (unitIs 1 ∘ halting
      none)).hub.boundDue unit8 ∧ True)) ∧
    (unitOk unit8 = true ∧ (st (unitIs 1 ∘ halting none ∘ nowaitHalt)).hub.cmds = [(0, RunCmd.mk RunOp.halt true false
      (Reply.reg m0) [CmdUnit.mk unit8 none false])] ∧ (st (unitIs 1 ∘ halting none ∘ nowaitHalt)).hub.runState unit8
      = RunState.haltPending ∧ (st (unitIs 1 ∘ halting none ∘ nowaitHalt)).hub.boundDue unit8 = some 1600) :=
  ⟨by decide +kernel, by decide +kernel, by decide +kernel, by decide +kernel, by decide +kernel, by decide +kernel,
    by decide +kernel, by decide +kernel⟩

theorem met_UnitWindowAccesses :
    (Runs (st (winTarget 9 ∘ unitIs 2 ∘ winOf 9 (some 5))) sc ∧ 0#5 ≠ statusReg ∧ unitTarget ((st (winTarget 9 ∘
      unitIs 2 ∘ winOf 9 (some 5))).hub.gpr sc 5#5) 0 false = UnitTarget.mk unit8 9 false ∧ unitOk unit8 = true ∧ (st
      (winTarget 9 ∘ unitIs 2 ∘ winOf 9 (some 5))).hub.spokeOn (dieOf unit8) = true ∧ 2 ≤ (st (winTarget 9 ∘ unitIs 2
      ∘ winOf 9 (some 5))).hub.coreLevel sc ∧ ((st (winTarget 9 ∘ unitIs 2 ∘ winOf 9 (some 5))).hub.unit unit8).mute =
      none ∧ rangeOf unit8 9 = some (cfgRange 9 255) ∧ (st (winTarget 9 ∘ unitIs 2 ∘ winOf 9 (some 5))).hub.runState
      unit8 = RunState.halted ∧ (cfgRange 9 255).quiet = true ∧ aGet (fun _ => none) ((st (winTarget 9 ∘ unitIs 2 ∘
      winOf 9 (some 5))).hub.unit unit8).win 9 = some 5 ∧ (cfgRange 9 255).sideEffect = false) ∧
    (Runs (st (winTarget 8 ∘ unitIs 2 ∘ winOf 8 (some 5))) sc ∧ 0#5 ≠ statusReg ∧ unitTarget ((st (winTarget 8 ∘
      unitIs 2 ∘ winOf 8 (some 5))).hub.gpr sc 5#5) 0 false = UnitTarget.mk unit8 8 false ∧ unitOk unit8 = true ∧ (st
      (winTarget 8 ∘ unitIs 2 ∘ winOf 8 (some 5))).hub.spokeOn (dieOf unit8) = true ∧ 2 ≤ (st (winTarget 8 ∘ unitIs 2
      ∘ winOf 8 (some 5))).hub.coreLevel sc ∧ ((st (winTarget 8 ∘ unitIs 2 ∘ winOf 8 (some 5))).hub.unit unit8).mute =
      none ∧ rangeOf unit8 8 = some (popRange 8 8) ∧ (st (winTarget 8 ∘ unitIs 2 ∘ winOf 8 (some 5))).hub.runState
      unit8 = RunState.halted ∧ (popRange 8 8).quiet = true ∧ aGet (fun _ => none) ((st (winTarget 8 ∘ unitIs 2 ∘
      winOf 8 (some 5))).hub.unit unit8).win 8 = some 5 ∧ (popRange 8 8).sideEffect = true) ∧
    (Runs (st (winTarget 255 ∘ unitIs 0)) sc ∧ 0#5 ≠ statusReg ∧ unitTarget ((st (winTarget 255 ∘ unitIs 0)).hub.gpr
      sc 5#5) 0 false = UnitTarget.mk unit8 255 false ∧ unitOk unit8 = true ∧ (st (winTarget 255 ∘ unitIs
      0)).hub.spokeOn (dieOf unit8) = true ∧ 2 ≤ (st (winTarget 255 ∘ unitIs 0)).hub.coreLevel sc ∧ ((st (winTarget
      255 ∘ unitIs 0)).hub.unit unit8).mute = none ∧ rangeOf unit8 255 = some (cfgRange 9 255) ∧ (st (winTarget 255 ∘
      unitIs 0)).hub.runState unit8 = RunState.running ∧ (cfgRange 9 255).sideEffect = false ∧ aGet (fun _ => none)
      ((st (winTarget 255 ∘ unitIs 0)).hub.unit unit8).win 255 = none) ∧
    (Runs (st (winTarget 255 ∘ unitIs 0)) sc ∧ unitTarget ((st (winTarget 255 ∘ unitIs 0)).hub.gpr sc 5#5) 0 false =
      UnitTarget.mk unit8 255 false ∧ unitOk unit8 = true ∧ (st (winTarget 255 ∘ unitIs 0)).hub.spokeOn (dieOf unit8)
      = true ∧ 3 ≤ (st (winTarget 255 ∘ unitIs 0)).hub.coreLevel sc ∧ (st (winTarget 255 ∘ unitIs 0)).hub.openTxn
      (Master.core sc) = none ∧ (st (winTarget 255 ∘ unitIs 0)).hub.retired = false ∧ ((st (winTarget 255 ∘ unitIs
      0)).hub.unit unit8).mute = none ∧ rangeOf unit8 255 = some (cfgRange 9 255) ∧ (cfgRange 9 255).writable = true ∧
      (st (winTarget 255 ∘ unitIs 0)).hub.runState unit8 = RunState.running) ∧
    (Runs (st (winTarget 8 ∘ unitIs 2 ∘ winOf 8 (some 5))) sc ∧ unitTarget ((st (winTarget 8 ∘ unitIs 2 ∘ winOf 8
      (some 5))).hub.gpr sc 5#5) 1 false = UnitTarget.mk unit8 9 false ∧ unitOk unit8 = true ∧ (st (winTarget 8 ∘
      unitIs 2 ∘ winOf 8 (some 5))).hub.spokeOn (dieOf unit8) = true ∧ 3 ≤ (st (winTarget 8 ∘ unitIs 2 ∘ winOf 8 (some
      5))).hub.coreLevel sc ∧ (st (winTarget 8 ∘ unitIs 2 ∘ winOf 8 (some 5))).hub.openTxn (Master.core sc) = none ∧
      (st (winTarget 8 ∘ unitIs 2 ∘ winOf 8 (some 5))).hub.retired = false ∧ ((st (winTarget 8 ∘ unitIs 2 ∘ winOf 8
      (some 5))).hub.unit unit8).mute = none ∧ rangeOf unit8 9 = some (cfgRange 9 255) ∧ (cfgRange 9 255).writable =
      true ∧ (st (winTarget 8 ∘ unitIs 2 ∘ winOf 8 (some 5))).hub.runState unit8 = RunState.halted ∧ ((st (winTarget 8
      ∘ unitIs 2 ∘ winOf 8 (some 5))).hub.spoke (dieOf unit8)).ppq.length < 16) ∧
    (Runs (st (winTarget 9 ∘ unitIs 2 ∘ pokes 16)) sc ∧ unitTarget ((st (winTarget 9 ∘ unitIs 2 ∘ pokes 16)).hub.gpr
      sc 5#5) 0 false = UnitTarget.mk unit8 9 false ∧ unitOk unit8 = true ∧ (st (winTarget 9 ∘ unitIs 2 ∘ pokes
      16)).hub.spokeOn (dieOf unit8) = true ∧ 3 ≤ (st (winTarget 9 ∘ unitIs 2 ∘ pokes 16)).hub.coreLevel sc ∧ (st
      (winTarget 9 ∘ unitIs 2 ∘ pokes 16)).hub.openTxn (Master.core sc) = none ∧ (st (winTarget 9 ∘ unitIs 2 ∘ pokes
      16)).hub.retired = false ∧ ((st (winTarget 9 ∘ unitIs 2 ∘ pokes 16)).hub.unit unit8).mute = none ∧ rangeOf unit8
      9 = some (cfgRange 9 255) ∧ (cfgRange 9 255).writable = true ∧ (st (winTarget 9 ∘ unitIs 2 ∘ pokes
      16)).hub.runState unit8 = RunState.halted ∧ 16 ≤ ((st (winTarget 9 ∘ unitIs 2 ∘ pokes 16)).hub.spoke (dieOf
      unit8)).ppq.length) ∧
    (unitOk unit8 = true ∧ (st (unitIs 1 ∘ halting none)).hub.runState unit8 = RunState.haltPending ∧ ((st (unitIs 1 ∘
      halting none)).hub.unit unit8).halt = some (haltX none) ∧ (haltX none).defer = none) ∧
    (unitOk unit8 = true ∧ ((st (winTarget 8 ∘ unitIs 2 ∘ winOf 8 (some 5))).hub.runState unit8 = RunState.running ∨
      (st (winTarget 8 ∘ unitIs 2 ∘ winOf 8 (some 5))).hub.runState unit8 = RunState.halted ∧ ((st (winTarget 8 ∘
      unitIs 2 ∘ winOf 8 (some 5))).hub.unit unit8).step = none)) ∧
    (Runs (st (winTarget 255 ∘ unitIs 0 ∘ mutes 0)) sc ∧ 0#5 ≠ statusReg ∧ unitTarget ((st (winTarget 255 ∘ unitIs 0 ∘
      mutes 0)).hub.gpr sc 5#5) 0 false = UnitTarget.mk unit8 255 false ∧ unitOk unit8 = true ∧ (st (winTarget 255 ∘
      unitIs 0 ∘ mutes 0)).hub.spokeOn (dieOf unit8) = true ∧ 2 ≤ (st (winTarget 255 ∘ unitIs 0 ∘ mutes
      0)).hub.coreLevel sc ∧ ((st (winTarget 255 ∘ unitIs 0 ∘ mutes 0)).hub.unit unit8).mute = some 0 ∧ rangeOf unit8
      255 = some (cfgRange 9 255) ∧ (st (winTarget 255 ∘ unitIs 0 ∘ mutes 0)).hub.runState unit8 = RunState.running) :=
  ⟨⟨runs_of (by decide +kernel), by decide +kernel⟩, ⟨runs_of (by decide +kernel), by decide +kernel⟩, ⟨runs_of
    (by decide +kernel), by decide +kernel⟩, ⟨runs_of (by decide +kernel), by decide +kernel⟩, ⟨runs_of
    (by decide +kernel), by decide +kernel⟩, ⟨runs_of (by decide +kernel), by decide +kernel⟩, by decide +kernel,
    by decide +kernel, ⟨runs_of (by decide +kernel), by decide +kernel⟩⟩

theorem met_UnitsAnswerTheQuench :
    (unitOk unit8 = true ∧ (st (unitIs 4 ∘ ackAt 2000000)).hub.cmds = [] ∧ ((st (unitIs 4 ∘ ackAt 2000000)).hub.unit
      unit8).ackDue ≠ none) ∧
    (unitOk 0 = true ∧ ((st (gp 5 (2 ^ 32 - 1))).hub.unit 0).ackDue = none) ∧
    (unitOk unit8 = true ∧ (st (unitIs 4 ∘ ackAt 2000000)).hub.cmds = [] ∧ ((st (unitIs 4 ∘ ackAt 2000000)).hub.unit
      unit8).ackDue = some 2000000 ∧ ((st (unitIs 4 ∘ ackAt 2000000)).hub.unit unit8).step = none ∧ ((st (unitIs 4 ∘
      ackAt 2000000)).hub.runState unit8 = RunState.quenched ∨ (st (unitIs 4 ∘ ackAt 2000000)).hub.runState unit8 =
      RunState.halted ∨ (st (unitIs 4 ∘ ackAt 2000000)).hub.runState unit8 = RunState.haltedHolding)) :=
  ⟨by decide +kernel, by decide +kernel, by decide +kernel⟩

theorem met_VynuondFramesAreReceived :
    ((2 = 1 ∨ 2 = 2) ∧ ((st (pf F.VYN_CFG_enable 0)).hub.get F.HRT_BOOT_STATUS_stage = 0 ∨ (st (pf F.VYN_CFG_enable
      0)).hub.isolated 118 = true ∨ (st (pf F.VYN_CFG_enable 0)).hub.domainOn 118 = false ∧ (st (pf F.VYN_CFG_enable
      0)).hub.flag F.HRT_STATE_ember = true)) ∧
    ((2 = 1 ∨ 2 = 2) ∧ (¬((st (stageIs 7 ∘ pf F.VYN_CFG_enable 0)).hub.get F.HRT_BOOT_STATUS_stage = 0 ∨ (st (stageIs
      7 ∘ pf F.VYN_CFG_enable 0)).hub.isolated 118 = true ∨ (st (stageIs 7 ∘ pf F.VYN_CFG_enable 0)).hub.domainOn 118
      = false ∧ (st (stageIs 7 ∘ pf F.VYN_CFG_enable 0)).hub.flag F.HRT_STATE_ember = true)) ∧ (st (stageIs 7 ∘ pf
      F.VYN_CFG_enable 0)).hub.flag F.VYN_CFG_enable = false) ∧
    ((2 = 1 ∨ 2 = 2) ∧ (¬((st (stageIs 7)).hub.get F.HRT_BOOT_STATUS_stage = 0 ∨ (st (stageIs 7)).hub.isolated 118 =
      true ∨ (st (stageIs 7)).hub.domainOn 118 = false ∧ (st (stageIs 7)).hub.flag F.HRT_STATE_ember = true)) ∧ (st
      (stageIs 7)).hub.flag F.VYN_CFG_enable = true) ∧
    ((st (stageIs 7)).hub.replayNext 2 = none) ∧
    ((st (stageIs 7)).hub.listens (hdrLink (frameHdr 1 65535 4 true)) = false ∧ (frameHdr 1 65535 4 true).opcode = 1) ∧
    ((st (stageIs 7)).hub.listens (hdrLink (frameHdr 3 65535 4 true)) = false ∧ (frameHdr 3 65535 4 true).opcode = 3) ∧
    ((st (stageIs 7)).hub.listens (hdrLink (frameHdr 4 65535 4 true)) = false ∧ (frameHdr 4 65535 4 true).opcode = 4) ∧
    ((st (stageIs 7)).hub.listens (hdrLink (frameHdr 16 65535 4 true)) = false ∧ (frameHdr 16 65535 4 true).opcode =
      16) ∧
    ((st (stageIs 7)).hub.listens (hdrLink (frameHdr 17 65535 4 true)) = false ∧ (frameHdr 17 65535 4 true).opcode =
      17) ∧
    ((st replays).hub.listens (hdrLink (frameHdr 1 65535 4 false)) = true ∧ (frameHdr 1 65535 4 false).crcOk = false ∧
      (frameHdr 1 65535 4 false).opcode = 1) ∧
    ((st replays).hub.listens (hdrLink (frameHdr 3 65535 4 false)) = true ∧ (frameHdr 3 65535 4 false).crcOk = false ∧
      (frameHdr 3 65535 4 false).opcode = 3) ∧
    ((st replays).hub.listens (hdrLink (frameHdr 4 65535 4 false)) = true ∧ (frameHdr 4 65535 4 false).crcOk = false ∧
      (frameHdr 4 65535 4 false).opcode = 4) ∧
    ((st replays).hub.listens (hdrLink (frameHdr 16 65535 4 false)) = true ∧ (frameHdr 16 65535 4 false).crcOk = false
      ∧ (frameHdr 16 65535 4 false).opcode = 16) ∧
    ((st replays).hub.listens (hdrLink (frameHdr 17 65535 4 false)) = true ∧ (frameHdr 17 65535 4 false).crcOk = false
      ∧ (frameHdr 17 65535 4 false).opcode = 17) ∧
    ((st replays).hub.listens (hdrLink (frameHdr 1 65535 4 true)) = true ∧ (frameHdr 1 65535 4 true).crcOk = true ∧
      ((st replays).hub.vlink (hdrLink (frameHdr 1 65535 4 true))).malformed (frameHdr 1 65535 4 true) = true ∧
      (frameHdr 1 65535 4 true).opcode = 1) ∧
    ((st replays).hub.listens (hdrLink (frameHdr 3 65535 4 true)) = true ∧ (frameHdr 3 65535 4 true).crcOk = true ∧
      ((st replays).hub.vlink (hdrLink (frameHdr 3 65535 4 true))).malformed (frameHdr 3 65535 4 true) = true ∧
      (frameHdr 3 65535 4 true).opcode = 3) ∧
    ((st replays).hub.listens (hdrLink (frameHdr 4 65535 4 true)) = true ∧ (frameHdr 4 65535 4 true).crcOk = true ∧
      ((st replays).hub.vlink (hdrLink (frameHdr 4 65535 4 true))).malformed (frameHdr 4 65535 4 true) = true ∧
      (frameHdr 4 65535 4 true).opcode = 4) ∧
    ((st replays).hub.listens (hdrLink (frameHdr 16 65535 4 true)) = true ∧ (frameHdr 16 65535 4 true).crcOk = true ∧
      ((st replays).hub.vlink (hdrLink (frameHdr 16 65535 4 true))).malformed (frameHdr 16 65535 4 true) = true ∧
      (frameHdr 16 65535 4 true).opcode = 16) ∧
    ((st replays).hub.listens (hdrLink (frameHdr 17 65535 4 true)) = true ∧ (frameHdr 17 65535 4 true).crcOk = true ∧
      ((st replays).hub.vlink (hdrLink (frameHdr 17 65535 4 true))).malformed (frameHdr 17 65535 4 true) = true ∧
      (frameHdr 17 65535 4 true).opcode = 17) ∧
    ((st (vynUp ∘ pf F.VYN_CFG_enable 1)).hub.listens (hdrLink (frameHdr 1 65535 4 true)) = true ∧ (frameHdr 1 65535 4
      true).crcOk = true ∧ ((st (vynUp ∘ pf F.VYN_CFG_enable 1)).hub.vlink (hdrLink (frameHdr 1 65535 4
      true))).malformed (frameHdr 1 65535 4 true) = false ∧ (frameHdr 1 65535 4 true).opcode ≠ 4 ∧ (frameHdr 1 65535 4
      true).seq ≠ ((st (vynUp ∘ pf F.VYN_CFG_enable 1)).hub.vlink (hdrLink (frameHdr 1 65535 4 true))).rxNext ∧
      (frameHdr 1 65535 4 true).opcode = 1) ∧
    ((st (vynUp ∘ pf F.VYN_CFG_enable 1)).hub.listens (hdrLink (frameHdr 3 65535 4 true)) = true ∧ (frameHdr 3 65535 4
      true).crcOk = true ∧ ((st (vynUp ∘ pf F.VYN_CFG_enable 1)).hub.vlink (hdrLink (frameHdr 3 65535 4
      true))).malformed (frameHdr 3 65535 4 true) = false ∧ (frameHdr 3 65535 4 true).opcode ≠ 4 ∧ (frameHdr 3 65535 4
      true).seq ≠ ((st (vynUp ∘ pf F.VYN_CFG_enable 1)).hub.vlink (hdrLink (frameHdr 3 65535 4 true))).rxNext ∧
      (frameHdr 3 65535 4 true).opcode = 3) ∧
    ((st (vynUp ∘ pf F.VYN_CFG_enable 1)).hub.listens (hdrLink (frameHdr 16 65535 4 true)) = true ∧ (frameHdr 16 65535
      4 true).crcOk = true ∧ ((st (vynUp ∘ pf F.VYN_CFG_enable 1)).hub.vlink (hdrLink (frameHdr 16 65535 4
      true))).malformed (frameHdr 16 65535 4 true) = false ∧ (frameHdr 16 65535 4 true).opcode ≠ 4 ∧ (frameHdr 16
      65535 4 true).seq ≠ ((st (vynUp ∘ pf F.VYN_CFG_enable 1)).hub.vlink (hdrLink (frameHdr 16 65535 4 true))).rxNext
      ∧ (frameHdr 16 65535 4 true).opcode = 16) ∧
    ((st (vynUp ∘ pf F.VYN_CFG_enable 1)).hub.listens (hdrLink (frameHdr 17 65535 4 true)) = true ∧ (frameHdr 17 65535
      4 true).crcOk = true ∧ ((st (vynUp ∘ pf F.VYN_CFG_enable 1)).hub.vlink (hdrLink (frameHdr 17 65535 4
      true))).malformed (frameHdr 17 65535 4 true) = false ∧ (frameHdr 17 65535 4 true).opcode ≠ 4 ∧ (frameHdr 17
      65535 4 true).seq ≠ ((st (vynUp ∘ pf F.VYN_CFG_enable 1)).hub.vlink (hdrLink (frameHdr 17 65535 4 true))).rxNext
      ∧ (frameHdr 17 65535 4 true).opcode = 17) ∧
    ((st (vynUp ∘ pf F.VYN_CFG_enable 1)).hub.listens (hdrLink (frameHdr 1 0 4 true)) = true ∧ (frameHdr 1 0 4
      true).crcOk = true ∧ ((st (vynUp ∘ pf F.VYN_CFG_enable 1)).hub.vlink (hdrLink (frameHdr 1 0 4 true))).malformed
      (frameHdr 1 0 4 true) = false ∧ (frameHdr 1 0 4 true).seq = ((st (vynUp ∘ pf F.VYN_CFG_enable 1)).hub.vlink
      (hdrLink (frameHdr 1 0 4 true))).rxNext ∧ (frameHdr 1 0 4 true).opcode = 1 ∧ bitAt 2 1 = true) ∧
    ((st (vynUp ∘ pf F.VYN_CFG_enable 1)).hub.listens (hdrLink (frameHdr 1 0 4 true)) = true ∧ (frameHdr 1 0 4
      true).crcOk = true ∧ ((st (vynUp ∘ pf F.VYN_CFG_enable 1)).hub.vlink (hdrLink (frameHdr 1 0 4 true))).malformed
      (frameHdr 1 0 4 true) = false ∧ (frameHdr 1 0 4 true).seq = ((st (vynUp ∘ pf F.VYN_CFG_enable 1)).hub.vlink
      (hdrLink (frameHdr 1 0 4 true))).rxNext ∧ (frameHdr 1 0 4 true).opcode = 1 ∧ bitAt 0 1 = false) ∧
    ((st (vynUp ∘ pf F.VYN_CFG_enable 1)).hub.listens (hdrLink (frameHdr 3 0 4 true)) = true ∧ (frameHdr 3 0 4
      true).crcOk = true ∧ ((st (vynUp ∘ pf F.VYN_CFG_enable 1)).hub.vlink (hdrLink (frameHdr 3 0 4 true))).malformed
      (frameHdr 3 0 4 true) = false ∧ (frameHdr 3 0 4 true).seq = ((st (vynUp ∘ pf F.VYN_CFG_enable 1)).hub.vlink
      (hdrLink (frameHdr 3 0 4 true))).rxNext ∧ (frameHdr 3 0 4 true).opcode = 3 ∧ ((st (vynUp ∘ pf F.VYN_CFG_enable
      1)).hub.vlink (hdrLink (frameHdr 3 0 4 true))).waiting = []) ∧
    ((st (vynUp ∘ pf F.VYN_CFG_enable 1)).hub.listens (hdrLink (frameHdr 16 0 4 true)) = true ∧ (frameHdr 16 0 4
      true).crcOk = true ∧ ((st (vynUp ∘ pf F.VYN_CFG_enable 1)).hub.vlink (hdrLink (frameHdr 16 0 4 true))).malformed
      (frameHdr 16 0 4 true) = false ∧ (frameHdr 16 0 4 true).seq = ((st (vynUp ∘ pf F.VYN_CFG_enable 1)).hub.vlink
      (hdrLink (frameHdr 16 0 4 true))).rxNext ∧ 0 < creditOf ((st (vynUp ∘ pf F.VYN_CFG_enable 1)).hub.vlink (hdrLink
      (frameHdr 16 0 4 true))).given (frameHdr 16 0 4 true).cls ∧ (frameHdr 16 0 4 true).opcode = 16) ∧
    ((st (vynUp ∘ pf F.VYN_CFG_enable 1)).hub.listens (hdrLink (frameHdr 17 0 4 true)) = true ∧ (frameHdr 17 0 4
      true).crcOk = true ∧ ((st (vynUp ∘ pf F.VYN_CFG_enable 1)).hub.vlink (hdrLink (frameHdr 17 0 4 true))).malformed
      (frameHdr 17 0 4 true) = false ∧ (frameHdr 17 0 4 true).seq = ((st (vynUp ∘ pf F.VYN_CFG_enable 1)).hub.vlink
      (hdrLink (frameHdr 17 0 4 true))).rxNext ∧ 0 < creditOf ((st (vynUp ∘ pf F.VYN_CFG_enable 1)).hub.vlink (hdrLink
      (frameHdr 17 0 4 true))).given (frameHdr 17 0 4 true).cls ∧ (frameHdr 17 0 4 true).opcode = 17) ∧
    ((st (vynUp ∘ pf F.VYN_CFG_enable 1)).hub.listens (hdrLink (frameHdr 4 65535 4 true)) = true ∧ (frameHdr 4 65535 4
      true).crcOk = true ∧ ((st (vynUp ∘ pf F.VYN_CFG_enable 1)).hub.vlink (hdrLink (frameHdr 4 65535 4
      true))).malformed (frameHdr 4 65535 4 true) = false ∧ (frameHdr 4 65535 4 true).opcode = 4) :=
  ⟨by decide +kernel, by decide +kernel, by decide +kernel, by decide +kernel, by decide +kernel, by decide +kernel,
    by decide +kernel, by decide +kernel, by decide +kernel, by decide +kernel, by decide +kernel, by decide +kernel,
    by decide +kernel, by decide +kernel, by decide +kernel, by decide +kernel, by decide +kernel, by decide +kernel,
    by decide +kernel, by decide +kernel, by decide +kernel, by decide +kernel, by decide +kernel, by decide +kernel,
    by decide +kernel, by decide +kernel, by decide +kernel, by decide +kernel, by decide +kernel⟩

theorem met_WaitsAndTimers :
    (Runs (st (gp 5 1000000)) sc ∧ BitVec.toNat ((st (gp 5 1000000)).hub.gpr sc 0#5) ≤ (st (gp 5
      1000000)).clk.chipTime) ∧
    (Runs (st (gp 5 1000001)) sc ∧ (st (gp 5 1000001)).clk.chipTime < BitVec.toNat ((st (gp 5 1000001)).hub.gpr sc
      5#5)) ∧
    (coreOk sc = true ∧ (st (waits (Wait.twait 1000000))).hub.cget F.STK_DBG_STATUS_steps_left sc = 0 ∧ ((st (waits
      (Wait.twait 1000000))).hub.core sc).haltAsked = false ∧ ((st (waits (Wait.twait 1000000))).hub.core
      sc).wdogRaised = false ∧ ((st (waits (Wait.twait 1000000))).hub.core sc).wait = Wait.twait 1000000) ∧
    (coreOk sc = true ∧ (st (waits (Wait.waitev 5 3 2000000))).hub.cget F.STK_DBG_STATUS_steps_left sc = 0 ∧ ((st
      (waits (Wait.waitev 5 3 2000000))).hub.core sc).haltAsked = false ∧ ((st (waits (Wait.waitev 5 3
      2000000))).hub.core sc).wdogRaised = false ∧ 2000000 ≠ 0 ∧ ((st (waits (Wait.waitev 5 3 2000000))).hub.core
      sc).wait = Wait.waitev (5#5) 3 2000000) ∧
    (coreOk sc = true ∧ (st (waits (Wait.recv 5 2000000))).hub.cget F.STK_DBG_STATUS_steps_left sc = 0 ∧ ((st (waits
      (Wait.recv 5 2000000))).hub.core sc).haltAsked = false ∧ ((st (waits (Wait.recv 5 2000000))).hub.core
      sc).wdogRaised = false ∧ 2000000 ≠ 0 ∧ ((st (waits (Wait.recv 5 2000000))).hub.core sc).wait = Wait.recv (5#5)
      2000000) ∧
    (coreOk sc = true ∧ (st (waits (Wait.cwait 5 3 2000000))).hub.cget F.STK_DBG_STATUS_steps_left sc = 0 ∧ ((st
      (waits (Wait.cwait 5 3 2000000))).hub.core sc).haltAsked = false ∧ ((st (waits (Wait.cwait 5 3
      2000000))).hub.core sc).wdogRaised = false ∧ 2000000 ≠ 0 ∧ ((st (waits (Wait.cwait 5 3 2000000))).hub.core
      sc).wait = Wait.cwait (5#5) 3 2000000) ∧
    (coreOk sc = true ∧ 3 < 64 ∧ (st (slotX sc 3 (2 + 16 + 5 * 256) 1 (some 2000000))).hub.slot sc 3 = some (slotOf (2
      + 16 + 5 * 256) 1 (some 2000000)) ∧ (slotOf (2 + 16 + 5 * 256) 1 (some 2000000)).desc < 2 ^ 64 ∧ (slotOf (2 + 16
      + 5 * 256) 1 (some 2000000)).due = some 2000000 ∧ (slotOf (2 + 16 + 5 * 256) 1 (some 2000000)).fifo.length < 8 ∧
      ((st (slotX sc 3 (2 + 16 + 5 * 256) 1 (some 2000000))).hub.core sc).wait = Wait.idle) :=
  ⟨⟨runs_of (by decide +kernel), by decide +kernel⟩, ⟨runs_of (by decide +kernel), by decide +kernel⟩,
    by decide +kernel, by decide +kernel, by decide +kernel, by decide +kernel, by decide +kernel⟩

theorem met_WatchdogAndCoreReset :
    (coreOk sc = true ∧ ((st (wdogAt 2000000)).hub.core sc).wdogDue = some 2000000 ∧ (st (wdogAt 2000000)).hub.cget
      F.STK_CAUSE_active sc = 0 ∧ ((st (wdogAt 2000000)).hub.core sc).wait = Wait.idle) ∧
    (coreOk sc = true ∧ ((st (waits (Wait.fence 3) ∘ wdogAt 2000000)).hub.core sc).wdogDue = some 2000000 ∧ (st (waits
      (Wait.fence 3) ∘ wdogAt 2000000)).hub.cget F.STK_CAUSE_active sc = 0 ∧ ((st (waits (Wait.fence 3) ∘ wdogAt
      2000000)).hub.core sc).wait ≠ Wait.idle ∧ ((st (waits (Wait.fence 3) ∘ wdogAt 2000000)).hub.core
      sc).wait.interruptible = false) ∧
    (coreOk sc = true ∧ ((st (cp F.STK_CAUSE_active 1 ∘ wdogAt 2000000)).hub.core sc).wdogDue = some 2000000 ∧ (st (cp
      F.STK_CAUSE_active 1 ∘ wdogAt 2000000)).hub.cget F.STK_CAUSE_active sc = 1) ∧
    (Runs (st (cp F.STK_DBG_CTL_attach 1)) sc ∧ (st (cp F.STK_DBG_CTL_attach 1)).hub.attached sc = true) ∧
    (coreOk sc = true ∧ (st (cp F.STK_DBG_CTL_attach 1 ∘ pc 64 ∘ pf F.STK_DBG_BP_enable 1 (coreIdx sc * 2) ∘ pf
      F.STK_DBG_BP_addr 16 (coreIdx sc * 2))).hub.ready sc = true ∧ (st (cp F.STK_DBG_CTL_attach 1 ∘ pc 64 ∘ pf
      F.STK_DBG_BP_enable 1 (coreIdx sc * 2) ∘ pf F.STK_DBG_BP_addr 16 (coreIdx sc * 2))).hub.breakpointHit sc
      (BitVec.toNat ((st (cp F.STK_DBG_CTL_attach 1 ∘ pc 64 ∘ pf F.STK_DBG_BP_enable 1 (coreIdx sc * 2) ∘ pf
      F.STK_DBG_BP_addr 16 (coreIdx sc * 2))).hub.pc sc)) = true ∧ ((st (cp F.STK_DBG_CTL_attach 1 ∘ pc 64 ∘ pf
      F.STK_DBG_BP_enable 1 (coreIdx sc * 2) ∘ pf F.STK_DBG_BP_addr 16 (coreIdx sc * 2))).hub.core sc).bpSkip = false) :=
  ⟨by decide +kernel, by decide +kernel, by decide +kernel, ⟨runs_of (by decide +kernel), by decide +kernel⟩,
    by decide +kernel⟩

end Sys2Proof.Tests
end

section
/-! PROOF. What an instruction of a Striker core leaves that raises an exception, and what becomes of memory when one
completes: the rules that the statements about the instruction set share. -/

namespace Sys2Proof.Machine

open Sys2Proof

@[simp] theorem State.hub_withHub (s : State) (h : Hub) : (s.withHub h).hub = h := rfl
@[simp] theorem State.clk_withHub (s : State) (h : Hub) : (s.withHub h).clk = s.clk := rfl
@[simp] theorem State.pending_withHub (s : State) (h : Hub) : (s.withHub h).pending = s.pending := rfl

/-! ### Entering an exception (R130) -/

theorem Cause.code_lt (k : Cause) : k.code < 2 ^ 8 := by cases k <;> decide

/-- The registers that entering an exception leaves. -/
theorem Hub.reg_enterException (h : Hub) (c : Nat) (k : Cause) (bad : Nat) {r : Reg} {i : Nat}
    (hn : ¬ (i = coreIdx c ∧ (r = .STK_EPC ∨ r = .STK_CAUSE ∨ r = .STK_BADADDR ∨ r = .STK_DBG_PC))) :
    (h.enterException c k bad).reg r i = h.reg r i := by
  have ne : ∀ x : Reg, x = .STK_EPC ∨ x = .STK_CAUSE ∨ x = .STK_BADADDR ∨ x = .STK_DBG_PC →
      ¬ (r = x ∧ i = coreIdx c) := by
    rintro x hx ⟨rfl, hi⟩
    exact hn ⟨hi, hx⟩
  simp [Hub.enterException, Hub.setPc, Hub.cput, Hub.put, F.STK_CAUSE_active, F.STK_CAUSE_cause, Hub.reg_setReg, ne]

/-- Entering an exception leaves a core's registers but the four it writes, and so their fields. -/
theorem Hub.cget_enterException (h : Hub) (c : Nat) (k : Cause) (bad : Nat) {f : Fld}
    (hf : ¬ (f.reg = .STK_EPC ∨ f.reg = .STK_CAUSE ∨ f.reg = .STK_BADADDR ∨ f.reg = .STK_DBG_PC)) :
    (h.enterException c k bad).cget f c = h.cget f c := by
  simp only [Hub.cget, Hub.get, Hub.reg_enterException h c k bad (fun hx => hf hx.2)]

@[simp] theorem Hub.mem_enterException (h : Hub) (c : Nat) (k : Cause) (bad : Nat) :
    (h.enterException c k bad).mem = h.mem := by simp [Hub.enterException, Hub.setPc, Hub.cput]

theorem Hub.haltAsked_enterException (h : Hub) (c : Nat) (k : Cause) (bad : Nat) :
    ((h.enterException c k bad).core c).haltAsked = (h.core c).haltAsked := by
  simp [Hub.enterException, Hub.setPc, Hub.cput, Hub.core_modCore]

/-- With no exception active, no step and no halt asked for, an exception is entered and that is all. -/
theorem Hub.takeException_enters (h : Hub) (t c : Nat) (k : Cause) (bad : Nat)
    (h1 : h.cget F.STK_CAUSE_active c = 0) (h2 : h.cget F.STK_DBG_STATUS_steps_left c = 0)
    (h3 : (h.core c).haltAsked = false) : h.takeException t c k bad = h.enterException c k bad := by
  unfold Hub.takeException
  rw [if_neg (by simp [h1])]
  apply Hub.boundary_id
  · rw [Hub.cget_enterException _ _ _ _ (by simp [F.STK_DBG_STATUS_steps_left]), h2]
  · rw [Hub.haltAsked_enterException, h3]

/-- What entering an exception leaves, in a state whose core differs only in what it holds beside its registers. -/
theorem State.raised_enterException (s : State) (c : Nat) (f : CoreX → CoreX) (k : Cause) (bad : Nat) :
    Raised s (s.withHub ((s.hub.modCore c f).enterException c k bad)) c k bad where
  epc := by
    simp [Hub.enterException, Hub.setPc, Hub.cput, Hub.put, F.STK_CAUSE_active, F.STK_CAUSE_cause,
      Hub.reg_setReg]
  cause := by
    simp only [State.hub_withHub, Hub.enterException, Hub.setPc, Hub.cput, Hub.cget, Hub.get_modCore]
    rw [Hub.get_setReg_ne _ _ _ _ (by decide), Hub.get_setReg_ne _ _ _ _ (by decide),
      Hub.get_put_field _ _ _ _ (by decide) (by decide), Hub.get_put_same _ _ _ _ (by decide)]
    exact Nat.mod_eq_of_lt k.code_lt
  active := by
    simp only [State.hub_withHub, Hub.enterException, Hub.setPc, Hub.cput, Hub.cget, Hub.get_modCore]
    rw [Hub.get_setReg_ne _ _ _ _ (by decide), Hub.get_setReg_ne _ _ _ _ (by decide),
      Hub.get_put_same _ _ _ _ (by decide)]
    rfl
  bad := by
    simp [Hub.enterException, Hub.setPc, Hub.reg_setReg]
  pc := by
    simp [Hub.enterException, Hub.setPc, Hub.cput, Hub.cget, Hub.pc]
  regs := fun r i hn => Hub.reg_enterException _ _ _ _ hn
  mem := fun _ _ => by simp [Hub.byte]
  clk := State.clk_withHub _ _
  pending := State.pending_withHub _ _

/-- An instruction that is carried out with no exception active, and raises one. -/
theorem Completes.of_raise {i : Instr} {s : State} {c : Nat} {k : Cause} {bad : Nat} (f : Nat → Hub → Effect)
    (he : exec i s = s.instr c f) (hr : Runs s c) (ha : s.hub.cget F.STK_CAUSE_active c = 0)
    (hf : f s.clk.chipTime (s.hub.modCore c fun x => { x with bpSkip := false }) = .raise k bad) :
    Completes i s fun t => Raised s t c k bad := by
  refine ⟨_, he.trans (State.instr_runs hr f), ?_⟩
  rw [hf, Effect.finish, Hub.takeException_enters]
  · exact State.raised_enterException s c _ k bad
  · exact ha
  · exact hr.noStep
  · simpa [Hub.core_modCore] using hr.noHalt

/-! ### Completing an instruction (R91) -/

/-- An instruction that completes with nothing to take at its boundary leaves the memory that its effect left. -/
theorem Hub.mem_retire (h : Hub) (t c : Nat) (p : Word) (h1 : h.cget F.STK_DBG_STATUS_steps_left c = 0)
    (h2 : (h.core c).haltAsked = false) (h3 : (h.core c).wdogRaised = true → h.cget F.STK_CAUSE_active c ≠ 0) :
    (h.retire t c p).mem = h.mem := by
  unfold Hub.retire
  rw [Hub.boundary_id, Hub.takeWatchdog_id]
  · simp [Hub.setPc]
  · simpa [Hub.setPc, Hub.core_modCore, Hub.cget, Hub.get_setReg_ne, F.STK_CAUSE_active] using h3
  · simpa [Hub.setPc, Hub.cget, Hub.get_setReg_ne, F.STK_DBG_STATUS_steps_left] using h1
  · simpa [Hub.setPc, Hub.core_modCore] using h2

end Sys2Proof.Machine
end

section
/-! PROOF. Little-endian bytes (R9) as words: a load's number in terms of the bytes it reads, and the bytes of a number
that is stored. -/

namespace Sys2Proof.Machine

open Sys2Proof

theorem zextBytes_ofBytesLE_cons (b : Byte) (bs : List Byte) :
    zextBytes (ofBytesLE (b :: bs)) = b.setWidth 64 ||| zextBytes (ofBytesLE bs) <<< 8 := by
  have hor : b.toNat + 256 * ofBytesLE bs = 2 ^ 8 * ofBytesLE bs ||| b.toNat := by
    rw [← Nat.two_pow_add_eq_or_of_lt b.isLt, Nat.add_comm]
  have hshift : BitVec.ofNat 64 (2 ^ 8 * ofBytesLE bs) = BitVec.ofNat 64 (ofBytesLE bs) <<< 8 := by
    apply BitVec.eq_of_toNat_eq
    simp [Nat.shiftLeft_eq, Nat.mul_comm]
  rw [zextBytes, ofBytesLE, hor, BitVec.ofNat_or, hshift, BitVec.or_comm, BitVec.ofNat_toNat]
  rfl

/-- The bytes from an address up, first one first. -/
theorem Hub.bytes_succ (h : Hub) (a n : Nat) : h.bytes a (n + 1) = h.byte a :: h.bytes (a + 1) n := by
  simp [Hub.bytes, List.range_succ_eq_map, Function.comp_def, Nat.add_assoc, Nat.add_comm 1]

/-- A word of `n + 1` bytes: its first byte below the word of the others. -/
theorem zextBytes_rd_succ (h : Hub) (a n : Nat) :
    zextBytes (h.rd a (n + 1)) = (h.byte a).setWidth 64 ||| zextBytes (h.rd (a + 1) n) <<< 8 := by
  rw [Hub.rd, Hub.bytes_succ, zextBytes_ofBytesLE_cons]
  rfl

@[simp] theorem zextBytes_rd_zero (h : Hub) (a : Nat) : zextBytes (h.rd a 0) = 0 := rfl

/-- The byte `k` places above an address, as a word. -/
def Hub.byteWord (h : Hub) (a k : Nat) : Word := (h.byte (a + k)).setWidth 64

theorem zextBytes_rd_one (h : Hub) (a : Nat) : zextBytes (h.rd a 1) = h.byteWord a 0 := by
  simp [Hub.byteWord, zextBytes_rd_succ]

theorem zextBytes_rd_two (h : Hub) (a : Nat) :
    zextBytes (h.rd a 2) = h.byteWord a 0 ||| h.byteWord a 1 <<< 8 := by
  simp [Hub.byteWord, zextBytes_rd_succ]

theorem zextBytes_rd_four (h : Hub) (a : Nat) :
    zextBytes (h.rd a 4) = h.byteWord a 0 ||| h.byteWord a 1 <<< 8 ||| h.byteWord a 2 <<< 16 |||
      h.byteWord a 3 <<< 24 := by
  simp [Hub.byteWord, zextBytes_rd_succ, BitVec.shiftLeft_or_distrib, ← BitVec.shiftLeft_add, BitVec.or_assoc,
    Nat.add_assoc]

theorem zextBytes_rd_eight (h : Hub) (a : Nat) :
    zextBytes (h.rd a 8) = h.byteWord a 0 ||| h.byteWord a 1 <<< 8 ||| h.byteWord a 2 <<< 16 |||
      h.byteWord a 3 <<< 24 ||| h.byteWord a 4 <<< 32 ||| h.byteWord a 5 <<< 40 ||| h.byteWord a 6 <<< 48 |||
      h.byteWord a 7 <<< 56 := by
  simp [Hub.byteWord, zextBytes_rd_succ, BitVec.shiftLeft_or_distrib, ← BitVec.shiftLeft_add, BitVec.or_assoc,
    Nat.add_assoc]

/-- Sign extension of the low `n` bytes of a word. -/
theorem sextBytes_eq_signExtend {n v : Nat} {w : Word} (h0 : 0 < n) (h8 : n ≤ 8) (hw : zextBytes v = w) :
    sextBytes n v = (w.setWidth (8 * n)).signExtend 64 := by
  rw [← hw, zextBytes, BitVec.setWidth_ofNat_of_le (by omega)]
  have hp : 2 ^ (8 * n) = 2 * 2 ^ (8 * n - 1) := by rw [← Nat.pow_succ']; congr 1; omega
  rw [sextBytes, BitVec.signExtend, BitVec.toInt_eq_toNat_cond, BitVec.toNat_ofNat]
  congr 1
  by_cases hneg : v % 2 ^ (8 * n) < 2 ^ (8 * n - 1)
  · rw [signedOf, if_pos hneg, if_pos (by omega)]
  · rw [signedOf, if_neg hneg, if_neg (by omega)]

theorem bytesLE_getElem (n v k : Nat) (hk : k < (bytesLE n v).length) :
    (bytesLE n v)[k] = BitVec.ofNat 8 (v / 256 ^ k) := by
  induction n generalizing v k with
  | zero => simp [bytesLE] at hk
  | succ n ih =>
    cases k with
    | zero => simp [bytesLE]
    | succ k => simp [bytesLE, ih, Nat.div_div_eq_div_mul, Nat.pow_succ']

/-- A stored word reads back byte by byte. -/
theorem Hub.byte_wr_inside (h : Hub) (a n : Nat) (v : Word) {k : Nat} (hk : k < n) :
    (h.wr a n v.toNat).byte (a + k) = v.extractLsb' (8 * k) 8 := by
  rw [Hub.wr, Hub.byte_setBytes, dif_pos (by rw [bytesLE_length]; omega), bytesLE_getElem]
  simp [BitVec.extractLsb', Nat.shiftRight_eq_div_pow, Nat.pow_mul]

end Sys2Proof.Machine
end

section
/-! PROOF. The local loads and stores (R93): one rule for a load, one for a store and one for either that raises an
exception. -/

namespace Sys2Proof.Machine

open Sys2Proof

theorem localCheck_inside {c a n : Nat} (hin : a + n ≤ localSize c) (hal : a % n = 0) : localCheck c a n = none := by
  rw [localCheck, if_neg (by omega), if_neg (by simp [hal])]

theorem localCheck_beyond {c a n : Nat} (ho : localSize c < a + n) : localCheck c a n = some .localRange := by
  rw [localCheck, if_pos ho]

theorem localCheck_misaligned {c a n : Nat} (hin : a + n ≤ localSize c) (hal : a % n ≠ 0) :
    localCheck c a n = some .localAlign := by
  rw [localCheck, if_neg (by omega), if_pos hal]

@[simp] theorem Hub.effAddr_modCore (h : Hub) (c d : Nat) (f : CoreX → CoreX) (rs1 : RegNo) (imm : Imm16) :
    (h.modCore d f).effAddr c rs1 imm = h.effAddr c rs1 imm := rfl

theorem Hub.pc_setGpr (h : Hub) (c d : Nat) (rd : RegNo) (v : Word) : (h.setGpr c rd v).pc d = h.pc d :=
  Hub.reg_setGpr h c rd v _ _ (by simp)

theorem effLoad_done {c n : Nat} {h : Hub} {rs1 : RegNo} {imm : Imm16} (rd : RegNo) (ext : Nat → Word)
    (hc : localCheck c (h.effAddr c rs1 imm) n = none) :
    effLoad c rd rs1 imm n ext h = .done (h.setGpr c rd (ext (h.rd (localBase c + h.effAddr c rs1 imm) n))) := by
  rw [effLoad, hc]

theorem effLoad_raise {c n : Nat} {h : Hub} {rs1 : RegNo} {imm : Imm16} {k : Cause} (rd : RegNo) (ext : Nat → Word)
    (hc : localCheck c (h.effAddr c rs1 imm) n = some k) :
    effLoad c rd rs1 imm n ext h = .raise k (h.effAddr c rs1 imm) := by
  rw [effLoad, hc]

theorem effStore_done {c n : Nat} {h : Hub} {rs1 : RegNo} {imm : Imm16} (rs2 : RegNo)
    (hc : localCheck c (h.effAddr c rs1 imm) n = none) :
    effStore c rs2 rs1 imm n h = .done (h.wr (localBase c + h.effAddr c rs1 imm) n (h.gpr c rs2).toNat) := by
  rw [effStore, hc]

theorem effStore_raise {c n : Nat} {h : Hub} {rs1 : RegNo} {imm : Imm16} {k : Cause} (rs2 : RegNo)
    (hc : localCheck c (h.effAddr c rs1 imm) n = some k) :
    effStore c rs2 rs1 imm n h = .raise k (h.effAddr c rs1 imm) := by
  rw [effStore, hc]

section
variable {i : Instr} {s : State} {c n : Nat} {r rs1 : RegNo} {imm : Imm16}

/-- An aligned load inside local memory. -/
theorem Completes.of_load {ext : Nat → Word} {v : Word}
    (he : exec i s = s.instr c fun _ h => effLoad c r rs1 imm n ext h) (hr : Runs s c)
    (hin : s.hub.effAddr c rs1 imm + n ≤ localSize c) (hal : s.hub.effAddr c rs1 imm % n = 0)
    (hv : ext (s.hub.rd (localBase c + s.hub.effAddr c rs1 imm) n) = v) :
    Completes i s fun t => Left s t c r v (s.hub.pc c + 4) fun _ => False := by
  refine ⟨_, he.trans (State.instr_runs hr _), ?_⟩
  rw [effLoad_done _ _ (by simpa using localCheck_inside hin hal), Effect.finish, Hub.pc_setGpr]
  simpa [hv] using State.left_setGpr hr r v (s.hub.pc c + 4)

/-- An aligned store inside local memory. -/
theorem Completes.of_store (he : exec i s = s.instr c fun _ h => effStore c r rs1 imm n h) (hr : Runs s c)
    (hin : s.hub.effAddr c rs1 imm + n ≤ localSize c) (hal : s.hub.effAddr c rs1 imm % n = 0) :
    Completes i s fun t =>
      Left s t c 0 0 (s.hub.pc c + 4) (fun x => localBase c + s.hub.effAddr c rs1 imm ≤ x ∧
        x < localBase c + s.hub.effAddr c rs1 imm + n) ∧
      ∀ k, k < n → t.hub.byte (localBase c + s.hub.effAddr c rs1 imm + k) =
        (s.hub.gpr c r).extractLsb' (8 * k) 8 := by
  refine ⟨_, he.trans (State.instr_runs hr _), ?_⟩
  rw [effStore_done _ (by simpa using localCheck_inside hin hal), Effect.finish]
  constructor
  · exact State.left_of hr 0 0 (s.hub.pc c + 4) _
      (s.hub.wr (localBase c + s.hub.effAddr c rs1 imm) n (s.hub.gpr c r).toNat).mem
      fun x hx => Hub.byte_wr_outside _ _ _ _ _ (by omega)
  · intro k hk
    rw [State.hub_withHub, Hub.byte, Hub.mem_retire]
    · exact Hub.byte_wr_inside s.hub _ n _ hk
    · exact hr.noStep
    · simpa [Hub.wr, Hub.core_modCore] using hr.noHalt
    · simpa [Hub.wr, Hub.core_modCore, Hub.cget] using hr.noWatch

/-- A local access that reaches beyond local memory, or is misaligned inside it. -/
theorem Completes.of_localFault {f : Nat → Hub → Effect} (he : exec i s = s.instr c f)
    (hf : ∀ t h k, localCheck c (h.effAddr c rs1 imm) n = some k → f t h = .raise k (h.effAddr c rs1 imm))
    (hr : Runs s c) (ha : s.hub.cget F.STK_CAUSE_active c = 0)
    (hbad : ¬ (s.hub.effAddr c rs1 imm + n ≤ localSize c ∧ s.hub.effAddr c rs1 imm % n = 0)) :
    Completes i s fun t =>
      if localSize c < s.hub.effAddr c rs1 imm + n then Raised s t c .localRange (s.hub.effAddr c rs1 imm)
      else Raised s t c .localAlign (s.hub.effAddr c rs1 imm) := by
  split
  · next ho => exact .of_raise f he hr ha (hf _ _ _ (localCheck_beyond ho))
  · next hi =>
    have hin : s.hub.effAddr c rs1 imm + n ≤ localSize c := Nat.le_of_not_lt hi
    exact .of_raise f he hr ha (hf _ _ _ (localCheck_misaligned hin fun hal => hbad ⟨hin, hal⟩))

end

/-- Settles O4: the effective address lies in one of the cases of `localCheck`, and what is loaded is the bytes read
together, the first one lowest. -/
theorem localAccesses : Obligations.LocalAccesses := by
  intro s c r rs1 imm hr a b gives stores raises
  have badLoad : ∀ {i n ext}, exec i s = (s.instr c fun _ h => effLoad c r rs1 imm n ext h) →
      s.hub.cget F.STK_CAUSE_active c = 0 → ¬ (a + n ≤ localSize c ∧ a % n = 0) → Completes i s (raises n) :=
    fun he ha hbad => .of_localFault he (fun _ _ _ => effLoad_raise _ _) hr ha hbad
  have badStore : ∀ {i n}, exec i s = (s.instr c fun _ h => effStore c r rs1 imm n h) →
      s.hub.cget F.STK_CAUSE_active c = 0 → ¬ (a + n ≤ localSize c ∧ a % n = 0) → Completes i s (raises n) :=
    fun he ha hbad => .of_localFault he (fun _ _ _ => effStore_raise _) hr ha hbad
  refine ⟨fun ⟨hin, hal⟩ => ⟨.of_load rfl hr hin hal (zextBytes_rd_eight _ _), .of_store rfl hr hin hal⟩,
    fun ⟨hin, hal⟩ => ⟨
      .of_load rfl hr hin hal (sextBytes_eq_signExtend (by decide) (by decide) (zextBytes_rd_four _ _)),
      .of_load rfl hr hin hal (zextBytes_rd_four _ _), .of_store rfl hr hin hal⟩,
    fun ⟨hin, hal⟩ => ⟨
      .of_load rfl hr hin hal (sextBytes_eq_signExtend (by decide) (by decide) (zextBytes_rd_two _ _)),
      .of_load rfl hr hin hal (zextBytes_rd_two _ _), .of_store rfl hr hin hal⟩,
    fun hin => ?_,
    fun ha => ⟨fun hbad => ⟨badLoad rfl ha hbad, badStore rfl ha hbad⟩,
      fun hbad => ⟨badLoad rfl ha hbad, badLoad rfl ha hbad, badStore rfl ha hbad⟩,
      fun hbad => ⟨badLoad rfl ha hbad, badLoad rfl ha hbad, badStore rfl ha hbad⟩,
      fun hout => ?_⟩⟩
  · have hal : a % 1 = 0 := Nat.mod_one a
    exact ⟨.of_load rfl hr hin hal (sextBytes_eq_signExtend (by decide) (by decide) (zextBytes_rd_one _ _)),
      .of_load rfl hr hin hal (zextBytes_rd_one _ _), .of_store rfl hr hin hal⟩
  · have hbad : ¬ (a + 1 ≤ localSize c ∧ a % 1 = 0) := fun h => hout h.1
    exact ⟨badLoad rfl ha hbad, badLoad rfl ha hbad, badStore rfl ha hbad⟩

end Sys2Proof.Machine
end

section
/-! PROOF. h0 and h31: the registers of a core that an instruction does not write as it does the others (R87, R89). -/

namespace Sys2Proof.Machine

open Sys2Proof

@[simp] theorem Hub.gpr_zero (h : Hub) (c : Nat) : h.gpr c 0 = 0 := if_pos rfl

@[simp] theorem Hub.setGpr_zero (h : Hub) (c : Nat) (v : Word) : h.setGpr c 0 v = h := if_pos rfl

/-- A read of any general register after a write of one that is not h0. -/
theorem Hub.gpr_setGpr (h : Hub) (c : Nat) {r : RegNo} (q : RegNo) (v : Word) (hr : r ≠ 0) :
    (h.setGpr c r v).gpr c q = if q = r then v else h.gpr c q := by
  split
  · next hq => rw [hq, Hub.gpr_setGpr_same, if_neg hr]
  · next hq =>
    have hreg := Hub.reg_setGpr h c r v .STK_DBG_GPR (coreIdx c * 32 + q.toNat)
      (fun hx => hq (BitVec.eq_of_toNat_eq (by omega)))
    unfold Hub.gpr
    rw [hreg]

/-- An S instruction that names h31 as rd raises ILLEGAL, whatever its effect would be otherwise (R89). -/
theorem Completes.of_statusReg {i : Instr} {s : State} {c : Nat} {e : Nat → Hub → Effect}
    (he : exec i s = s.instr c fun t h => sEffect statusReg (e t h)) (hr : Runs s c)
    (ha : s.hub.cget F.STK_CAUSE_active c = 0) : Completes i s fun t => Raised s t c .illegal 0 :=
  .of_raise _ he hr ha (if_pos rfl)

/-- Settles O54: h0 by the two tests for it, the others by the register store, and h31 by the rule that every S
instruction with an rd field goes through first. -/
theorem fixedRegisters : Obligations.FixedRegisters := by
  refine ⟨fun h c v => ⟨h.gpr_zero c, h.setGpr_zero c v⟩, fun h c r q v _ hr => h.gpr_setGpr c q v hr, ?_⟩
  intro s c hr ha illegal rd a b imm off group nowait
  have raises : ∀ {i : Instr} {e : Nat → Hub → Effect},
      exec i s = (s.instr c fun t h => sEffect statusReg (e t h)) → illegal i :=
    fun he => .of_statusReg he hr ha
  exact ⟨raises rfl, raises rfl, raises rfl, raises rfl, raises rfl, raises rfl, raises rfl, raises rfl, raises rfl,
    raises rfl, raises rfl, raises rfl, raises rfl, raises rfl, raises rfl, raises rfl, raises rfl, raises rfl,
    raises rfl, raises rfl, raises rfl⟩

end Sys2Proof.Machine
end
